-- ==== Sys2Proof/Word.lean ====
section
/-!
DEFINITION. The word types of the model.
-/
namespace Sys2Proof

/-- A byte. -/
abbrev Byte := BitVec 8
/-- A 64-bit register word (00, Register tables). -/
abbrev Word := BitVec 64
/-- A 32-bit lane, entry or scalar. -/
abbrev Word32 := BitVec 32

/-- A sparse table from a number to a value: key and value pairs, keys strictly rising. -/
abbrev Table (α : Type) := List (Nat × α)

end Sys2Proof
end

