-- ==== Sys2Proof/Syntax.lean ====
section
/-!
DEFINITION. The commands of the block: one constructor of `Instr` per row of spec/opcode_table.json,
with the operand types they use. The table gives the rows no operands; each constructor's operands name
the unit the step concerns and what comes from outside the device at that step (log entry 1).
-/
namespace Sys2Proof

/-- The world of a requester or a block (R409): `true` is secure. -/
abbrev World := Bool
/-- Field die F0 to F15 (R10). -/
abbrev Die := Fin 16
/-- Any die as `RW.DSTDIE` codes it: 0 to 15 field, 16 W, 17 E, 18 K (R25). -/
abbrev AnyDie := Fin 19
/-- Physical tile Fn.Tt, numbered 52n + t (R430). -/
abbrev PTile := Fin 832
/-- Logical tile (R428). -/
abbrev LTile := Fin 768
/-- Sequencer context of a tile (R114). -/
abbrev Ctx := Fin 2
/-- Rim die: 0 W, 1 E. -/
abbrev Rim := Fin 2
/-- Package index of a fabric region, 8n + r (R216). -/
abbrev RegionIx := Fin 128
/-- Spoke direction 2i + d (R22). -/
abbrev SpokeDir := Fin 68
/-- Islamon channel (R373). -/
abbrev Chan := Fin 64
/-- Vorot port 0 to 11 (R187). -/
abbrev VPort := Fin 12

/-- The engines that keep a flag word (R93, R157). -/
inductive Engine where
  | array | h1 | mvp | tvu0 | tvu1
deriving DecidableEq, Repr

/-- What the tile's storage shows when a step reads it: nothing, a corrected error (R91, R124), or one of
the faults that the hardware, not the work, raises (R122, R159). -/
inductive HwEvent where
  | none
  | corrected (bankA bankB acc : Nat)
  | opbufUe (bankB : Bool) (addr : Nat)
  | accUe (entry : Nat)
  | planeParity (row col : Fin 64) (plane : Bool)
  | seqParity
  | imemParity
  | regParity
deriving DecidableEq, Repr

/-- One port access of a block memory with the port's configured settings (R229 to R233). -/
structure BmAccess where
  /-- Word width code 0 to 6: 1, 2, 4, 9, 18, 36, 72 bits. -/
  shape : Fin 7
  addr  : Nat
  write : Option (BitVec 72)
  /-- 0 read-first, 1 write-first, 2 unchanged. -/
  mode  : Fin 3
  code  : Bool
  /-- The clock generator of the port, none when a handshake controller drives it; its output register is enabled. -/
  clk   : Option (Fin 4) := none
  outReg : Bool := false
deriving DecidableEq, Repr

/-- What the error code of a word shows on a read (R272, R281). -/
inductive EccResult where
  | clean | corrected | uncorrectable
deriving DecidableEq, Repr

/-- A code word that a step reads and that differs from what was written (R281): its channel and data-space offset, and the
difference in each of its 68 symbols, the four check symbols last. -/
structure CodeWordError where
  chan : Fin 80
  off  : Nat
  errs : List (Fin 68 × BitVec 16)
deriving DecidableEq, Repr

/-- A frame as it arrives at a Vorot port: FSTART header, data words and the FEND check value (R326). -/
structure Frame where
  hdr  : Word
  data : List Word
  crc  : Word32
deriving DecidableEq, Repr

/-- The content of a link-init frame (R329, R334). -/
structure LinkInit where
  kid     : Word
  num     : BitVec 7
  lead    : Bool
  port    : BitVec 4
  world   : World
  size    : BitVec 7
  credits : List Nat
deriving DecidableEq, Repr

/-- What a lane receives (R320, R321): raw words, or 66-bit blocks as sync header and scrambled payload. -/
inductive LaneRx where
  | raw (words : List Word)
  | blocks (bs : List (BitVec 2 × Word))
deriving DecidableEq, Repr

/-- The unit of a part reset (R445), numbered as `ISL_RESET` codes its target. -/
inductive ResetUnit where
  | tile (t : Fin 192)
  | die (n : Die)
  | rim (m : Rim)
  | lane (l : Fin 96)
  | spoke (i : Fin 34)
  | region (r : RegionIx)
deriving DecidableEq, Repr

/-- A path that can lose packets (R408). -/
inductive PathId where
  | host0 | host1 | ssp
deriving DecidableEq, Repr

/-- Where a packet at intake comes from: a host-site module with its bytes, or the oldest packet that the
serial slave port or the Vorot links have carried into the keel (R369 to R372). -/
inductive IntakeSrc where
  | host (module1 : Bool) (bytes : List Byte)
  | arrived
deriving DecidableEq, Repr

/-- The result of one wire test of a spoke direction (R18, R20 step 4): the segment of each failed group,
spares included, and the failed acknowledge and credit wires. -/
structure WireTest where
  badSegs   : List (Fin 9)
  badSpares : List (Fin 9)
  ackBad    : Nat
  cred0Bad  : Nat
  cred1Bad  : Nat
deriving DecidableEq, Repr

/-- What a load meets outside the bytes of its image (R266, R460): the code words in error that the hash pass, the records of
the load and those of a golden fallback read, the first region whose readback differs, for the load and for the fallback, and
whether the standby pair's self-test of the new firmware passes. -/
structure LoadEnv where
  hashEcc      : List CodeWordError
  recEcc       : List CodeWordError
  readbackBad  : Option RegionIx
  goldenEcc    : List CodeWordError
  goldenBad    : Option RegionIx
  firmwareOk   : Bool
deriving DecidableEq, Repr

/-- What the start-up tests find (R454): which epoch blows read back as blown, which tiles fail self-test,
and the wire test of each spoke direction that is not clean. -/
structure BootEnv where
  leadselHigh : Bool
  memrate     : BitVec 2
  blows       : List Bool
  tileFails   : List PTile
  wires       : List (SpokeDir × WireTest)
deriving DecidableEq, Repr

/-- The cause of a Tandem failover (R443). -/
inductive FailoverCause where
  | mismatch | memory | watchdog
deriving DecidableEq, Repr

/-- The commands, in the order of spec/opcode_table.json. -/
inductive Instr where
  -- 01 The Package, Its Dies and the Spokes
  | spokeTokenReceived (d : SpokeDir) (groups : List (BitVec 4))
  | acknowledgeTransition (d : SpokeDir)
  | creditReturn (d : SpokeDir) (vc1 : Bool)
  | stallDetected (d : SpokeDir)
  | wireTestComplete (d : SpokeDir) (w : WireTest)
  -- 02 Clockless Timing, Pace and Operating Points
  /-- The data driven, with whether the receiver stores it in this step (R38). -/
  | handshakeRequest (b : Nat) (data : Word × Bool)
  | handshakeAcknowledge (b : Nat)
  | paceWindowClose (counts : List (BitVec 16)) (edges : List (Nat × Nat))
  | clrmin (w : World)
  | refclkLost
  | refclkReturn
  | vddfChange (mv : Nat)
  | supplyMonitorColdReset
  | conversion (n : AnyDie) (tj : BitVec 12)
  -- 03 Number Formats, 04 The Matrix Tile
  | flagWordRead (p : PTile) (e : Engine) (w : World)
  | load (p : PTile) (c : Ctx)
  | loadBeat (p : PTile) (c : Ctx) (hw : HwEvent)
  | planeComplete (p : PTile) (c : Ctx)
  | stream (p : PTile) (c : Ctx)
  | rowIssue (p : PTile) (c : Ctx) (hw : HwEvent)
  | outputVectorWritten (p : PTile) (c : Ctx) (hw : HwEvent)
  | drain (p : PTile) (c : Ctx) (hw : HwEvent)
  | mvp (p : PTile) (hw : HwEvent)
  | fence (p : PTile) (c : Ctx)
  | fenceComplete (p : PTile) (c : Ctx)
  | arrayNop (p : PTile) (c : Ctx)
  | stall (p : PTile) (stage : Fin 3)
  -- 05 The Tile Vector Unit
  | tvuProgramStart (p : PTile)
  | nop (p : PTile) (hw : HwEvent)
  | tend (p : PTile) (hw : HwEvent)
  | br (p : PTile) (hw : HwEvent)
  | bloop (p : PTile) (hw : HwEvent)
  | rep (p : PTile) (hw : HwEvent)
  | rete (p : PTile) (hw : HwEvent)
  | even (p : PTile) (hw : HwEvent)
  | waitv (p : PTile) (hw : HwEvent)
  | waitvComplete (p : PTile)
  | rrel (p : PTile) (hw : HwEvent)
  | frd (p : PTile) (hw : HwEvent)
  | fclr (p : PTile) (hw : HwEvent)
  | rot (p : PTile) (hw : HwEvent)
  | setl (p : PTile) (hw : HwEvent)
  | seth (p : PTile) (hw : HwEvent)
  | saddi (p : PTile) (hw : HwEvent)
  | smov (p : PTile) (hw : HwEvent)
  | vld (p : PTile) (hw : HwEvent)
  | vst (p : PTile) (hw : HwEvent)
  | vstsh (p : PTile) (hw : HwEvent)
  | vadd (p : PTile) (hw : HwEvent)
  | vsub (p : PTile) (hw : HwEvent)
  | vmul (p : PTile) (hw : HwEvent)
  | vmad (p : PTile) (hw : HwEvent)
  | vmax (p : PTile) (hw : HwEvent)
  | vmin (p : PTile) (hw : HwEvent)
  | vcmp (p : PTile) (hw : HwEvent)
  | vsel (p : PTile) (hw : HwEvent)
  | vcvt (p : PTile) (hw : HwEvent)
  | vshr (p : PTile) (hw : HwEvent)
  | vshl (p : PTile) (hw : HwEvent)
  | vexp (p : PTile) (hw : HwEvent)
  | vrcp (p : PTile) (hw : HwEvent)
  | vrsq (p : PTile) (hw : HwEvent)
  | vtanh (p : PTile) (hw : HwEvent)
  | vrsum (p : PTile) (hw : HwEvent)
  | vrmax (p : PTile) (hw : HwEvent)
  | vbin2 (p : PTile) (hw : HwEvent)
  | vslide (p : PTile) (hw : HwEvent)
  | vbcst (p : PTile) (hw : HwEvent)
  | vsplat (p : PTile) (hw : HwEvent)
  | cancellationNotice (p : PTile)
  | faultNotice (p : PTile)
  | pacelineEvent (p : PTile)
  -- 06 Tiling, Task Descriptors and Issue Checks
  | taskStart (l : LTile)
  | seqArrayEntry (p : PTile) (c : Ctx) (hw : HwEvent)
  | seqTvuEntry (p : PTile) (c : Ctx) (hw : HwEvent)
  | xfer (p : PTile) (c : Ctx) (hw : HwEvent)
  | loop (p : PTile) (c : Ctx) (hw : HwEvent)
  | wait (p : PTile) (c : Ctx) (hw : HwEvent)
  | waitSatisfied (p : PTile) (c : Ctx)
  | seqEnd (p : PTile) (c : Ctx) (hw : HwEvent)
  | taskComplete (p : PTile) (c : Ctx)
  -- 07 Streams, the Paceline and Work Counters
  | read (p : PTile) (c : Ctx)
  /-- Steps that read the operand buffer carry, with the context, what its storage shows (R91). -/
  | write (p : PTile) (c : Ctx × HwEvent)
  | remote (p : PTile) (c : Ctx × HwEvent)
  | paceOrigin (p : PTile) (c : Ctx × HwEvent)
  | paceForward (p : PTile) (c : Ctx × HwEvent)
  | peer (p : PTile) (c : Ctx × HwEvent)
  | ctake (p : PTile) (c : Ctx)
  | grant (p : PTile) (c : Ctx)
  | pring (p : PTile) (c : Ctx)
  | descriptorFetch (p : PTile) (c : Ctx) (group : Nat)
  | requestResponse (p : PTile) (c : Ctx × HwEvent) (xi : Nat)
  | timeout (p : PTile) (c : Ctx) (xi : Nat)
  | cancellation (p : PTile) (c : Ctx)
  | cancellationAck (p : PTile) (c : Ctx)
  | grantReceived (p : PTile) (c : Ctx)
  | remoteTokenReceived (p : PTile) (c : Ctx)
  | pacelineBlockStored (p : PTile) (c : Ctx)
  | blockRelease (p : PTile) (c : Ctx)
  | counterTake (ctr : Fin 4096)
  -- 08 The Programmable Fabric
  | clockGeneratorEnable (r : RegionIx) (g : Fin 4) (on : Bool)
  | blockMemoryAccess (r : RegionIx) (bm : Fin 256) (a b : Option BmAccess)
  /-- The interface that acts, with its clock generator; none when a handshake controller drives it (R235). -/
  | bind (r : RegionIx) (q : Fin 48 × Option (Fin 4)) (dtile : LTile) (dctx : BitVec 2) (drec : Fin 16) (enable : Bool)
  | queueDataWord (r : RegionIx) (q : Fin 48 × Option (Fin 4)) (w : Word)
  | queueGrant (r : RegionIx) (q : Fin 48)
  /-- The controller, with whether its memory shows an uncorrectable word (R234). -/
  | queueTokenSend (r : RegionIx) (q : Fin 48 × Bool)
  | regionPortRequest (r : RegionIx) (write : Bool) (addr : BitVec 40) (len : Nat) (data : List Byte)
  | regionPortInboundToken (r : RegionIx) (taken : Nat)
  | regionCloseComplete (r : RegionIx)
  | gpiocfgWrite (w : World) (m : Rim) (p : Fin 128) (v : Word)
  | ioOutputChange (r : RegionIx) (val oe : Word)
  | ioInputChange (m : Rim) (p : Fin 128) (level : Option Bool)
  | ioChannelToken (m : Rim)
  -- 09 Configuration Images, Loading and Scrubbing
  | islStoreWrite (c : Chan) (ecc : List CodeWordError)
  | islImageLoad (c : Chan) (env : LoadEnv)
  | islRegionLoad (c : Chan) (env : LoadEnv)
  | weevilRead (n : Die) (r : List EccResult) (crc : Option Word32)
  | weevilCheck (n : Die)
  | wvctlWrite (w : World) (n : Die) (v : Word)
  -- 10 LPDDR5X Memory Controllers
  | memoryRequest (m : Rim) (port : Fin 40)
  | commandSlot (m : Rim) (ch : Fin 40) (busy : List (Fin 16)) (ecc : List CodeWordError)
  | mirrorCopy (m : Rim) (ch : Fin 40)
  | refreshDue (m : Rim) (ch : Fin 40)
  | commandTimeout (m : Rim) (ch : Fin 40)
  | mrtWrite (w : World) (m : Rim) (e : Fin 256) (v : Word)
  | releaseFillComplete (m : Rim) (e : Fin 256)
  | rtportWrite (w : World) (m : Rim) (p : Fin 16) (v : Word)
  | islMemTrain (c : Chan)
  | trainingComplete (m : Rim) (ch : Fin 40) (ok : Bool) (results : List Word)
  -- 11 Serial Lanes, Vorot Links and the Peloton
  | lncfgWrite (w : World) (m : Rim) (l : Fin 48) (v : Word)
  | laneAcquireTimeout (m : Rim) (l : Fin 48)
  /-- Raw words, or else 66-bit blocks (R320, R321). -/
  | laneReceive (m : Rim) (l : Fin 48) (raw : List Word) (blocks : List (BitVec 2 × Word))
  | laneTransmitToken (r : RegionIx) (m : Rim) (words : List Word)
  | marker (m : Rim) (l : Fin 48) (lip : Fin 8) (sport : BitVec 4) (count : BitVec 16) (parity : Byte) (skewNs : Nat)
  | link (v : VPort) (ack : BitVec 16) (nak : Bool) (c0 c1 c2 : Byte)
  | resendTimeout (v : VPort)
  | peerWriteFrame (v : VPort) (f : Frame)
  /-- The frame, with what the operand buffer shows to the next request (R91). -/
  | peerAcknowledgeFrame (v : VPort) (f : Frame × HwEvent)
  | peerRefusalFrame (v : VPort) (f : Frame)
  | commandFrame (v : VPort) (f : Frame)
  | replyFrame (v : VPort) (f : Frame)
  | linkInit (v : VPort) (f : Frame) (i : LinkInit)
  | acknowledgeTimeout (v : VPort)
  -- 12 Web Ingress, Position and Actions
  | countStep (m : Rim) (c : Fin 4) (a b : Bool)
  | positionComparison (c : Fin 4)
  | odocfgWrite (w : World) (c : Fin 4) (v : Word)
  | ingressToken (m : Rim) (r : RegionIx) (words : List Word)
  | linePartWritten (s : Fin 32)
  | ingcfgWrite (w : World) (m : Rim) (p : Fin 16) (k : Fin 3) (v : Word)
  | islIngRelease (c : Chan)
  -- 13 Islamon Commands and the Ledger
  | packetIntake (src : IntakeSrc)
  | islAck (src : IntakeSrc)
  | acceptance (c : Chan)
  | commandStart (c : Chan)
  | replySend (c : Chan)
  | eventRecordSend
  | islNop (c : Chan)
  | islChannelSet (c : Chan)
  | islRead (c : Chan) (ecc : List CodeWordError)
  | islWrite (c : Chan) (ecc : List CodeWordError)
  | islRegionClose (c : Chan)
  | islArm (c : Chan)
  | islRun (c : Chan)
  | islFreewheelEnter (c : Chan)
  | islFreewheelLeave (c : Chan)
  | islQuiesce (c : Chan)
  | quiesceDrainEnd
  | islResetWarm (c : Chan)
  | islResetTile (c : Chan)
  | islResetFieldDie (c : Chan)
  | islResetRim (c : Chan)
  | islResetLane (c : Chan)
  | islResetSpoke (c : Chan)
  | islResetRegion (c : Chan)
  | partResetComplete (u : ResetUnit) (wires : List (SpokeDir × WireTest))
  | partResetTimeout (u : ResetUnit) (stuck : List (Fin 4))
  | islTaskIssue (c : Chan) (ecc : List CodeWordError)
  | islTaskCancel (c : Chan)
  | islFlagsClear (c : Chan)
  | islCtrSet (c : Chan)
  | islOdoPreset (c : Chan)
  | islActArm (c : Chan)
  | islActCancel (c : Chan)
  | islWorldSetTile (c : Chan)
  | islWorldSetCounterBank (c : Chan)
  | islWorldSetLaneGroup (c : Chan)
  | islAttest (c : Chan) (ecc : List CodeWordError)
  | pathLoss (p : PathId)
  | pathRestart (p : PathId)
  | fuseBlowOwnerRoot (w : World) (chk : Word32) (blown : Bool)
  | fuseDisableVendorRoot (w : World) (chk : Word32) (blown : Bool)
  -- 15 Faults, Spares and Recovery
  | spareSubstitution
  | routeTableSwap (holder : AnyDie)
  | ejectionReport (holder dest : AnyDie)
  | dieControlTimeout (n : Die) (router : Bool)
  | tandemWatchdog
  | tandemFailover (cause : FailoverCause) (bad : List (Nat × BitVec 3))
  -- 16 Power-Up and Start-Up, 17 Signals
  | coldReset
  | coldResetRelease (env : BootEnv)
  | tilePlacement
  | sealedEntry
  | attstatReady (ecc : List CodeWordError)
  | warmReset
  | warmResetRelease (bad : List (Nat × BitVec 3)) (wires : List (SpokeDir × WireTest))
  | laneGroupReenable (g : VPort)
  | sspWrite (bytes : List Byte)
  | sspRead (bytes : Nat)
  | sspCsRise
  | registerWrite (w : World) (addr : BitVec 40) (v : Word)
  | cdrLockChange (m : Rim) (l : Fin 48) (locked : Bool)
  | transmitUnderrun (m : Rim) (l : Fin 48)
  | standbySelfTest (pass : Bool)
deriving DecidableEq, Repr

end Sys2Proof
end

