-- ==== Sys2Proof/Decode.lean ====
section
/-! DEFINITION. The table gives the commands no bits, so no word spells one. -/
set_option autoImplicit false
namespace Sys2Proof

/-- The command that a word spells: none, for spec/opcode_table.json gives no row any bits. -/
def decodeTableWord (_nbits _w : Nat) : Option Instr := none

end Sys2Proof
end

