-- ==== Sys2Proof/Config.lean ====
section
/-!
DEFINITION. What the package or an implementation fixes, and the free values: constants without a body, of which
nothing can be proved (log entries 3, 4, 5, 6).
-/
set_option autoImplicit false
namespace Sys2Proof.Config

/-! Free values, each applied to the model's counter `State.fresh` (log entry 3). -/

/-- What a byte of memory that holds no defined value reads as (R288, R307). -/
opaque freeByte (n addr : Nat) : Byte
/-- What an accumulator entry of a faulted half holds after its abort (R117). -/
opaque freeAcc (n entry : Nat) : Word32
/-- `TCAPT2.STEP` of a captured event: a count of engine steps, which the model does not keep (R88). -/
opaque freeStep (n : Nat) : Word32
/-- What block memory bytes, fabric contents and other values without a stated value read as. -/
opaque freeWord (n i : Nat) : Word

/-- Data bits of token `i` of a sending whose content the spec does not lay out in bits (log entry 96). -/
opaque tokenData (n i : Nat) : BitVec 2048

/-! The approximations of the tile vector unit: bounded by R144, fixed by it only in stated cases (log entry 4). -/

opaque vexp (x : Word32) : Word32
opaque vrcp (x : Word32) : Word32
opaque vrsq (x : Word32) : Word32
opaque vtanh (x : Word32) : Word32

/-! Primitives of other standards (log entry 5). -/

/-- RFC 8391 verification of a signature under a root of 64 bytes (R417). -/
opaque xmssVerify (root msg sig : List Byte) : Bool
/-- Byte `i` of the XMSS^MT signature with one-time index `idx` over `msg` (R420). -/
opaque xmssSign (idx : Nat) (msg : List Byte) (i : Nat) : Byte
/-- SHAKE256 with 256-bit output (R424). -/
opaque shake256 (msg : List Byte) : BitVec 256

/-! What the package fixes (log entry 6). -/

/-- The vendor root fused at manufacture (R417). -/
opaque vendorRoot (i : Nat) : Byte
/-- Word `w` of the device's public key (R425). -/
opaque devid (w : Nat) : Word

/-! The content of CELL and HARD frames, which Grendafort produces and the spec does not lay out (R260;
log entry 7). Each reads the HARD frame of a region. -/

/-- Clock generator `g` as loaded, in the layout of `CKSTAT` (R226). -/
opaque clockSetting (hard : List Byte) (g : Nat) : Word
/-- Queue controller `q` as loaded, MODE and DEPTH in the layout of `QCSTAT` (R238). -/
opaque queueSetting (hard : List Byte) (q : Nat) : Word
/-- A net of a region that a cell, a controller or a crossing reads (R217 to R219, R227, R228). -/
inductive Net where
  | const (b : Bool)
  /-- Output of a cell, numbered as `FFSEL.OUT` (R248): O6 or O5A, O5B, SE0, SE1. -/
  | cell (i : Nat) (out : Fin 4)
  /-- Crossing wire from the neighbour in the west, east, north or south. -/
  | cross (edge : Fin 4) (k : Nat)
  /-- Delayed request and acknowledge of handshake controller h of column c, at 4c + h. -/
  | hcReq (key : Nat)
  | hcAck (key : Nat)
  /-- Read output of a block memory port, bit 72 its error output; error output of a queue controller. -/
  | bmOut (bm : Nat) (portB : Bool) (b : Nat)
  | qcErr (q : Nat)
  /-- An output of the region port or of another hard block, whose value the commands carry. -/
  | other (n : Nat)
deriving DecidableEq, Repr, Inhabited

/-- A cell as configured (R217 to R219). -/
structure CellConf where
  table : BitVec 64
  split : Bool
  /-- Sources of I0 to I5 and of the bypass inputs X0 and X1. -/
  ins   : Fin 6 → Net
  x0    : Net
  x1    : Net
  /-- Data input of SE0 and SE1: the bypass input, or else the table. -/
  byX0  : Bool
  byX1  : Bool
  /-- Latch mode, and the clock generator, or the handshake controller of the column, of both storage elements. -/
  latch : Bool
  sel   : Fin 4
  /-- Routed clock enables, the set/reset, whether it is asynchronous, and the initial values. -/
  en0   : Net
  en1   : Net
  sr    : Net
  srAsync : Bool
  init0 : Bool
  init1 : Bool
deriving Inhabited

/-- A handshake controller as configured (R227): DELAY and the nets of its incoming request and acknowledge. -/
structure HcConf where
  delay : BitVec 8
  reqIn : Net
  ackIn : Net
deriving Inhabited

/-- A cell from its 48 bytes of the CELL frame (R260). -/
opaque cellConf (bytes : List Byte) : CellConf
/-- Handshake controller 4c + h from the HARD frame. -/
opaque hcConf (hard : List Byte) (key : Nat) : HcConf
/-- The net that feeds crossing wire `k` over an edge, and the held value of the crossing wire that comes in over an edge: 0, 1, or
2 for the last value (R228, R242). -/
opaque crossOut (hard : List Byte) (edge : Fin 4) (k : Nat) : Net
opaque crossHold (hard : List Byte) (edge : Fin 4) (k : Nat) : Fin 3

/-- What happens of itself in a step that has no command to take (log entry 99). -/
inductive TickEvent where
  /-- One word time of the lanes' transmitters. -/
  | laneTime
  /-- A rising or falling edge of generator `g` of region `r`. -/
  | edge (r : Fin 128) (g : Fin 4)
  | fall (r : Fin 128) (g : Fin 4)
  /-- Handshake controller `key` of region `r` acts on its nets, or one unit of its delay passes. -/
  | hc (r : Fin 128) (key : Nat)
  /-- The fabric of region `r` takes the oldest response from its port. -/
  | portTake (r : Fin 128)
deriving DecidableEq, Repr, Inhabited

/-- Which of them, in the order that the model's counter gives: the spec orders none of them. -/
opaque tickEvent (n : Nat) : TickEvent

/-- Code words that a part of 1 KiB with these bytes takes under the lossless entropy code, less one (R292; log entry 112). -/
opaque codedWords (bytes : List Byte) : Fin 8

/-- The inline code of a block memory row over d[63:0] (R233; log entry 7). -/
opaque bmCode (d : Word) : Byte

/-- The shift of an automatic store whose AI32 lanes are all 0 or −1, for which R142 names no leading position
(log entry 4). -/
opaque minusOneShift (fmt : Nat) : BitVec 8

/-- The 32-bit check value over a group of the transfer table (R190), whose function is not stated (log entry 10). -/
opaque groupCheck (bytes : List Byte) : Word32

/-- What `TILESTAT` shows for a plane that holds OS sums and no rows, for which R94 has no code (log entry 9). -/
opaque sumsPlaneCode : BitVec 2

end Sys2Proof.Config
end

