-- ==== Sys2Proof/Machine/Bits.lean ====
section
/-!
DEFINITION. Bit fields, saturating counters, sparse tables, byte order and the check value that the
whole model uses.
-/
namespace Sys2Proof.Machine

/-- Bits [hi:lo] of a bit vector, as a number (00, Numbers: bit 0 is the least significant). -/
def bits {n : Nat} (w : BitVec n) (hi lo : Nat) : Nat := w.toNat / 2 ^ lo % 2 ^ (hi + 1 - lo)

/-- One bit. -/
def bit {n : Nat} (w : BitVec n) (i : Nat) : Bool := w.getLsbD i

def b2n (b : Bool) : Nat := if b then 1 else 0

/-- A word built from fields, each given as the number of its lowest bit, its width and its value. -/
def packF (fs : List (Nat × Nat × Nat)) : Word :=
  BitVec.ofNat 64 (fs.foldl (fun a f => a + f.2.2 % 2 ^ f.2.1 * 2 ^ f.1) 0)

/-- `w` with bits [hi:lo] replaced. -/
def setBits (w : Word) (hi lo v : Nat) : Word :=
  BitVec.ofNat 64 (w.toNat - bits w hi lo * 2 ^ lo + v % 2 ^ (hi + 1 - lo) * 2 ^ lo)

/-- A counter that saturates at all ones. -/
def satInc {n : Nat} (w : BitVec n) (k : Nat := 1) : BitVec n :=
  BitVec.ofNat n (min (w.toNat + k) (2 ^ n - 1))

/-- The number of bits set among the low `n`. -/
def popcount {n : Nat} (w : BitVec n) : Nat :=
  (List.range n).foldl (fun a i => a + b2n (w.getLsbD i)) 0

/-- Two's complement reading. -/
def sext (n : Nat) (v : Nat) : Int :=
  let v := v % 2 ^ n
  if v < 2 ^ (n - 1) then (v : Int) else (v : Int) - 2 ^ n

/-! Sparse tables -/

def tlook {α : Type} (k : Nat) : Table α → Option α
  | [] => none
  | (j, v) :: r => if j = k then some v else tlook k r

/-- The value at `k`, or the default for a key that is not listed. -/
def tget {α : Type} (d : α) (t : Table α) (k : Nat) : α := (tlook k t).getD d

/-- Set the value at `k`, keeping the keys rising. -/
def tput {α : Type} (k : Nat) (v : α) : Table α → Table α
  | [] => [(k, v)]
  | (j, u) :: r =>
    if k < j then (k, v) :: (j, u) :: r
    else if k = j then (k, v) :: r
    else (j, u) :: tput k v r

def tdel {α : Type} (k : Nat) (t : Table α) : Table α := t.filter (fun p => p.1 ≠ k)

def tmod {α : Type} (d : α) (k : Nat) (f : α → α) (t : Table α) : Table α := tput k (f (tget d t k)) t

/-- Forget every key of `[lo, hi)`. -/
def tclear {α : Type} (lo hi : Nat) (t : Table α) : Table α := t.filter (fun p => p.1 < lo || hi ≤ p.1)

/-- The keys of a table rise strictly. -/
abbrev Rising {α : Type} (t : Table α) : Prop := t.Pairwise (fun a b => a.1 < b.1)

/-- The lowest number below `n` that satisfies `f`. -/
def lowest (n : Nat) (f : Nat → Bool) : Option Nat := (List.range n).find? f

/-! Bytes and words, least significant byte first -/

def bytesOf (n : Nat) (v : Nat) : List Byte :=
  (List.range n).map (fun i => BitVec.ofNat 8 (v / 256 ^ i))

def natOfBytes (bs : List Byte) : Nat := bs.foldr (fun b a => b.toNat + 256 * a) 0

def wordOfBytes (bs : List Byte) : Word := BitVec.ofNat 64 (natOfBytes (bs.take 8))

/-- Cut a list into pieces of `n`; `fuel` bounds their number. -/
def chunks {α : Type} (n : Nat) : Nat → List α → List (List α)
  | 0, _ => []
  | fuel + 1, l => if l.isEmpty then [] else l.take n :: chunks n fuel (l.drop n)

def wordsOfBytes (bs : List Byte) : List Word := (chunks 8 (bs.length) bs).map wordOfBytes

def bytesOfWords (ws : List Word) : List Byte := ws.flatMap (fun w => bytesOf 8 w.toNat)

/-- `l` with element `i` replaced; shorter lists are unchanged. -/
def lset {α : Type} (l : List α) (i : Nat) (v : α) : List α := l.set i v

/-- Eight steps of the reflected CRC-32C division by 0x1EDC6F41 (R262). -/
def crcBits : Nat → BitVec 32 → BitVec 32
  | 0, c => c
  | k + 1, c => crcBits k (if c.getLsbD 0 then (c >>> 1) ^^^ 0x82F63B78#32 else c >>> 1)

/-- CRC-32C over bytes in order (R262). -/
def crc32c (bs : List Byte) : BitVec 32 :=
  ~~~ bs.foldl (fun c b => crcBits 8 (c ^^^ b.setWidth 32)) 0xFFFFFFFF#32

end Sys2Proof.Machine
end

