-- ==== Sys2Proof/Machine/Numeric.lean ====
section
/-!
DEFINITION. Number formats and arithmetic (03): exact values, rounding, and the flags each result raises.
-/
set_option autoImplicit false
namespace Sys2Proof.Machine

/-- The flags of one result (R82) and, for invalid, its cause (R88). -/
structure Fl where
  ovf : Bool := false
  unf : Bool := false
  inx : Bool := false
  inv : Bool := false
  cause : BitVec 2 := 0
deriving DecidableEq, Repr

def Fl.any (f : Fl) : Bool := f.ovf || f.unf || f.inx || f.inv

/-- Rounding modes (R77, R78). -/
inductive Rnd where
  | halfUp | trunc
deriving DecidableEq, Repr

/-- An exact value: NaN, an infinity, or ±m × 2^e with a signed zero. -/
inductive Val where
  | nan
  | inf (neg : Bool)
  | fin (neg : Bool) (m : Nat) (e : Int)
deriving DecidableEq, Repr

/-- A floating format (R64). -/
structure FFmt where
  width : Nat
  expBits : Nat
  manBits : Nat
  bias : Nat
  special : Bool
deriving DecidableEq, Repr

def fAF4 : FFmt := ⟨4, 3, 0, 4, false⟩
def fAF8M : FFmt := ⟨8, 4, 3, 8, true⟩
def fAF8E : FFmt := ⟨8, 5, 2, 16, true⟩
def fAF16 : FFmt := ⟨16, 7, 8, 64, true⟩
def fAF32 : FFmt := ⟨32, 9, 22, 256, true⟩

/-- Largest exponent field of a finite value. -/
def FFmt.topExp (f : FFmt) : Nat := if f.special then 2 ^ f.expBits - 2 else 2 ^ f.expBits - 1

/-- Canonical NaN (R68). -/
def FFmt.nan (f : FFmt) : Nat := (2 ^ f.expBits - 1) * 2 ^ f.manBits + 2 ^ (f.manBits - 1)

def FFmt.signBit (f : FFmt) (neg : Bool) : Nat := if neg then 2 ^ (f.width - 1) else 0

def FFmt.infCode (f : FFmt) (neg : Bool) : Nat := f.signBit neg + (2 ^ f.expBits - 1) * 2 ^ f.manBits

/-- Largest finite code. -/
def FFmt.maxCode (f : FFmt) (neg : Bool) : Nat :=
  f.signBit neg + f.topExp * 2 ^ f.manBits + (2 ^ f.manBits - 1)

/-- The value of a code (R65). -/
def FFmt.decode (f : FFmt) (code : Nat) : Val :=
  let neg := code / 2 ^ (f.width - 1) % 2 = 1
  let e := code / 2 ^ f.manBits % 2 ^ f.expBits
  let m := code % 2 ^ f.manBits
  if f.special && e = 2 ^ f.expBits - 1 then (if m = 0 then .inf neg else .nan)
  else if e = 0 then .fin neg m (1 - (f.bias : Int) - f.manBits)
  else .fin neg (2 ^ f.manBits + m) ((e : Int) - f.bias - f.manBits)

/-- Floor of the base-2 logarithm of a positive number. -/
def flog2 (m : Nat) : Nat := m.log2

/-- `m × 2^(e−q)` rounded to an integer in the mode, and whether that is exact (R77, R78). -/
def roundAt (r : Rnd) (m : Nat) (e q : Int) : Nat × Bool :=
  if q ≤ e then (m * 2 ^ (e - q).toNat, true)
  else
    let d := 2 ^ (q - e).toNat
    let n := m / d
    let rem := m % d
    (if r = .halfUp && d ≤ 2 * rem then n + 1 else n, rem = 0)

/-- Is `n × 2^q` above `k × 2^p`? -/
def dyadicGt (n : Nat) (q : Int) (k : Nat) (p : Int) : Bool :=
  if p ≤ q then k < n * 2 ^ (q - p).toNat else k * 2 ^ (p - q).toNat < n

/-- Round an exact finite magnitude into a floating format (R77 to R80): the code and its flags. -/
def FFmt.round (f : FFmt) (r : Rnd) (neg : Bool) (m : Nat) (e : Int) : Nat × Fl :=
  if m = 0 then (f.signBit neg, {})
  else
    let emin : Int := 1 - (f.bias : Int)
    let top : Int := (flog2 m : Int) + e
    let q : Int := max top emin - f.manBits
    let (n, exact) := roundAt r m e q
    if dyadicGt n q (2 ^ (f.manBits + 1) - 1) ((f.topExp : Int) - f.bias - f.manBits) then
      -- R79: an overflow
      let code := if f.special && r = .halfUp then f.infCode neg else f.maxCode neg
      (code, { ovf := true, inx := true })
    else
      let fl : Fl := { inx := !exact, unf := !exact && decide (top < emin) }
      if n < 2 ^ f.manBits then (f.signBit neg + n, fl)
      else
        let ef : Nat := (q + f.manBits + f.bias).toNat
        (f.signBit neg + (ef - 1) * 2 ^ f.manBits + n, fl)

/-- Convert a value into a floating format, special values by R81. -/
def FFmt.convert (f : FFmt) (r : Rnd) : Val → Nat × Fl
  | .nan => if f.special then (f.nan, { inv := true }) else (0, { inv := true })
  | .inf neg => if f.special then (f.infCode neg, {}) else (f.maxCode neg, { ovf := true, inx := true })
  | .fin neg m e => f.round r neg m e

/-- The extremes of a two's complement format. -/
def imax (w : Nat) : Int := 2 ^ (w - 1) - 1
def imin (w : Nat) : Int := -2 ^ (w - 1)

/-- Narrow an integer into `w` bits, to the extreme of its sign outside the range (R79). -/
def narrowInt (w : Nat) (v : Int) : Int × Fl :=
  if imax w < v then (imax w, { ovf := true, inx := true })
  else if v < imin w then (imin w, { ovf := true, inx := true })
  else (v, {})

/-- Convert a value into a two's complement format (R77 to R81). -/
def toInt (w : Nat) (r : Rnd) : Val → Int × Fl
  | .nan => (0, { inv := true })
  | .inf neg => (if neg then imin w else imax w, { ovf := true, inx := true })
  | .fin neg m e =>
    let (n, exact) := roundAt r m e 0
    let (v, fl) := narrowInt w (if neg then -(n : Int) else n)
    (v, { fl with inx := fl.inx || !exact })

def valOfInt (v : Int) : Val := .fin (v < 0) v.natAbs 0

/-- Exact product (R71, R75): the value, and the cause when it is invalid. -/
def mulVal (a b : Val) : Val × Option (BitVec 2) :=
  match a, b with
  | .nan, _ => (.nan, some 0)
  | _, .nan => (.nan, some 0)
  | .inf s, .inf t => (.inf (s ^^ t), none)
  | .inf s, .fin t m _ => if m = 0 then (.nan, some 1) else (.inf (s ^^ t), none)
  | .fin t m _, .inf s => if m = 0 then (.nan, some 1) else (.inf (s ^^ t), none)
  | .fin s m e, .fin t n g => (.fin (s ^^ t) (m * n) (e + g), none)

/-- Exact sum (R75); the sum of two NaN or of a NaN and anything is NaN without a cause here. -/
def addVal (a b : Val) : Val × Option (BitVec 2) :=
  match a, b with
  | .nan, _ => (.nan, none)
  | _, .nan => (.nan, none)
  | .inf s, .inf t => if s = t then (.inf s, none) else (.nan, some 2)
  | .inf s, .fin _ _ _ => (.inf s, none)
  | .fin _ _ _, .inf s => (.inf s, none)
  | .fin s m e, .fin t n g =>
    let q := min e g
    let x : Int := (if s then -1 else 1) * ((m * 2 ^ (e - q).toNat : Nat) : Int)
    let y : Int := (if t then -1 else 1) * ((n * 2 ^ (g - q).toNat : Nat) : Int)
    let z := x + y
    if z = 0 then (.fin (s && t && m = 0 && n = 0) 0 0, none)
    else (.fin (z < 0) z.natAbs q, none)

/-- Round a value into AF32; an invalid cause sets invalid. A NaN that carries no cause raises nothing. -/
def roundAF32 (r : Rnd) (v : Val × Option (BitVec 2)) : Word32 × Fl :=
  match v with
  | (.nan, c) => (BitVec.ofNat 32 fAF32.nan, match c with
      | some k => { inv := true, cause := k }
      | none => {})
  | (.inf s, _) => (BitVec.ofNat 32 (fAF32.infCode s), {})
  | (.fin s m e, _) => let p := fAF32.round r s m e; (BitVec.ofNat 32 p.1, p.2)

/-- The value of an AF32 code. -/
def af32 (w : Word32) : Val := fAF32.decode w.toNat

/-- AF32 addition of a partial sum and a term: a NaN on either side raises nothing (R75). -/
def addAF32 (r : Rnd) (a b : Word32) : Word32 × Fl := roundAF32 r (addVal (af32 a) (af32 b))

/-- AI32 addition, saturating (R74); a saturated sum is an overflow and so inexact (R82). -/
def addAI32 (a b : Word32) : Word32 × Fl :=
  let p := narrowInt 32 (a.toInt + b.toInt)
  (BitVec.ofInt 32 p.1, p.2)

/-- Two's-complement shift right by `n` with rounding (R77, R78): value and inexact. -/
def shrInt (r : Rnd) (v : Int) (n : Nat) : Int × Fl :=
  if n = 0 then (v, {})
  else
    let d : Int := 2 ^ n
    let q := if r = .halfUp then (v + 2 ^ (n - 1)) / d else v / d
    (q, { inx := v % d ≠ 0 })

/-- The operand formats of `AI.FMTA` and `AI.FMTB` are decoded in Operands.lean. An operand that is an integer
or a floating value: -/
inductive Opnd where
  | f (v : Val)
  | i (v : Int)
deriving DecidableEq, Repr

/-- The accumulator kinds (R70). -/
inductive AccKind where
  | af32 | ai32
deriving DecidableEq, Repr

/-- One product rounded to the accumulator format (R71, R75); operands of different kinds, which only a plane loaded under another
format than the STREAM's gives, have product 0 and no flag (log entry 107). -/
def product (k : AccKind) (r : Rnd) (a b : Opnd) : Word32 × Fl :=
  match k, a, b with
  | .ai32, .i x, .i y => (BitVec.ofInt 32 (x * y), {})
  | .af32, .f x, .f y => roundAF32 r (mulVal x y)
  | _, _, _ => (0, {})

/-- One addition in the accumulator format (R72, R74). -/
def accAdd (k : AccKind) (r : Rnd) (a b : Word32) : Word32 × Fl :=
  match k with
  | .af32 => addAF32 r a b
  | .ai32 => addAI32 a b

end Sys2Proof.Machine
end

