-- ==== Sys2Proof/Machine/Data.lean ====
section
/-!
DEFINITION. The units of the block as plain data: one structure per piece of state the spec names, with the
reset value of each field as its default (R447, column Cold, and the Reset column of each register table).
-/
namespace Sys2Proof.Machine

/-! ## 02 Handshakes, pace, temperature, supply -/

/-- A fabric to hard-block boundary (R36, R38). -/
structure Boundary where
  data : Word := 0
  req  : Bool := false
  ack  : Bool := false
  /-- The sender lowered request before acknowledge rose: the boundary stands in step 2. -/
  early : Bool := false
  /-- What the receiver last captured. -/
  captured : Option Word := none
deriving DecidableEq, Repr

/-- `PACE` of a field die (R45), and of the device (R46). -/
structure PaceWord where
  cur   : BitVec 16 := 0
  min   : BitVec 16 := 0xFFFF
  seq   : BitVec 8 := 0
  valid : Bool := false
deriving DecidableEq, Repr

/-- `TEMP` of a die (R58) and the arming of its thermal event (R59). -/
structure TempWord where
  tj    : BitVec 12 := 0
  valid : Bool := false
  alarm : Bool := false
  trip  : Bool := false
  armed : Bool := true
deriving DecidableEq, Repr

structure Timing where
  boundaries : Table Boundary := []
  pace    : Table PaceWord := []
  dpace   : PaceWord := {}
  /-- `DPACE.SLOW` (R46). -/
  slow    : BitVec 5 := 0
  /-- `PACECTL.FLOOR` (R47). -/
  floor   : BitVec 16 := 0
  /-- A clear of every `MIN` is requested (R48). -/
  clrReq  : Bool := false
  /-- The floor event may be emitted (R49). -/
  floorArmed : Bool := true
  /-- REFCLK_K is present (R50). -/
  refclk  : Bool := true
  /-- A window is open that saw REFCLK_K throughout (R43, R50). -/
  windowOpen : Bool := true
  temps   : Table TempWord := []
  /-- VDDF in millivolts (R52 to R56). -/
  vddf    : Nat := 750
  /-- The supply monitor holds the device in cold reset (R56). -/
  supplyHold : Bool := false
  /-- THERMTRIP_N is driven low (R59, R477). -/
  thermTrip : Bool := false
deriving DecidableEq, Repr

/-! ## 13 The keel: channels, ledger, packets, events, device state -/

/-- A packet as received: its header words and parameter bytes (R373). -/
structure Packet where
  w0 : Word
  w1 : Word
  w2 : Word
  w3 : Word
  params : List Byte
deriving DecidableEq, Repr

/-- A device packet: four words and its data (R380, R382, R398). -/
structure DevPacket where
  w0 : Word
  w1 : Word
  w2 : Word := 0
  w3 : Word := 0
  data : List Byte := []
deriving DecidableEq, Repr

/-- Where a device packet leaves (R371, R379, R400). -/
inductive OutPath where
  | host (module1 : Bool) | ssp | vorot
deriving DecidableEq, Repr

/-- The mark of a marked command (R403): channel, sequence number and outcome. -/
structure Mark where
  chan : Nat
  seq  : Nat
  status : BitVec 8
  det0 : Word := 0
  det1 : Word := 0
deriving DecidableEq, Repr

/-! ## 03 Flag words -/

/-- A flag word with its read mark, its capture register and the mark of its last clear (R83, R88, R403). -/
structure FlagWord where
  ovf : Bool := false
  unf : Bool := false
  inx : Bool := false
  inv : Bool := false
  gen : BitVec 8 := 0
  readMark : Bool := false
  cValid : Bool := false
  cCause : BitVec 2 := 0
  cMore  : Bool := false
  cGen   : BitVec 8 := 0
  cTask  : BitVec 32 := 0
  cRow   : BitVec 32 := 0
  cCol   : BitVec 32 := 0
  cKidx  : BitVec 32 := 0
  cStep  : BitVec 32 := 0
  mark   : Option Mark := none
deriving DecidableEq, Repr

/-- A channel (R377, R379). Credits are what the host holds; freed credit waits in `freedE`, `freedP`. -/
structure ChanSt where
  isOpen : Bool := false
  world  : World := false
  path   : BitVec 2 := 0
  quotaE : BitVec 18 := 0
  quotaP : BitVec 20 := 0
  alivExp : BitVec 16 := 0
  next   : BitVec 48 := 0
  heldE  : Int := 0
  heldP  : Int := 0
  freedE : Nat := 0
  freedP : Nat := 0
  /-- Device alive count (`RP.ALIVE`). -/
  devAlive : BitVec 16 := 0
  /-- Sequence number of the next reply to send (R386). -/
  replyNext : Nat := 0
  /-- Highest `IP.RACK` delivered, plus 1; 0 when none has been (R373, R378). -/
  racked : Nat := 0
  mark   : Option Mark := none
deriving DecidableEq, Repr

/-- `LG.STATE` (R389). -/
inductive LgState where
  | accepted | started | complete
deriving DecidableEq, Repr

/-- The reply of an entry: status and detail words; the remaining fields of R380 come with the channel. -/
structure Reply where
  status : BitVec 8
  det0 : Word := 0
  det1 : Word := 0
deriving DecidableEq, Repr

/-- One copy of a ledger entry that is not free (R389). -/
structure LgEntry where
  seq   : BitVec 48
  chan  : BitVec 8
  state : LgState
  world : World
  fence : Bool
  marked : Bool
  opc   : BitVec 16
  plen  : BitVec 13
  punit : BitVec 19
  pchk  : BitVec 32
  order : BitVec 32
  alive : BitVec 16
  reply : Option Reply := none
  /-- The mark of the last `ISL_TASK_CANCEL` of this task (R403). -/
  mark  : Option Mark := none
deriving DecidableEq, Repr

/-- An event record waiting to be sent (R398). -/
structure EventRec where
  world : World
  src   : BitVec 8
  eseq  : BitVec 32
  lost  : BitVec 16
  w1 : Word
  w2 : Word
  w3 : Word
deriving DecidableEq, Repr

/-- The device states (R387). -/
inductive DevState where
  | sealed | safe | armed | running | freewheel | quiesced
deriving DecidableEq, Repr

/-- A packet that passed intake and waits for the acknowledges of its acceptance writes (R390, R391). -/
structure Accepting where
  pkt : Packet
  chan : Nat
deriving DecidableEq, Repr

structure Keel where
  chans   : Table ChanSt := []
  /-- The three copies of the ledger: keel SRAM, W, E (R389). -/
  ledger  : Table LgEntry := []
  ledgerW : Table LgEntry := []
  ledgerE : Table LgEntry := []
  /-- The parameter store in both rims, by first unit (R390). -/
  pstoreW : Table (List Byte) := []
  pstoreE : Table (List Byte) := []
  /-- Device-wide acceptance count (`LG.ORDER`). -/
  order   : BitVec 32 := 0
  /-- Packets at step 1 or 2 of R390, oldest first. -/
  accepting : List Accepting := []
  /-- The started command whose effect has not yet taken place (R385). -/
  current : Option Nat := none
  /-- Entries to be started again by R402. -/
  replayQ : List Nat := []
  /-- Entries rebuilt by R401, whose replies carry `RP.REPLAY` (R402). -/
  rebuilt : List Nat := []
  /-- `DSTATE` (R388). -/
  dstate  : DevState := .sealed
  drain   : Bool := false
  prev    : DevState := .sealed
  warms   : BitVec 16 := 0
  /-- Entries of `ISL_QUIESCE` commands that wait for earlier tasks (R387), oldest first. -/
  quiescing : List (Nat × List (BitVec 32)) := []
  /-- The mark of the keel's state record (R403). -/
  stateMark : Option Mark := none
  /-- The mark of the keel's reset record (R403). -/
  resetMark : Option Mark := none
  /-- `LGSTAT` (R405). -/
  replayed : BitVec 16 := 0
  mirror   : BitVec 2 := 0
  degraded : BitVec 2 := 0
  /-- Event queue, sequence numbers, losses (R398, R400). -/
  events   : List EventRec := []
  eseqs    : Table (BitVec 32) := []
  losts    : Table (BitVec 16) := []
  dropped  : BitVec 16 := 0
  evPath   : BitVec 2 := 0
  /-- Paths now lost (R408): host-site modules 0 and 1, serial slave port. -/
  lostPaths : List PathId := []
  /-- Packets that the serial slave port or the Vorot links have carried into the keel, with the path code
  of R379 and, for Vorot, the port and the world they came with. -/
  arrived  : List (BitVec 2 × Packet) := []
  /-- Everything the device has sent to its host site, oldest first. -/
  out      : List (OutPath × DevPacket) := []
deriving DecidableEq, Repr

/-! ## 14 Security -/

structure Security where
  /-- `WTILE` by logical tile: W0, W1 and CLR (R411); 3 is both secure. -/
  wtile0  : Table World := []
  wtile1  : Table World := []
  wtileClr : Table Bool := []
  /-- `WCBANK`, `WLANE` (R412). -/
  wcbank  : Table World := []
  wlane   : Table World := []
  /-- Fuses: blown epoch bits (highest plus 1), owner root, vendor root disabled (R417, R421). -/
  epUsed  : BitVec 13 := 0
  owner   : Bool := false
  voff    : Bool := false
  ownerRoot : List Byte := []
  /-- `FUSESTAT` of this cold start (R418). -/
  epoch   : BitVec 12 := 0
  epv     : Bool := false
  fcmd    : BitVec 2 := 0
  /-- No later blow is accepted until the next cold reset (R419). -/
  blowBarred : Bool := false
  /-- `OWNSTAGE` (R419). -/
  stage   : Table Word := []
  /-- `ATTSTAT` (R425). -/
  attReady : Bool := false
  attNext  : BitVec 9 := 0
  /-- Entries of `ISL_ATTEST` commands that wait for `ATTSTAT.READY` (R423), oldest first. -/
  attWait  : List Nat := []
  /-- Data of the FW records of the running firmware, whose digest is `AT.FWMEAS` (R424). -/
  fwBytes  : List Byte := []
deriving DecidableEq, Repr

/-! ## 15 Faults and recovery -/

/-- The routing obstacles that a set of die route tables is computed over (R435), and the tile map (R428). -/
structure Routes where
  /-- Physical tile number on its die of each placed logical tile. -/
  tile  : Table Nat := []
  /-- Spokes to avoid. -/
  spokes : List Nat := []
  /-- Field dies to avoid. -/
  dies  : List Nat := []
deriving DecidableEq, Repr

/-- `PTSTAT.STATE` (R430). -/
inductive PtState where
  | active | spare | retired | isolated
deriving DecidableEq, Repr

/-- `PTSTAT` (R430). -/
structure PTile where
  state   : PtState := .active
  logical : Nat := 0
  hwflt   : BitVec 8 := 0
  selftest : Bool := false
deriving DecidableEq, Repr

/-- `FDSTAT` (R442): STATE and CAUSE; the counts are computed. -/
structure FieldDie where
  state : BitVec 2 := 0
  cause : BitVec 4 := 0
deriving DecidableEq, Repr

/-- A retirement in order of detection (R432). -/
structure Retirement where
  ptile : Nat
  code  : BitVec 8
deriving DecidableEq, Repr

/-- What a route-table change is for (R432, R433, R435, R441). -/
inductive SwapWhy where
  | placement (logical ptile newTile : Nat) (code : BitVec 8)
  | noSpare (logical ptile : Nat) (code : BitVec 8)
  | spokeFailed (spoke side : Nat)
  | isolation (die : Nat)
  | routing
deriving DecidableEq, Repr

/-- A change of route tables: the background copies and the purpose (R434). -/
structure SwapJob where
  bg      : Routes
  tileTab : Bool
  dieTab  : Bool
  why     : SwapWhy
deriving DecidableEq, Repr

/-- A part reset in progress (R445) with the ledger entry of its command, which it answers. -/
structure ResetJob where
  kind  : Nat
  target : Nat
  /-- None once a rebuild has answered the command from its mark. -/
  entry : Option Nat
deriving DecidableEq, Repr

structure Faults where
  /-- Foreground tables of a holder that has not swapped (R434). -/
  routes  : Routes := {}
  swaps   : List SwapJob := []
  /-- Holders that have swapped to the first job's tables. -/
  swapped : List Nat := []
  /-- Holder and destination pairs held by R436. -/
  holds   : List (Nat × Nat) := []
  ptiles  : Table PTile := []
  subs    : Table (BitVec 3) := []
  tlim    : BitVec 4 := 2
  dies    : Table FieldDie := []
  retire  : List Retirement := []
  /-- `FLTSTAT` (R444). -/
  tgen    : BitVec 16 := 0
  dgen    : BitVec 16 := 0
  pair    : Bool := false
  standby : BitVec 2 := 1
  fcause  : BitVec 3 := 0
  failovers : BitVec 8 := 0
  resets  : List ResetJob := []
deriving DecidableEq, Repr

/-! ## 16, 17 Start-up and the serial slave port -/

/-- Where the start-up sequence of R454 stands. -/
inductive BootPhase where
  | held | training | placed | ready | warm
deriving DecidableEq, Repr

structure Boot where
  phase   : BootPhase := .held
  /-- `BOOTSTAT` (R458). -/
  rate    : BitVec 2 := 0
  leadsel : Bool := false
  fw      : Bool := false
  tfail   : BitVec 10 := 0
  dfail   : BitVec 5 := 0
  fwimg   : BitVec 32 := 0
  /-- Channels, 40m + c, that have completed start-up training (R307). -/
  trained : List Nat := []
  /-- Lead or follower (R335), as sampled. -/
  follower : Bool := false
  /-- Entries of `ISL_RESET` commands that the warm reset in progress answers (R476). -/
  warmCmds : List Nat := []
  /-- A warm reset was requested before step 7 (R456). -/
  warmAsked : Bool := false
deriving DecidableEq, Repr

/-- The serial slave port (R479, R480). -/
structure Ssp where
  /-- SSP_CS_N is low and a transaction is in progress: bytes received, or bytes driven. -/
  active  : Bool := false
  reading : Bool := false
  /-- The packet of a WRITE has been carried whole; nibbles that follow are ignored (R480). -/
  complete : Bool := false
  rx      : List Byte := []
  driven  : Nat := 0
  /-- Packets held for this path, oldest first. -/
  held    : List DevPacket := []
  /-- What the last transaction drove after the code: the status byte or the length and the packet. -/
  drove   : List Byte := []
deriving DecidableEq, Repr

/-! ## 04 The tile: planes, rows, instructions -/

/-- An operand element; `edge` marks edge padding, which takes no part in any reduction (R169). -/
structure El where
  v    : Opnd
  edge : Bool := false
deriving DecidableEq, Repr

/-- State of a stationary plane (R94, R111, R113, R488). `entered` is a load whose beats have all entered. -/
inductive PlaneSt where
  | empty | loading | entered | complete | sums
deriving DecidableEq, Repr

structure Plane where
  st   : PlaneSt := .empty
  /-- Stationary operands of PE(r, c) at 64r + c, column c counted within the target (R487). -/
  pes  : Table (List El) := []
  /-- OS sums of PE(r, c) with the k-index of the last product added; a PE not listed has had none. -/
  sums : Table (Word32 × Nat) := []
deriving DecidableEq, Repr

/-- An array or MVP instruction as the sequencer passes it, modified and clipped (R166, R168). -/
structure ArrInstr where
  w0 : Word
  w1 : Word
  entry : Nat
  num   : Nat
  /-- Rows, k-steps, vectors or beats. -/
  count : Nat
  /-- K of an MVP. -/
  kCount : Nat
  /-- left_M, left_N, left_K − KOFF when `SQ.CLIP` is 1; none: no edge. -/
  leftM : Option Int
  leftN : Option Int
  leftK : Option Int
  /-- Effective bases and origins of the walks named by word 1. -/
  base1 : Int
  org1  : Int
  base2 : Int
  org2  : Int
  accBase : Int
  /-- Origins for the capture words (R121, R166). -/
  offM : Int
  offN : Int
  offK : Int
deriving DecidableEq, Repr

/-- An instruction in progress with its next row or beat (R109). -/
structure InProg where
  ins  : ArrInstr
  next : Nat := 0
  /-- Number of its first output among the outputs of the task. -/
  outBase : Nat := 0
deriving DecidableEq, Repr

/-- An output vector in the array: its sums, and where and how they are to be written (R103 to R105). -/
structure OutVec where
  ins  : ArrInstr
  vec  : Nat
  /-- Index of the vector among the outputs of the task, and the ring size or 0 (R105, R150). -/
  out  : Nat
  ring : Nat
  sums : List (Option (Word32 × Nat))
deriving DecidableEq, Repr

/-- A transfer outstanding (R191): its descriptor, the addresses formed when it was taken (R189), the bytes
already requested and the bytes in flight. -/
structure Transfer where
  /-- Which of the context's transfers this is, in the order in which they were taken. -/
  id   : Nat
  xi   : Nat
  kind : Nat
  desc : List Word
  xa   : Int
  la   : Int
  /-- Bytes moved, in the order of the rows. -/
  done : Nat
  /-- Bytes of the request in flight; 0 when none is. -/
  inFlight : Nat
  /-- PACE: the header to send, and the buffer offset a forward reads from. -/
  rot  : Nat := 0
  hops : Nat := 0
  block : Nat := 0
  len  : Nat := 0
  /-- Credit has been taken (R202, R206). -/
  credited : Bool := false
deriving DecidableEq, Repr

/-- An open GRANT (R201): its record, key, byte range in the record and the offsets already filled. -/
structure Grant where
  /-- Which of the context's transfers this is, in the order in which they were taken. -/
  id   : Nat := 0
  xi   : Nat
  record : Nat
  key  : Nat
  lo   : Nat
  len  : Nat
  /-- Offsets and lengths stored, and how many bytes of the range they cover. -/
  filled : List (Nat × Nat) := []
  got  : Nat := 0
  /-- The index register that guards it, if any (R214). -/
  xr   : Option Nat := none
deriving DecidableEq, Repr

/-- A block in the paceline receive buffer (R205 to R208). -/
structure PlBlock where
  rot  : Nat
  hops : Nat
  block : Nat
  len  : Nat
  /-- Position of its first byte in the endless order of the buffer. -/
  start : Nat
  /-- 0 not forwarded, 1 being forwarded, 2 forwarded. -/
  fwd  : Nat
deriving DecidableEq, Repr

/-- The ring of the task (R203). -/
structure Ring where
  key  : Nat
  pred : Nat
  pctx : Nat
  succ : Nat
  suctx : Nat
  bufLen : Nat
deriving DecidableEq, Repr

/-- An index register (R213): value, exhausted, and whether it holds an unretired value of a counter (R214). -/
structure XReg where
  val  : Nat := 0
  exh  : Bool := false
  live : Option Nat := none
deriving DecidableEq, Repr

/-- A task that has passed its issue check (R160). -/
structure Task where
  entry : Nat
  chan  : Nat
  seq   : Nat
  world : World
  desc  : List Word
  /-- The tables the keel read at the issue check. -/
  seqTab : List Word
  tvuTab : List Word32
  /-- Check value of each group of the transfer table (R190). -/
  groups : List Word32
  /-- Link keys that its REMOTE and PACE transfers name (R201). -/
  keys  : List Nat
  /-- Index of the PRING descriptor, if any (R190). -/
  pring : Option Nat
  /-- Rises in the order in which tasks first entered their start queues (R404). -/
  num   : Nat := 0
  /-- Of a task that a part reset has handed back: the detail word of its last run (R381). -/
  past  : Word := 0
deriving DecidableEq, Repr

/-- Why a task is ending early (R117, R199, R396). -/
inductive EndWhy where
  | fault | cancel | reset
deriving DecidableEq, Repr

/-- A sequencer context of a tile with its half of the stream engine (R114, R176, R191, R201, R213). -/
structure CtxSt where
  task  : Option Task := none
  /-- How the task is ending, if it is. -/
  ending : Option EndWhy := none
  /-- A cancellation notice is on its way from the keel (R199, R397). -/
  cancelAsked : Bool := false
  idx   : List Nat := [0, 0, 0, 0, 0, 0]
  pos   : Nat := 0
  /-- The instruction offered to the engine; the transfer offered to the stream engine. -/
  offer : Option ArrInstr := none
  offerX : Option Nat := none
  fencing : Bool := false
  waiting : Bool := false
  atEnd : Bool := false
  insNum : Nat := 0
  /-- The LOAD and the STREAM in progress (R109), the vectors in the array in issue order. -/
  load  : Option InProg := none
  strm  : Option InProg := none
  flight : List OutVec := []
  outs  : Nat := 0
  plane0 : Plane := {}
  plane1 : Plane := {}
  /-- Flags raised by the task (R87), its last fault (R381), lost input (R396). -/
  raised : Fl := {}
  fltCode : BitVec 8 := 0
  fltStream : BitVec 8 := 0
  lost  : Bool := false
  /-- Stream engine. -/
  xfers : List Transfer := []
  nextX : Nat := 0
  grants : List Grant := []
  groups : List (Nat × List Word) := []
  /-- A group being fetched. -/
  fetching : Option Nat := none
  xr    : Table XReg := []
  /-- Link table: key, credit, and the grant that opened the entry (R201, R206). -/
  links : List (Nat × Nat × Nat) := []
  ring  : Option Ring := none
  blocks : List PlBlock := []
  plEnd : Nat := 0
  readPt : Nat := 0
  lastRot : Nat := 0
  /-- Memory requests of the context still without an answer. -/
  owed  : Nat := 0
  /-- Fault words (R122). -/
  fValid : Bool := false
  fScope : BitVec 2 := 0
  fCode  : BitVec 8 := 0
  fCount : BitVec 16 := 0
  fTask  : BitVec 32 := 0
  fLoc1  : BitVec 32 := 0
  fLoc2  : BitVec 32 := 0
  /-- TVU state kept per context (R130, R157). -/
  outcnt : Nat := 0
  relcnt : Nat := 0
  plarr  : BitVec 32 := 0
  plseen : BitVec 32 := 0
  tvuFlags : FlagWord := {}
  /-- Notices that the TVU has not yet taken (R152). -/
  faultNote : Bool := false
  cancelNote : Bool := false
deriving DecidableEq, Repr

/-- The running TVU program (R127 to R154). -/
structure Prog where
  ctx  : Nat
  pc   : Nat
  /-- Delay slots still to issue, where to go after them, and whether a rotation follows (R146, R131). -/
  slots : Nat := 0
  dest : Option Nat := none
  rotate : Bool := false
  /-- Iterations still to run and the iteration number (R147). -/
  rep  : Option (Nat × Nat) := none
  evOn : Bool := false
  handler : Nat := 0
  inHandler : Bool := false
  saved : Nat := 0
  /-- The count that a WAITV awaited when the handler was taken (R151). -/
  waitSaved : Option Nat := none
  /-- WAITV in progress: the awaited count. -/
  waitv : Option Nat := none
deriving DecidableEq, Repr

/-- A physical tile (R90, R126). -/
structure Tile where
  split : Bool := false
  bankA : List Host.Cell := []
  bankB : List Host.Cell := []
  /-- Accumulator memory, and the free values that its halves hold after an abort (R117). -/
  acc   : Table Word32 := []
  accFree0 : Option Nat := none
  accFree1 : Option Nat := none
  walks : Table (List Word) := []
  /-- Sequencer entries: control word with `SQ.PAR`, and payload (R175). -/
  seq   : Table (List Word) := []
  c0    : CtxSt := {}
  c1    : CtxSt := {}
  /-- Flag words at 0x100, 0x140, 0x180 (R93). -/
  fArr  : FlagWord := {}
  fH1   : FlagWord := {}
  fMvp  : FlagWord := {}
  /-- `TECC` (R124). -/
  eccA  : BitVec 16 := 0
  eccB  : BitVec 16 := 0
  eccAcc : BitVec 16 := 0
  /-- TVU. -/
  vregs : Table (List Word32) := []
  vtype : Table Bool := []
  sregs : Table Word32 := []
  vm    : BitVec 64 := BitVec.allOnes 64
  rrb   : Nat := 0
  imem  : Table Word32 := []
  starts : List (Nat × Nat) := []
  prog  : Option Prog := none
  lastCtx : Option Nat := none
  lastWorld : Option World := none
  /-- Probe signals 2 and 3 of R249, and the plane of the last row issued. -/
  rowTog : Bool := false
  planeTog : Bool := false
  lastPlane : Option Nat := none
deriving DecidableEq, Repr

/-! ## 07 Counters and messages between tiles -/

/-- A work counter (R211) with the mark of its last set (R403). -/
structure Counter where
  value : BitVec 48 := 0
  limit : BitVec 48 := 0
  mark  : Option Mark := none
deriving DecidableEq, Repr

/-- Who sends: a tile context's transfer, or a region's queue controller. -/
inductive Sender where
  | tile (p ctx xi : Nat)
  | queue (region q : Nat)
deriving DecidableEq, Repr

/-- What travels between tiles, regions and the keel, above the tokens of 01 (log entry 8). -/
inductive Msg where
  /-- Credit for a link key at a context of a logical tile; the GRANT that opened it, if any: tile, context, transfer index and
  which transfer of the context it is (R201, R203, R208). -/
  | grant (tile ctx key bytes : Nat) (world : World) (src : Option (Nat × Nat × Nat × Nat))
  /-- A REMOTE token (R202): record, key, offset, bytes, and whether it is the last. -/
  | remote (tile ctx record key doff : Nat) (data : List Byte) (last : Bool) (src : Sender)
  /-- A paceline block with its header (R204). -/
  | block (tile ctx key rot hops number : Nat) (data : List Byte) (p sctx xi : Nat)
  /-- A take of a counter (R212). -/
  | take (ctr p ctx xi : Nat) (world : World)
  /-- The answer to a take: refused for its world, a value, or exhausted. -/
  | taken (ctr p ctx xi : Nat) (refused : Bool) (val : Option Nat)
deriving DecidableEq, Repr

structure Counters where
  ctrs : Table Counter := []
  /-- The return pool, oldest first: counter and value (R214). -/
  pool : List (Nat × Nat) := []
  dropped : BitVec 16 := 0
deriving DecidableEq, Repr

/-! ## 10 Memory -/

/-- An `MRT` entry (R287); `release` while the fill of R416 runs: the world and VALID it then takes. -/
structure MrtEntry where
  valid : Bool := false
  world : World := true
  mirror : Bool := false
  ilv   : Bool := false
  cls   : BitVec 2 := 2
  codec : Bool := false
  mslot : BitVec 8 := 0
  state : BitVec 2 := 0
  release : Option World := none
deriving DecidableEq, Repr

/-- `MCTL` (R305). -/
structure Mctl where
  age : BitVec 10 := 0x40
  rht : BitVec 15 := 0x800
  rad : BitVec 2 := 2
  uelim : BitVec 8 := 0x10
deriving DecidableEq, Repr

/-- `RTPORT` (R298); FILL is in bytes here. -/
structure RtPort where
  p1 : BitVec 6 := 0x10
  p2 : BitVec 6 := 0x20
  p3 : BitVec 6 := 0x30
  level : BitVec 2 := 0
  fill : Nat := 0
  p3cnt : BitVec 16 := 0
deriving DecidableEq, Repr

/-- Who asked for a memory request. -/
inductive ReqSrc where
  | xfer (p ctx xi : Nat)
  | desc (p ctx group : Nat)
  | region (r tag : Nat)
  | peer (port tag : Nat)
  | line (stream seq part : Nat)
deriving DecidableEq, Repr

/-- A request on its way to a channel port (R283). -/
structure MemReq where
  src   : ReqSrc
  write : Bool
  addr  : Nat
  len   : Nat
  data  : List Byte
  world : World
deriving DecidableEq, Repr

/-- A piece of a request within one code word of one channel: data-space offset, length, position in the
request. -/
structure Piece where
  off : Nat
  len : Nat
  pos : Nat
deriving DecidableEq, Repr

/-- A part request in a channel's queue (R283, R293, R294). -/
structure Part where
  rid   : Nat
  write : Bool
  /-- A forwarded mirror copy (R289), or a read moved to the mirror. -/
  copy  : Bool
  cls   : Nat
  port  : Option Nat
  /-- Requests that arrived later and were issued ahead (R296). -/
  age   : Nat
  pieces : List Piece
  data  : List Byte
  /-- An acknowledge or its read data is still owed for this part. -/
  owes  : Bool
  entry : Nat
  /-- The region table entry as the request was checked against it (R288). -/
  map   : MrtEntry := {}
  /-- `MCTL.AGE` as the part reached the channel (R305). -/
  lim   : Nat := 64
deriving DecidableEq, Repr

/-- A request whose parts are in the queues: what is still awaited and what has come. -/
structure PendReq where
  req   : MemReq
  waits : Nat
  got   : List (Nat × List Byte) := []
  status : BitVec 8 := 0
deriving DecidableEq, Repr

/-- A due command of precedence 1 (R295): refresh of a bank, neighbour refresh of a row, RFM of a bank, tracking (R302). -/
inductive Due where
  | refresh (bank : Nat) | neighbour (bank row : Nat) | rfm (bank : Nat) | track
deriving DecidableEq, Repr

/-- A memory channel (R293 to R311). -/
structure MemChan where
  state : BitVec 2 := 0
  drift : Bool := false
  sref  : Bool := false
  corr  : BitVec 16 := 0
  ue    : BitVec 8 := 0
  nref  : BitVec 16 := 0
  rfm   : BitVec 16 := 0
  queue : List Part := []
  drainW : Bool := false
  openRow : Table Nat := []
  due   : List Due := []
  /-- Activate counters: bank, row, count (R303). -/
  rows  : List (Nat × Nat × Nat) := []
  /-- Refresh commands issued; those made due or postponed so far (R302, R303). -/
  refs  : Nat := 0
  nextRef : Nat := 0
  /-- Rolling activation counts of the banks (R304). -/
  raa   : Table Nat := []
  postponed : Nat := 0
  /-- Training results in the layout of R308, and the starting values of a TRAIN record. -/
  results : List Word := []
  start : Option (List Word) := none
  /-- Entries of the `ISL_MEM_TRAIN` commands that wait for this channel. -/
  cmds  : List Nat := []
deriving DecidableEq, Repr

/-- A response on its way back: stream status 0 is success (R197). -/
structure MemResp where
  src   : ReqSrc
  write : Bool
  status : BitVec 8
  data  : List Byte
deriving DecidableEq, Repr

structure Memory where
  /-- Defined bytes by physical key (R282): channel 40m + c and data-space offset. -/
  cells : List Host.Cell := []
  /-- Uncorrectable code words by the key of their first byte (R281, R291). -/
  bad   : List Nat := []
  /-- Failed devices 10m + d with the cause of record 0x14. -/
  failed : List (Nat × Nat) := []
  /-- Uncorrectable code words counted per device (R291). -/
  ueDev : Table Nat := []
  chans : Table MemChan := []
  mrt   : Table MrtEntry := []
  mctl  : Table Mctl := []
  rtport : Table RtPort := []
  net   : List MemReq := []
  pend  : Table PendReq := []
  nextId : Nat := 0
  copies : List (Nat × Part) := []
  resps : List MemResp := []
  /-- RAAIMT and RAAMMT, when the memory devices report that they require RFM (R304): a fact of the board. -/
  raaimt : Option (Nat × Nat) := none
  /-- Code words that a part of a block with lossless coding is stored in, by the key of its first byte (R292). -/
  coded : Table Nat := []
deriving DecidableEq, Repr

/-! ## 01 Spokes and die routers -/

/-- What the tokens of one sending carry above their bits, handed over when the last of them is ejected (log entry 8); an
earlier token of the same sending carries `part`. -/
inductive Load where
  | part
  | msg (m : Msg)
  | req (r : MemReq)
  | resp (r : MemResp)
deriving DecidableEq, Repr

/-- A token with its route word (R25). -/
structure Token where
  route : Word32
  data  : BitVec 2048
  load  : Option Load := none
  /-- The holders of route tables that have driven the token onto a spoke, the last first (R436). -/
  via   : List Nat := []
deriving DecidableEq, Repr

/-- One direction of a spoke (R13 to R22, R29): its `SPKSTAT` fields, its sender and its receiver. -/
structure SpokeSide where
  /-- `SPKSTAT.STATE` (R22). -/
  state    : BitVec 2 := 0
  /-- `SPKSTAT.SEGMASK`: the segments whose spare is in use (R18, R22). -/
  segMask  : BitVec 9 := 0
  stalls   : BitVec 16 := 0
  codeErr  : BitVec 16 := 0
  /-- Send buffer: the unacknowledged token (R15). -/
  held     : Option Token := none
  /-- The held token has been driven, or resent, and the receiver has not yet dealt with it (R15, R20). -/
  onWire   : Bool := false
  /-- Toggle of the next new token (R19). -/
  txToggle : Bool := false
  /-- Credits held for each virtual channel (R29). -/
  credit0  : Nat := 4
  credit1  : Nat := 4
  /-- Receive buffers of each virtual channel, oldest first (R29). -/
  rx0      : List Token := []
  rx1      : List Token := []
  /-- Toggle of the last stored token (R19). -/
  lastTog  : Option Bool := none
  /-- Level of the acknowledge, and whether its last transition is still on its way to the sender (R15). -/
  ack      : Bool := false
  ackDue   : Bool := false
deriving DecidableEq, Repr

/-- The spokes and what their routers hold. -/
structure SpokeNet where
  sides   : Table SpokeSide := []
  /-- Tokens held by the router of a die until new route tables are in place (R437), oldest first. -/
  rerouted : Table (List Token) := []
  /-- Tokens that the blocks at the ports of a die offer to its router, by 128·die + 2·port + virtual channel, oldest first. The
  first four stand in the buffers of the router input, and the rest wait in the block (R26, R29). -/
  inj     : Table (List Token) := []
  /-- The input that an output last served, by 512·die + 2·output + virtual channel (R30). -/
  served  : Table Nat := []
  /-- Tokens without a load ejected at a die, oldest first. -/
  ejected : List (Nat × Token) := []
deriving DecidableEq, Repr

end Sys2Proof.Machine
end

