-- ==== Sys2Proof/Machine/Flags.lean ====
section
/-!
DEFINITION. The sticky flag words and first-offence capture (R82 to R89).
-/
set_option autoImplicit false
namespace Sys2Proof.Machine

/-- Where an event happened, for the capture register (R88). -/
structure EvAt where
  task : BitVec 32 := 0
  row  : Nat := 0
  col  : Nat := 0
  kidx : Nat := 0
  step : BitVec 32 := 0
deriving DecidableEq, Repr

/-- Does an event raise a bit that is clear (R84)? -/
def FlagWord.raises (w : FlagWord) (f : Fl) : Bool :=
  (f.ovf && !w.ovf) || (f.unf && !w.unf) || (f.inx && !w.inx) || (f.inv && !w.inv)

/-- Take one event of R82: set the flags, advance GEN on a set event, capture an invalid (R84, R89). -/
def FlagWord.event (w : FlagWord) (f : Fl) (at_ : EvAt) : FlagWord :=
  if !f.any then w
  else
    let isSet := w.raises f || w.readMark
    let gen := if isSet then w.gen + 1 else w.gen
    let w1 := { w with
      ovf := w.ovf || f.ovf, unf := w.unf || f.unf, inx := w.inx || f.inx, inv := w.inv || f.inv
      gen := gen, readMark := w.readMark && !isSet }
    if !f.inv then w1
    else if w.cValid then { w1 with cMore := true }
    else { w1 with
      cValid := true, cCause := f.cause, cMore := false, cGen := gen, cTask := at_.task
      cRow := BitVec.ofNat 32 at_.row, cCol := BitVec.ofNat 32 at_.col
      cKidx := BitVec.ofNat 32 at_.kidx, cStep := at_.step }

/-- Take events in order. -/
def FlagWord.events (w : FlagWord) (es : List (Fl × EvAt)) : FlagWord :=
  es.foldl (fun w e => w.event e.1 e.2) w

/-- Every read sets the read mark (R83). -/
def FlagWord.read (w : FlagWord) : FlagWord := { w with readMark := true }

/-- `TSTAT` as a word (R83). -/
def FlagWord.toWord (w : FlagWord) : Word :=
  packF [(0, 1, b2n w.ovf), (1, 1, b2n w.unf), (2, 1, b2n w.inx), (3, 1, b2n w.inv), (24, 8, w.gen.toNat)]

/-- `TCAPT0`, `TCAPT1`, `TCAPT2` (R88). -/
def FlagWord.capt (w : FlagWord) : Nat → Word
  | 0 => packF [(0, 1, b2n w.cValid), (1, 2, w.cCause.toNat), (3, 1, b2n w.cMore), (8, 8, w.cGen.toNat),
      (32, 32, w.cTask.toNat)]
  | 1 => packF [(0, 32, w.cRow.toNat), (32, 32, w.cCol.toNat)]
  | _ => packF [(0, 32, w.cKidx.toNat), (32, 32, w.cStep.toNat)]

/-- A generation clear (R85, R89): accepted or refused, and the word after it, whose return is a read. -/
def FlagWord.clear (w : FlagWord) (mask : BitVec 4) (gen : BitVec 8) : Bool × FlagWord :=
  if gen = w.gen then
    let w1 := { w with
      ovf := w.ovf && !bit mask 0, unf := w.unf && !bit mask 1
      inx := w.inx && !bit mask 2, inv := w.inv && !bit mask 3, readMark := true }
    (true, if bit mask 3 then { w1 with cValid := false, cMore := false } else w1)
  else (false, { w with readMark := true })


def orFl (a : Fl) (b : Fl) : Fl :=
  { ovf := a.ovf || b.ovf, unf := a.unf || b.unf, inx := a.inx || b.inx, inv := a.inv || b.inv, cause := 0 }

/-- The union of the flags of some events (R87). -/
def flUnion (es : List (Fl × EvAt)) : Fl := es.foldl (fun a e => orFl a e.1) {}

end Sys2Proof.Machine
end

