-- ==== Sys2Proof/Machine/Periph.lean ====
section
/-!
DEFINITION. The units around the tiles as plain data: fabric regions and GPIO (08), the loader and the Weevils (09), lanes,
Vorot ports and the peloton (11), the Odometer, the action table and ingress (12); reset values as defaults.
-/
set_option autoImplicit false
namespace Sys2Proof.Machine

/-! ## 08 Fabric -/

/-- A block memory (R229 to R233): rows of d[63:0] and e[7:0], what each port's outputs hold, the error outputs. -/
structure BlockMem where
  rows  : Table (BitVec 72) := []
  lastA : BitVec 72 := 0
  lastB : BitVec 72 := 0
  errA  : Bool := false
  errB  : Bool := false
  /-- The read outputs as the fabric sees them: behind the output register where one is enabled (R231). -/
  outA  : BitVec 72 := 0
  outB  : BitVec 72 := 0
  /-- Data that an output register shows at the next edge of its generator. -/
  lateA : Option (Nat × BitVec 72) := none
  lateB : Option (Nat × BitVec 72) := none
  /-- Acknowledges of handshake ports (R231). -/
  ackA  : Bool := false
  ackB  : Bool := false
deriving DecidableEq, Repr

/-- A handshake controller (R227): its latch enable, its acknowledge to the sender, its delayed request, and the units of delay
that a request under way still waits. -/
structure HcSt where
  en   : Bool := true
  ack  : Bool := false
  req  : Bool := false
  wait : Option Nat := none
deriving DecidableEq, Repr

/-- A clock generator (R222, R226); `level` is its output (R249). -/
structure ClockGen where
  fwdSrc : Bool := false
  run    : Bool := false
  taps   : BitVec 10 := 0
  div    : BitVec 3 := 0
  fwd    : BitVec 4 := 0
  meas   : BitVec 16 := 0
  level  : Bool := false
deriving DecidableEq, Repr

/-- A range that a GRANT has opened to a queue controller (R236, R237): the granting transfer and what is left of it. -/
structure QRange where
  p    : Nat
  ctx  : Nat
  xi   : Nat
  /-- Which issue of the GRANT opened it. -/
  id   : Nat := 0
  off  : Nat
  left : Nat
deriving DecidableEq, Repr

/-- A queue controller (R234 to R238). -/
structure QueueCtl where
  mode  : BitVec 2 := 0
  depth : BitVec 2 := 0
  /-- Bound logical tile, context code and record. -/
  bound : Option (Nat × Nat × Nat) := none
  fill  : List Byte := []
  ranges : List QRange := []
  /-- Error output (R234). -/
  err   : Bool := false
deriving DecidableEq, Repr

/-- A region-port request and its response, once it has come: 0 success, else the error response (R239). -/
structure PortReq where
  tag   : Nat
  write : Bool
  resp  : Option (BitVec 8 × List Byte) := none
deriving DecidableEq, Repr

/-- One word of the inbound interface (R240): first-word marker, source die, port and class of its token. -/
structure InWord where
  first : Bool
  die   : Nat
  port  : Nat
  cls   : Nat
  w     : Word
deriving DecidableEq, Repr

/-- A token on its way to a region's inbound interface. -/
structure InTok where
  die  : Nat
  port : Nat
  cls  : Nat
  words : List Word
deriving DecidableEq, Repr

/-- Why a region is being closed: what follows once the close is complete (R242, step 7). -/
inductive CloseWhy where
  | load | reset
  | command (entry : Nat)
  /-- An upset that a Weevil found, or a command that a rebuild answers: nothing more. -/
  | weevil
deriving DecidableEq, Repr

/-- A fabric region (R216, R243) with its port, its I/O channel and its configuration memory. -/
structure Region where
  state  : BitVec 2 := 1
  world  : World := false
  empty  : Bool := true
  loads  : BitVec 15 := 0
  imgid  : BitVec 32 := 0
  /-- CELL column c at c, HARD at 300 (R260). -/
  frames : Table (List Byte) := []
  schk   : BitVec 32 := 0
  /-- Storage elements SE0 and SE1 of cell i at 2i and 2i + 1; one not listed holds its initial value (R219, R241). -/
  se     : Table Bool := []
  /-- Handshake controller h of column c at 4c + h. -/
  hcs    : Table HcSt := []
  /-- The crossing wires out of the region as they stood when it closed, 1536·edge + k (R242). -/
  crossLast : Table Bool := []
  bms    : Table BlockMem := []
  gens   : Table ClockGen := []
  qcs    : Table QueueCtl := []
  /-- The queue controller, or 48 for the memory path, that the port served last (R237). -/
  served : Nat := 48
  /-- Region-port requests outstanding, oldest first, and the responses that stand in the port's buffer for the fabric. -/
  reqs   : List PortReq := []
  given  : List (Bool × BitVec 8 × List Byte) := []
  nextTag : Nat := 0
  arriving : List InTok := []
  inbound : List InWord := []
  ioVal  : Word := 0
  ioOe   : Word := 0
  /-- A change has not yet been sent (R246). -/
  ioPend : Bool := false
  closing : Option CloseWhy := none
  /-- The region reset in progress found it open (R447). -/
  reopen : Bool := false
deriving DecidableEq, Repr

/-- A GPIO pin (R244 to R247, R350). -/
structure Pin where
  /-- The RW fields of `GPIOCFG`; PULL and ISOVAL reset to 2. -/
  cfg  : Word := 0x880000
  /-- What the board drives the pin to, if it does; the last level at the pin, for the bus keeper (R244). -/
  level : Option Bool := none
  kept : Bool := false
  /-- Output value and enable from the last valid I/O-channel token. -/
  val  : Bool := false
  oe   : Bool := false
  /-- What the pin is held at since its source region closed (R242, R247). -/
  hold : Option (Option Bool) := none
  /-- Latch of an action pin (R350). -/
  latch : Bool := false
deriving DecidableEq, Repr

structure Fabric where
  regions : Table Region := []
  /-- Pin p of rim m at 128m + p. -/
  pins  : Table Pin := []
  /-- Detected bank supplies, bank b of rim m at 4m + b: a fact of the board. -/
  bankV : Table (BitVec 2) := []
  /-- I/O-channel tokens on their way to a rim: rim, sending region, the three words (R247). -/
  ioToks : List (Nat × Nat × Word × Word × Word) := []
  /-- `IOH.VAL` and `IOH.OE` of the last valid token that rim m took from region r, at 128m + r. -/
  ioLast : Table (Word × Word) := []
  /-- `FWDCK` 8m + k; edges on GPIO pin 16k in the open pace window (2), in the last one (1), or in neither (R225; log entry 100). -/
  fwdck : Table Word := []
  edges : Table Nat := []
  /-- `FFSEL` 16n + p, `FFLAND` 16m + l (R248, R250). -/
  ffsel : Table Word := []
  ffland : Table Word := []
deriving DecidableEq, Repr

/-! ## 09 Loading and scrubbing -/

/-- A slot of the image store (R257). -/
structure ImgSlot where
  busy  : Bool := false
  good  : Bool := false
  imgid : BitVec 32 := 0
  writes : BitVec 16 := 0
  /-- Root of the image that last passed its signature check here: `true` owner (R419). -/
  signer : Option Bool := none
deriving DecidableEq, Repr

/-- A record of an image: type, index, data, and its number. -/
structure Rec where
  typ  : Nat
  index : Nat
  data : List Byte
  num  : Nat
deriving DecidableEq, Repr

/-- The fields of an image header that a load uses (R258). -/
structure Header where
  full   : Bool := false
  signer : Bool := false
  imgid  : BitVec 32 := 0
  paylen : Nat := 0
  nrec   : Nat := 0
deriving DecidableEq, Repr

/-- What has been read of an image: records, bytes, FW chunks with their data, EQTAB, TRAIN, the region in hand and its records. -/
structure Scan where
  num  : Nat := 0
  pos  : Nat := 0
  fw   : Nat := 0
  code : List Byte := []
  eq   : Bool := false
  tr   : Bool := false
  reg  : Option Nat := none
  seen : List (Nat × Nat) := []
deriving DecidableEq, Repr

/-- A load past R264 (R265 to R267): its command, the regions still to do and how it is going. -/
structure LoadJob where
  entry  : Nat
  slot   : Nat
  full   : Bool
  target : Nat
  env    : LoadEnv
  /-- This run is the golden fallback, with the cause, region and record of the failure that led to it. -/
  golden : Option (Nat × Nat × Nat) := none
  /-- Region that is being closed or loaded. -/
  at_    : Nat
  /-- The image being read, and how far it has been. -/
  hdr    : Header := {}
  scan   : Scan := {}
deriving DecidableEq, Repr

structure Loader where
  slots : Table ImgSlot := []
  prot  : Bool := false
  /-- Entries of load commands that have started and wait for the loader (R263), oldest first. -/
  waiting : List Nat := []
  job   : Option LoadJob := none
  /-- Slot and region of the present or last load (R271). -/
  slot  : BitVec 3 := 0
  region : BitVec 7 := 0
  loads : BitVec 16 := 0
  fallbacks : BitVec 16 := 0
  rejects : BitVec 16 := 0
  /-- Data of the loaded EQTAB record (R317), of the loaded TRAIN record (R308). -/
  eqtab : Option (List Word) := none
deriving DecidableEq, Repr

/-- The Weevil of a field die (R272 to R276). -/
structure Weevil where
  master : Word := 0x3C0000
  copies : List Word := [0x3C0000, 0x3C0000, 0x3C0000]
  region : BitVec 3 := 0
  /-- Reads done of the present pass. -/
  pos    : Nat := 0
  rounds : BitVec 16 := 0
  corr   : BitVec 16 := 0
  fixed  : BitVec 8 := 0
  restart : BitVec 8 := 0
  /-- A word has been read since the last check by the predecessor. -/
  readOne : Bool := false
deriving DecidableEq, Repr

/-! ## 11 Lanes, ports, peloton -/

/-- A serial lane (R315, R316, R320, R321, R322, R325). -/
structure Lane where
  cfg   : Word := 0
  state : BitVec 2 := 0
  cdr   : Bool := false
  block : Bool := false
  eqsrc : Bool := false
  eqmiss : Bool := false
  biperr : BitVec 16 := 0
  prbserr : BitVec 16 := 0
  drop  : BitVec 12 := 0
  under : BitVec 12 := 0
  /-- The two words of its equalisation entry: the default entry of R318. -/
  eq0   : Word := 0x00020808003F0000
  eq1   : Word := 0
  /-- Sync headers (R320): valid in a row; seen and invalid in the present window of 64. -/
  syncRun : Nat := 0
  syncSeen : Nat := 0
  syncBad : Nat := 0
  /-- The last scrambled payload received. -/
  past  : Word := 0
  /-- Words held towards a token, with control flag and error. -/
  held  : List (Word × Bool × Bool) := []
  /-- Words in the transmit buffer of 2 KiB, with control flag (R39, R321). -/
  tx    : List (Word × Bool) := []
  /-- What the lane put onto its transmitter in its last word time: sync header (0 for raw and test words) and scrambled payload. -/
  sent  : List (BitVec 2 × Word) := []
  /-- Scrambler: the last scrambled payload sent (R320). -/
  txPast : Word := 0
  /-- Generator: the last 31 bits sent (R322; log entry 98). -/
  gen   : BitVec 31 := BitVec.allOnes 31
  /-- Parity of the blocks sent since the last marker (R325). -/
  par   : Byte := 0
  /-- The present run of idle words has been counted. -/
  idle  : Bool := false
  /-- Checker (R322): the last 31 bits, bits seen, error-free bits in a row; locked. -/
  chkPast : BitVec 31 := 0
  chkSeen : Nat := 0
  chkRun : Nat := 0
  chkLock : Bool := false
  /-- Last marker: lane-in-port, sending port, count (R325). -/
  marker : Option (Nat × Nat × Nat) := none
deriving DecidableEq, Repr

/-- A frame sent and not yet acknowledged (R328): times sent. -/
structure SentFrame where
  frame : Frame
  units : Nat
  sent  : Nat
deriving DecidableEq, Repr

/-- A frame that waits for credit: kind, virtual channel, world, destination, source, data; the PEER request it carries,
if any. -/
structure OutFrame where
  kind  : Nat
  vc    : Nat
  world : World
  dest  : Nat
  src   : Nat
  data  : List Word
deriving DecidableEq, Repr

/-- A Vorot port (R326 to R333). -/
structure VPortSt where
  state : BitVec 2 := 0
  cause : BitVec 4 := 0
  farNum : BitVec 7 := 0x7F
  farPort : BitVec 4 := 0
  resend : BitVec 16 := 0
  downs  : BitVec 16 := 0
  /-- Markers with matching counts in a row on all eight lanes (R325). -/
  aligned : Nat := 0
  /-- Sender: next number, unacknowledged frames, frames waiting for credit, credit of each VC. -/
  txSeq : BitVec 16 := 0
  unacked : List SentFrame := []
  queue : List OutFrame := []
  credit : List Nat := [0, 0, 0]
  /-- Receiver: next number expected; a NAK has been sent and the expected frame has not arrived. -/
  rxSeq : BitVec 16 := 0
  nakked : Bool := false
  /-- Link init: the far end's accepted; own sent, and its number; own acknowledged. -/
  farInit : Bool := false
  ownSeq : Option (BitVec 16) := none
  ownInit : Bool := false
  /-- Accepted PEER writes in order: tag, credit units, and the outcome once the memory has answered. -/
  peers : List (Nat × Nat × Option Bool) := []
  nextPeer : Nat := 0
  /-- PEER requests sent and awaiting their answer, oldest first: tile, context, transfer. -/
  awaiting : List (Nat × Nat × Nat) := []
  /-- Everything the port has sent: frames, and LINK blocks as ACK, NAK and returned credits, oldest first. -/
  out   : List Frame := []
  /-- Blocks of the port's stream still to be dealt to its lanes, the blocks that each lane has sent, and the marker count (R324,
  R325). -/
  blocks : List (BitVec 2 × Word) := []
  slot  : Nat := 0
  markNo : BitVec 16 := 0
  links : List (BitVec 16 × Bool × Nat × Nat × Nat) := []
deriving DecidableEq, Repr

structure Peloton where
  num   : Option (BitVec 7) := none
  size  : BitVec 7 := 0
  topo  : BitVec 2 := 0
  relayed : BitVec 16 := 0
  noRoute : BitVec 16 := 0
  refused : BitVec 16 := 0
  /-- `PLROUTE` of each member: port and VALID. -/
  routes : Table (BitVec 4 × Bool) := []
  /-- The port by which the last accepted command frame arrived (R465). -/
  lastPort : Option Nat := none
  /-- Lane groups to be enabled again by R466, ascending. -/
  again : List Nat := []
deriving DecidableEq, Repr

structure Serial where
  lanes : Table Lane := []
  ports : Table VPortSt := []
  pel   : Peloton := {}
  /-- The reference inputs that are missing, 2m + k for LREFk of rim m: a fact of the board (R313; log entry 98). -/
  lrefMissing : List Nat := []
deriving DecidableEq, Repr

/-! ## 12 Odometer, actions, ingress -/

/-- An encoder channel (R339 to R345); per-rim parts as pairs W, E. -/
structure OdoCh where
  en   : Bool := false
  inv  : Bool := false
  refE : Bool := false
  posW : BitVec 48 := 0
  posE : BitVec 48 := 0
  /-- Armed preset of each rim: AT and V. -/
  preW : Option (BitVec 48 × BitVec 48) := none
  preE : Option (BitVec 48 × BitVec 48) := none
  markW : Option Mark := none
  markE : Option Mark := none
  /-- Phase levels A and B last seen by each rim. -/
  aW : Bool := false
  bW : Bool := false
  aE : Bool := false
  bE : Bool := false
  illegal : BitVec 16 := 0
  split : Bool := false
  /-- Reference positions on their way to the other rim, each with the rim that sent it (`true` E). -/
  sent : List (Bool × BitVec 48) := []
deriving DecidableEq, Repr

/-- An entry of the action table (R347) with the mark of its last command (R403). -/
structure ActEntry where
  w0 : Word := 0
  w1 : Word := 0
  mark : Option Mark := none
deriving DecidableEq, Repr

/-- A line that has a sequence number and whose record is not yet written (R355 to R363). -/
structure Line where
  seq   : Nat
  /-- 0 PROCESSED, 1 DEFERRED, 2 DECIMATED, 3 LOST. -/
  fate  : Nat
  defd  : Bool
  fw    : Bool
  short : Bool := false
  kept  : Bool := false
  extra : Bool
  ptag  : Bool
  nopos : Bool
  pos   : BitVec 48
  run   : Nat
  runPos : BitVec 48
  ch    : Nat
  /-- LINEB, the address of its slot, the bound and the sample form, as admitted. -/
  lineb : Nat
  slot  : Nat
  ebound : Nat
  two   : Bool
  sbits : Nat
  world : World
  /-- Data bytes so far, each with whether its token had `INH.KEEP`. -/
  data  : List (Byte × Bool) := []
  ended : Bool := false
  /-- Parts handed to the memory; parts acknowledged; arrived bytes whose part is acknowledged. -/
  issued : Nat := 0
  acked : List Nat := []
  freed : Nat := 0
  /-- The record is on its way to the memory. -/
  recSent : Bool := false
deriving DecidableEq, Repr

/-- A stream (R354 to R364). -/
structure Stream where
  /-- Configuration words with their reset values (R356). -/
  cfg0 : Word := 0x3F_0000_003A#64
  cfg1 : Word := 0x400_0000_0000#64
  cfg2 : Word := 0x400_0000_0000#64
  next : BitVec 48 := 0
  rel  : BitVec 48 := 0
  badtok : BitVec 16 := 0
  done : BitVec 48 := 0
  lost : BitVec 16 := 0
  run  : Nat := 0
  runPos : BitVec 48 := 0
  /-- Lines in order of sequence number. -/
  lines : List Line := []
  /-- Bytes still to come of the line in progress. -/
  cur  : Option Nat := none
  /-- Bytes arrived after the end of a line. -/
  extra : Bool := false
deriving DecidableEq, Repr

structure Web where
  odo  : Table OdoCh := []
  acts : Table ActEntry := []
  streams : Table Stream := []
deriving DecidableEq, Repr

end Sys2Proof.Machine
end

