-- ==== Sys2Proof/Machine/State.lean ====
section
/-!
DEFINITION. The state of the block, why a step can stop, and the state right after reset.
-/
set_option autoImplicit false
namespace Sys2Proof.Machine

/-- Why a step stops although the command has a meaning. -/
inductive Fault where
  /-- Raised by VDDF_CHANGE when VDDF goes above 0.88 V: there no behaviour of the manual applies (R55).
  Safe: the model stops where the hardware may do anything. -/
  | supplyAboveFunctionalRange
deriving DecidableEq, Repr

/-- Why a command is refused. -/
inductive Refusal where
  /-- Raised by `exec` for a command without a meaning in the model. Safe: nothing is claimed of it. -/
  | notModelled (mnemonic : String)
deriving DecidableEq, Repr

/-- The whole state of the block. -/
structure State where
  /-- Package facts (R5): an -H part, an -X part. -/
  hPart : Bool := true
  xPart : Bool := false
  spk  : SpokeNet := {}
  tim  : Timing := {}
  keel : Keel := {}
  sec  : Security := {}
  flt  : Faults := {}
  boot : Boot := {}
  ssp  : Ssp := {}
  /-- Physical tiles by 52n + t. -/
  tiles : Table Tile := []
  /-- Start queues by logical tile (R161). -/
  startQ : Table (List Task) := []
  /-- Messages between tiles, regions and the keel's counters, oldest first. -/
  msgs : List Msg := []
  ctrs : Counters := {}
  mem  : Memory := {}
  fab  : Fabric := {}
  ldr  : Loader := {}
  /-- Weevils by field die. -/
  weevils : Table Weevil := []
  ser  : Serial := {}
  web  : Web := {}
  /-- What the last register or flag word read returned. -/
  readData : Word := 0
  /-- The model's own counter of free values (log entry 3). -/
  fresh : Nat := 0
  /-- Commands waiting, first in first out. -/
  pending : List Instr := []
deriving DecidableEq, Repr

/-- The machine right after reset: held in cold reset, every unit at its reset values (R447, R486). -/
def State.reset : State := {}

end Sys2Proof.Machine
end

