-- ==== Sys2Proof/Machine/Ops.lean ====
section
/-!
DEFINITION. The named operations over the state that the meanings share: units by number, event records,
the ledger and replies, banks and accumulator memory, tile faults and the end of a task.
-/
set_option autoImplicit false
namespace Sys2Proof.Machine

/-! ## Units by number -/

def State.tile (s : State) (p : Nat) : Tile := tget {} s.tiles p
def State.setTile (s : State) (p : Nat) (t : Tile) : State := { s with tiles := tput p t s.tiles }
def State.modTile (s : State) (p : Nat) (f : Tile → Tile) : State := s.setTile p (f (s.tile p))

def Tile.ctx (t : Tile) (c : Nat) : CtxSt := if c = 0 then t.c0 else t.c1
def Tile.setCtx (t : Tile) (c : Nat) (x : CtxSt) : Tile := if c = 0 then { t with c0 := x } else { t with c1 := x }
def Tile.modCtx (t : Tile) (c : Nat) (f : CtxSt → CtxSt) : Tile := t.setCtx c (f (t.ctx c))

def State.ctx (s : State) (p c : Nat) : CtxSt := (s.tile p).ctx c
def State.modCtx (s : State) (p c : Nat) (f : CtxSt → CtxSt) : State := s.modTile p (fun t => t.modCtx c f)

def CtxSt.plane (x : CtxSt) (q : Nat) : Plane := if q = 0 then x.plane0 else x.plane1
def CtxSt.setPlane (x : CtxSt) (q : Nat) (pl : Plane) : CtxSt :=
  if q = 0 then { x with plane0 := pl } else { x with plane1 := pl }

def State.chan (s : State) (c : Nat) : ChanSt := tget {} s.keel.chans c
def State.modChan (s : State) (c : Nat) (f : ChanSt → ChanSt) : State :=
  { s with keel := { s.keel with chans := tmod {} c f s.keel.chans } }

def State.mchan (s : State) (i : Nat) : MemChan := tget {} s.mem.chans i
def State.modMchan (s : State) (i : Nat) (f : MemChan → MemChan) : State :=
  { s with mem := { s.mem with chans := tmod {} i f s.mem.chans } }
def State.mrtE (s : State) (i : Nat) : MrtEntry := tget {} s.mem.mrt i
def State.modMrt (s : State) (i : Nat) (f : MrtEntry → MrtEntry) : State :=
  { s with mem := { s.mem with mrt := tmod {} i f s.mem.mrt } }

/-- A fresh number for a free value. -/
def State.bump (s : State) : State := { s with fresh := s.fresh + 1 }

/-- The block has entered Sealed and is not in a warm reset (R454, R476). -/
def State.up (s : State) : Bool := s.boot.phase = .ready

/-! ## Worlds and placement -/

/-- World of context `c` of logical tile `l` (R411); secure after reset. -/
def State.wtile (s : State) (l c : Nat) : World :=
  if c = 0 then tget true s.sec.wtile0 l else tget true s.sec.wtile1 l

/-- World of a logical tile: secure while either context is (R409). -/
def State.tileWorld (s : State) (l : Nat) : World := s.wtile l 0 || s.wtile l 1

def State.wcbank (s : State) (b : Nat) : World := tget true s.sec.wcbank b
def State.wlane (s : State) (g : Nat) : World := tget true s.sec.wlane g

/-- The tables a holder routes by: background ones once it has swapped (R434). -/
def State.routesOf (s : State) (holder : Nat) : Routes :=
  match s.flt.swaps with
  | [] => s.flt.routes
  | j :: _ => if s.flt.swapped.contains holder then j.bg else s.flt.routes

/-- Physical tile 52n + t of a logical tile, by the keel's tables (R428). -/
def State.placed (s : State) (l : Nat) : Option Nat :=
  (tlook l (s.routesOf 18).tile).map (fun t => 52 * (l / 48) + t)

/-- The logical tile on a physical tile. -/
def State.logicalOf (s : State) (p : Nat) : Option Nat :=
  lowest 48 (fun j => s.placed (48 * (p / 52) + j) = some p) |>.map (48 * (p / 52) + ·)

/-! ## Event records (R398, R400, R491) -/

/-- Emit a record: its source's sequence number advances, and it is queued or, when 16,384 wait, dropped. -/
def State.emit (s : State) (src : Nat) (world : World) (w1 w2 w3 : Word) : State :=
  let k := s.keel
  let n := tget 0 k.eseqs src
  let eseqs := tput src (n + 1) k.eseqs
  if k.events.length < 16384 then
    { s with keel := { k with
      eseqs := eseqs
      losts := tput src 0 k.losts
      events := k.events ++ [{ world := world, src := BitVec.ofNat 8 src, eseq := n, lost := tget 0 k.losts src
                               w1 := w1, w2 := w2, w3 := w3 }] } }
  else
    { s with keel := { k with
      eseqs := eseqs
      losts := tput src (satInc (tget 0 k.losts src)) k.losts
      dropped := satInc k.dropped } }

/-! ## The ledger (R389, R390) -/

def State.entry (s : State) (i : Nat) : Option LgEntry := tlook i s.keel.ledger

/-- Write an entry to its three copies; its write count advances (R389, R390). -/
def State.lgPut (s : State) (i : Nat) (e : LgEntry) : State :=
  let e := { e with alive := e.alive + 1 }
  { s with keel := { s.keel with
    ledger := tput i e s.keel.ledger, ledgerW := tput i e s.keel.ledgerW, ledgerE := tput i e s.keel.ledgerE } }

/-- Write an entry free in its three copies. -/
def State.lgFree (s : State) (i : Nat) : State :=
  { s with keel := { s.keel with
    ledger := tdel i s.keel.ledger, ledgerW := tdel i s.keel.ledgerW, ledgerE := tdel i s.keel.ledgerE } }

def State.lead (s : State) : Bool := !s.boot.follower
/-- `PELCFG.NUM` (R336): 0 on the lead and 127 on followers until written. -/
def State.pelNum (s : State) : Nat := match s.ser.pel.num with
  | some n => n.toNat
  | none => if s.lead then 0 else 127

/-- A reply, check notice or credit notice (R380). -/
def rpPacket (kind : Nat) (unacc replay : Bool) (w : World) (st : BitVec 8) (seq chan member crede credp alive : Nat) (d0 d1 : Word) :
    DevPacket :=
  { w0 := packF [(0, 4, kind), (4, 1, b2n unacc), (5, 1, b2n replay), (6, 1, b2n w), (8, 8, st.toNat), (16, 48, seq)]
    w1 := packF [(0, 8, chan), (8, 7, member), (16, 16, crede), (32, 16, credp), (48, 16, alive)]
    w2 := d0, w3 := d1 }

def ledgerBase : Nat := 0xF800000000
def ledgerEnd : Nat := 0xF801000000

/-- A ledger entry as eight words (R389). -/
def LgEntry.words (e : LgEntry) (member : Nat) : List Word :=
  let st := match e.state with
    | .accepted => 1
    | .started => 2
    | .complete => 3
  let w0 := packF [(0, 48, e.seq.toNat), (48, 8, e.chan.toNat), (56, 3, st), (59, 1, b2n e.world), (60, 1, b2n e.fence),
    (61, 1, b2n e.marked)]
  let w1 := packF [(0, 16, e.opc.toNat), (16, 13, e.plen.toNat), (32, 19, e.punit.toNat)]
  let w2 := packF [(0, 32, e.pchk.toNat), (32, 32, e.order.toNat)]
  let hi := packF [(0, 16, e.alive.toNat)]
  let rp : List Word := match e.reply with
    | none => [0, 0, 0, 0]
    | some r =>
      let p := rpPacket 1 false false e.world r.status e.seq.toNat e.chan.toNat member 0 0 0 r.det0 r.det1
      [p.w0, p.w1, p.w2, p.w3]
  let chk := crc32c (bytesOfWords [w0, w1, w2] ++ (bytesOf 4 hi.toNat) ++ bytesOfWords rp)
  [w0, w1, w2, packF [(0, 32, chk.toNat), (32, 16, e.alive.toNat)]] ++ rp

/-- The word at an address of a ledger window (R285, R389): copy W, then copy E; a free entry is zero. -/
def State.ledgerWord (s : State) (a : Nat) : Word :=
  let o := a - ledgerBase
  let t := if o < 0x800000 then s.keel.ledgerW else s.keel.ledgerE
  match tlook (o % 0x800000 / 64) t with
  | some e => (e.words s.pelNum).getD (o % 64 / 8) 0
  | none => 0

/-- Form and record the reply of a command (R386, R390): its entry becomes complete, once. -/
def State.complete (s : State) (i : Nat) (r : Reply) : State :=
  match s.entry i with
  | some e => if e.state = .complete then s else s.lgPut i { e with state := .complete, reply := some r }
  | none => s

/-- The parameter bytes of an entry, from the store copy that matches (R401). -/
def State.paramsOf (s : State) (i : Nat) : List Byte :=
  match s.entry i with
  | some e => (tget [] s.keel.pstoreW e.punit.toNat).take e.plen.toNat
  | none => []

def stOK : BitVec 8 := 0x00
def stSTATE : BitVec 8 := 0x11
def stPARAM : BitVec 8 := 0x12
def stWORLD : BitVec 8 := 0x13
def stCHECK : BitVec 8 := 0x14
def stCAPACITY : BitVec 8 := 0x21
def stSHAPE : BitVec 8 := 0x22
def stFAULT : BitVec 8 := 0x31
def stCANCELLED : BitVec 8 := 0x32
def stLOST : BitVec 8 := 0x33
def stNUMERIC : BitVec 8 := 0x40
def stGENMOVED : BitVec 8 := 0x41
def stREJECT : BitVec 8 := 0x50
def stFALLBACK : BitVec 8 := 0x51

/-! ## Banks and accumulator memory (R162) -/

/-- Write one byte; a zero byte is not listed, so that equal contents are equal lists. -/
def cellPut (a : Nat) (v : Byte) (m : List Host.Cell) : List Host.Cell := if v = 0 then tdel a m else tput a v m
def cellGet (m : List Host.Cell) (a : Nat) : Byte := tget 0 m a

def cellsPut (a : Nat) (bs : List Byte) (m : List Host.Cell) : List Host.Cell :=
  (bs.zipIdx).foldl (fun m p => cellPut (a + p.2) p.1 m) m

/-- The canonical form of a bank: keys strictly rising and no zero byte listed. -/
abbrev BankWf (m : List Host.Cell) : Prop := Rising m ∧ ∀ x ∈ m, x.2 ≠ 0

def Tile.bank (t : Tile) (b : Nat) : List Host.Cell := if b = 0 then t.bankA else t.bankB
def Tile.setBank (t : Tile) (b : Nat) (m : List Host.Cell) : Tile :=
  if b = 0 then { t with bankA := m } else { t with bankB := m }
def Tile.rd (t : Tile) (b a : Nat) : Byte := cellGet (t.bank b) a
def Tile.rdN (t : Tile) (b a n : Nat) : List Byte := (List.range n).map (fun i => t.rd b (a + i))
def Tile.wrN (t : Tile) (b a : Nat) (bs : List Byte) : Tile := t.setBank b (cellsPut a bs (t.bank b))

/-- An accumulator entry; after an abort an entry of the faulted half that has not been written holds no
defined value (R117). -/
def Tile.acc_rd (t : Tile) (i : Nat) : Word32 :=
  match tlook i t.acc with
  | some v => v
  | none =>
    match (if i < 32768 then t.accFree0 else t.accFree1) with
    | some n => Config.freeAcc n i
    | none => 0
def Tile.acc_wr (t : Tile) (i : Nat) (v : Word32) : Tile := { t with acc := tput i v t.acc }

/-! ## Task descriptor fields (R170, R171) -/

def Task.w (t : Task) (i : Nat) : Word := t.desc.getD i 0
def Task.f (t : Task) (i hi lo : Nat) : Nat := bits (t.w i) hi lo
def Task.tag (t : Task) : BitVec 32 := BitVec.ofNat 32 (t.f 0 31 0)
def Task.logical (t : Task) : Nat := t.f 0 41 32
/-- `TD.CTX`: 0 whole array, 1 H0, 2 H1. -/
def Task.ctxCode (t : Task) : Nat := t.f 0 43 42
def Task.half (t : Task) : Bool := t.ctxCode ≠ 0
/-- The sequencer context that runs the task (R114). -/
def Task.ctxNum (t : Task) : Nat := if t.ctxCode = 2 then 1 else 0
def Task.pass (t : Task) : Nat := t.f 0 45 44
def Task.accBase (t : Task) : Nat := t.f 3 15 0
def Task.aBase (t : Task) : Nat := t.f 3 34 16
def Task.bBase (t : Task) : Nat := t.f 3 53 35
def Task.nreg (t : Task) : Nat := t.f 3 57 54
def Task.nstr (t : Task) : Nat := t.f 3 62 58
def Task.tvuBase (t : Task) : Nat := t.f 4 11 0
def Task.tvuWords (t : Task) : Nat := t.f 4 24 12
def Task.seqN (t : Task) : Nat := t.f 4 43 35
def Task.nxfer (t : Task) : Nat := t.f 4 56 44
def Task.ext (t : Task) (d : Nat) : Nat :=
  if d = 0 then t.f 1 31 0 else if d = 1 then t.f 1 63 32 else t.f 2 31 0
def Task.lvDim (t : Task) (l : Nat) : Nat := t.f (8 + l) 1 0
def Task.lvTile (t : Task) (l : Nat) : Nat := t.f (8 + l) 39 8

/-- The level, outer (0 to 2) or inner (3 to 5), of dimension `d` (R164). -/
def Task.levelOf (t : Task) (inner : Bool) (d : Nat) : Nat :=
  let b := if inner then 3 else 0
  if t.lvDim b = d then b else if t.lvDim (b + 1) = d then b + 1 else b + 2

def Task.ot (t : Task) (d : Nat) : Nat := t.lvTile (t.levelOf false d)
def Task.it (t : Task) (d : Nat) : Nat := t.lvTile (t.levelOf true d)

def cdiv (a b : Nat) : Nat := if b = 0 then 0 else (a + b - 1) / b
def up64 (a : Nat) : Nat := cdiv a 64 * 64

/-- Count of a level (R164). -/
def Task.cnt (t : Task) (l : Nat) : Nat :=
  let d := t.lvDim l
  if l < 3 then cdiv (t.ext d) (t.lvTile l) else cdiv (t.ot d) (t.lvTile l)

/-- Region records (R172) and stream buffer records (R173). -/
def Task.rg (t : Task) (i : Nat) : Word := t.w (14 + i)
def Task.sb (t : Task) (i : Nat) : Word := t.w (22 + i)
def Task.rgBytes (t : Task) (i : Nat) : Nat :=
  let r := t.rg i
  let rows := if bits r 3 2 = 3 then bits r 31 8 else t.ot (bits r 3 2)
  (bits r 1 1 + 1) * rows * bits r 50 32

/-- The next multiple-of-64 layout of a bank (R163): offsets of the regions and own-space buffers below `i`. -/
def Task.regOff (t : Task) (bank i : Nat) : Nat :=
  (List.range i).foldl (fun a j => if bits (t.rg j) 0 0 = bank then a + up64 (t.rgBytes j) else a) 0
def Task.sbOff (t : Task) (bank i : Nat) : Nat :=
  (List.range i).foldl (fun a j =>
    if bits (t.sb j) 2 2 = bank && bits (t.sb j) 7 4 = 15 then a + up64 (bits (t.sb j) 26 8) else a)
    (t.regOff bank t.nreg)

def Task.base (t : Task) (bank : Nat) : Nat := if bank = 0 then t.aBase else t.bBase
/-- Bytes of the task's allocation in a bank (R163, R182). -/
def Task.bankLen (t : Task) (bank : Nat) : Nat := t.sbOff bank t.nstr

/-- Bank, first byte and length of stream buffer record `i` (R163, R173). -/
def Task.record (t : Task) (i : Nat) : Nat × Nat × Nat :=
  let b := bits (t.sb i) 2 2
  let r := bits (t.sb i) 7 4
  if r = 15 then (b, t.base b + t.sbOff b i, bits (t.sb i) 26 8)
  else (b, t.base b + t.regOff b r, t.rgBytes r)

/-- Array columns of a task's target: 64, or 32 for a half (R165). -/
def Task.nw (t : Task) : Nat := if t.half then 32 else 64

/-- LIVE (R183). -/
def Task.live (t : Task) : Nat :=
  let ko := t.levelOf false 2
  let ki := t.levelOf true 2
  let prod (lo hi k : Nat) : Nat :=
    (List.range 6).foldl (fun a l => if lo ≤ l && l < hi && k < l then a * t.cnt l else a) 1
  if 1 < t.cnt ko then prod 0 3 ko * t.cnt (t.levelOf true 0) * t.cnt (t.levelOf true 1)
  else if 1 < t.cnt ki then prod 3 6 ki
  else 1

/-- Entries of the accumulator allocation (R182, check 3). -/
def Task.accLen (t : Task) : Nat :=
  let ring := t.f 0 51 48
  let accx := t.f 2 63 48
  if ring ≠ 0 then 2 ^ ring * t.nw + accx
  else
    let hold := max 1 (t.f 2 47 32)
    (t.f 0 47 47 + 1) * max t.live hold * t.it 0 * t.it 1 + accx

/-! ## Flags of a tile's engines (R82 to R89, R121, R157) -/

/-- The flag word of an engine (R93, R157). -/
def Tile.flag (t : Tile) : Engine → FlagWord
  | .array => t.fArr
  | .h1 => t.fH1
  | .mvp => t.fMvp
  | .tvu0 => t.c0.tvuFlags
  | .tvu1 => t.c1.tvuFlags

def Tile.setFlag (t : Tile) (e : Engine) (w : FlagWord) : Tile :=
  match e with
  | .array => { t with fArr := w }
  | .h1 => { t with fH1 := w }
  | .mvp => { t with fMvp := w }
  | .tvu0 => { t with c0 := { t.c0 with tvuFlags := w } }
  | .tvu1 => { t with c1 := { t.c1 with tvuFlags := w } }

/-- The context whose engine it is. -/
def engCtx : Engine → Nat
  | .h1 => 1
  | .tvu1 => 1
  | _ => 0

def arrEngine (c : Nat) : Engine := if c = 0 then .array else .h1
def tvuEngine (c : Nat) : Engine := if c = 0 then .tvu0 else .tvu1

/-- Take numeric events in an engine and note them for the task of context `c` (R82, R87). -/
def Tile.raise (t : Tile) (e : Engine) (c : Nat) (es : List (Fl × EvAt)) : Tile :=
  let t := t.setFlag e ((t.flag e).events es)
  t.modCtx c (fun x => { x with raised := orFl x.raised (flUnion es) })

/-! ## Counter values (R214) -/

/-- Return an unretired value to the pool, or report it when the pool is full. -/
def State.poolReturn (s : State) (ctr val : Nat) : State :=
  if s.ctrs.pool.length < 8192 then { s with ctrs := { s.ctrs with pool := s.ctrs.pool ++ [(ctr, val)] } }
  else
    let s := { s with ctrs := { s.ctrs with dropped := satInc s.ctrs.dropped } }
    s.emit 0x08 (s.wcbank (ctr / 256)) (BitVec.ofNat 64 ctr) (BitVec.ofNat 64 val) 0

/-- Return one value that a task of world `w` held: discarded when the bank has changed world (R415). -/
def State.returnVal (s : State) (w : World) (ctr val : Nat) : State :=
  if s.wcbank (ctr / 256) = w then s.poolReturn ctr val else s

/-- Return every unretired value of a context (R199, step 5). -/
def State.returnValues (s : State) (p c : Nat) : State :=
  let x := s.ctx p c
  let w := match x.task with
    | some t => t.world
    | none => false
  let s := x.xr.foldl (fun s r => match r.2.live with
    | some k => s.returnVal w k r.2.val
    | none => s) s
  s.modCtx p c (fun x => { x with xr := x.xr.map (fun r => (r.1, { r.2 with live := none })) })

/-! ## The end of a task (R117, R199, R396) -/

/-- Is this kind of transfer a memory or keel request whose answer is awaited? -/
def Transfer.busy (x : Transfer) : Bool := x.inFlight ≠ 0

/-- Steps 2 to 5 of R199, and R117: the sequencer takes no further entry, transfers without a request in
flight are dropped, counter values go back, link entries of the task's keys are cleared. -/
def State.beginEnd (s : State) (p c : Nat) (why : EndWhy) : State :=
  let s := s.returnValues p c
  s.modTile p (fun t =>
    let t := { t with starts := t.starts.filter (fun x => x.1 ≠ c) }
    let running := match t.prog with
      | some g => decide (g.ctx = c)
      | none => false
    t.modCtx c (fun x =>
      let keys := match x.task with
        | some k => k.keys
        | none => []
      { x with
        ending := match x.ending with
          | some w => some w
          | none => some why
        offer := none, offerX := none, fencing := false, waiting := false, atEnd := false
        load := none, strm := none
        xfers := x.xfers.filter Transfer.busy
        grants := []
        fetching := x.fetching
        links := x.links.filter (fun l => !keys.contains l.1)
        blocks := []
        faultNote := x.faultNote || (running && decide (why = .fault))
        cancelNote := x.cancelNote || (running && decide (why = .cancel)) }))

/-- Whether a fault counts towards retirement (R431). -/
def faultCounts (code loc2 : Nat) : Bool :=
  code = 1 || code = 2 || code = 3 || code = 9 || code = 0xA || (code = 0xB && (loc2 = 5 || loc2 = 6))

/-- Count a fault of a physical tile and start its retirement at the limit (R431, R432). -/
def State.countFault (s : State) (p code : Nat) : State :=
  let pt := tget {} s.flt.ptiles p
  let pt' := { pt with hwflt := satInc pt.hwflt }
  let s := { s with flt := { s.flt with ptiles := tput p pt' s.flt.ptiles } }
  if pt.state = .active && decide (s.flt.tlim.toNat ≤ pt'.hwflt.toNat) &&
      !s.flt.retire.any (fun r => decide (r.ptile = p)) then
    { s with flt := { s.flt with retire := s.flt.retire ++ [{ ptile := p, code := BitVec.ofNat 8 code }] } }
  else s

/-- Forget the accumulator contents of a faulted half (R117), or of the whole array (log entry 103). -/
def Tile.accForget (t : Tile) (c n : Nat) : Tile :=
  if t.split then
    if c = 0 then { t with acc := tclear 0 32768 t.acc, accFree0 := some n }
    else { t with acc := tclear 32768 65536 t.acc, accFree1 := some n }
  else { t with acc := [], accFree0 := some n, accFree1 := some n }

/-- A tile fault of one context (R116, R117, R122): rows and beats are discarded, planes empty, the fault
recorded, the task ends. `mvp` for a fault raised in carrying out an MVP instruction. A fault of both halves has the scope of each
half in its own word (log entry 104). -/
def State.tileFault (s : State) (p c : Nat) (mvp : Bool) (code loc1 loc2 : Nat) : State :=
  let t := s.tile p
  let x := t.ctx c
  let scope : BitVec 2 := if mvp then 3 else if t.split then (if c = 0 then 1 else 2) else 0
  let tag := match x.task with
    | some k => k.tag
    | none => 0
  let s := s.beginEnd p c .fault
  let s := s.modTile p (fun t =>
    t.modCtx c (fun x => { x with
      flight := [], plane0 := {}, plane1 := {}
      fValid := true, fScope := scope, fCode := BitVec.ofNat 8 code, fCount := satInc x.fCount, fTask := tag
      fLoc1 := BitVec.ofNat 32 loc1, fLoc2 := BitVec.ofNat 32 loc2
      fltCode := BitVec.ofNat 8 code
      fltStream := if code = 8 then BitVec.ofNat 8 loc2 else 0
      lost := x.lost || (decide (code = 8) && decide (loc2 = 2)) }))
  if faultCounts code loc2 then s.countFault p code else s

/-- A stream fault of a transfer (R197). -/
def State.streamFault (s : State) (p c xi status : Nat) : State := s.tileFault p c false 8 xi status

/-- The context takes no part in work: no task, or the task is ending. -/
def CtxSt.active (x : CtxSt) : Bool := x.task.isSome && x.ending.isNone

/-- Reply status of a task (R87, R396). -/
def CtxSt.status (x : CtxSt) : BitVec 8 :=
  if x.lost then stLOST
  else match x.ending with
    | some .fault => stFAULT
    | some .cancel => stCANCELLED
    | _ => if x.raised.ovf || x.raised.unf || x.raised.inv then stNUMERIC else stOK

/-- Detail word 0 of a task's reply (R381). -/
def CtxSt.det0 (x : CtxSt) (p : Nat) : Word :=
  packF [(0, 1, b2n x.raised.ovf), (1, 1, b2n x.raised.unf), (2, 1, b2n x.raised.inx), (3, 1, b2n x.raised.inv),
    (8, 8, x.fltCode.toNat), (16, 8, x.fltStream.toNat), (32, 5, p / 52), (37, 6, p % 52)]

/-- The context after its task's reply: idle, allocations and buffers released (R161, R185, R201). -/
def CtxSt.idle (x : CtxSt) : CtxSt :=
  let keys := match x.task with
    | some k => k.keys
    | none => []
  { x with
    task := none, ending := none, cancelAsked := false, idx := [0, 0, 0, 0, 0, 0], pos := 0, offer := none, offerX := none
    fencing := false, waiting := false, atEnd := false, insNum := 0, load := none, strm := none, flight := []
    outs := 0, raised := {}, fltCode := 0, fltStream := 0, lost := false, xfers := [], grants := []
    groups := [], fetching := none, ring := none, blocks := [], plEnd := 0, readPt := 0, lastRot := 0
    owed := 0, xr := x.xr.map (fun r => (r.1, { r.2 with live := none }))
    links := x.links.filter (fun l => !keys.contains l.1), faultNote := false, cancelNote := false }

/-- After the abort of a faulted half its entries hold no defined values (R117). -/
def State.forgetAcc (s : State) (p c : Nat) : State :=
  if (s.ctx p c).ending = some .fault then (s.modTile p (fun t => t.accForget c s.fresh)).bump else s

/-- Form the reply of the context's task and leave the context idle. -/
def State.finishTask (s : State) (p c : Nat) : State :=
  let x := s.ctx p c
  match x.task with
  | none => s
  | some t =>
    let s := (s.complete t.entry
      { status := x.status, det0 := x.det0 p, det1 := t.tag.setWidth 64 }).forgetAcc p c
    s.modCtx p c CtxSt.idle

/-! ## Corrected errors (R91, R124) -/

def Tile.correct (t : Tile) (a b acc : Nat) : Tile :=
  { t with eccA := satInc t.eccA a, eccB := satInc t.eccB b, eccAcc := satInc t.eccAcc acc }

/-- The scope of an uncorrectable or parity error in split mode (R116): the contexts it concerns. -/
def hwScope (t : Tile) (c : Nat) : HwEvent → Nat
  | .opbufUe b _ => if t.split then (if b then 1 else 0) else 0
  | .accUe e => if t.split then (if e < 32768 then 0 else 1) else 0
  | .planeParity _ col _ => if t.split then (if col.val < 32 then 0 else 1) else 0
  | _ => c

/-- Code and location words of a hardware fault (R122, R159); `entry` is the sequencer entry, `pc` the TVU
address. -/
def hwLoc (entry pc : Nat) : HwEvent → Option (Nat × Nat × Nat)
  | .none => none
  | .corrected _ _ _ => none
  | .planeParity r col pl => some (1, r.val, col.val + 65536 * b2n pl)
  | .opbufUe b a => some (2, a / 8 * 8, b2n b)
  | .accUe e => some (3, e, 0)
  | .seqParity => some (9, entry, 0)
  | .imemParity => some (0xB, pc, 5)
  | .regParity => some (0xB, pc, 6)

/-- Run a tile step under what its storage shows: a corrected error is counted and changes nothing else; a
fault of a kind that `ok` admits ends the task of its scope in place of the step. -/
def State.underHw (s : State) (p c : Nat) (hw : HwEvent) (mvp : Bool) (entry pc : Nat) (ok : HwEvent → Bool)
    (f : State → State) : State :=
  match hw with
  | .none => f s
  | .corrected a b e => f (s.modTile p (fun t => t.correct a b e))
  | h =>
    if !ok h then s
    else match hwLoc entry pc h with
      | some (code, l1, l2) => s.tileFault p (hwScope (s.tile p) c h) mvp code l1 l2
      | none => s

end Sys2Proof.Machine
end

