-- ==== Sys2Proof/Machine/Operands.lean ====
section
/-!
DEFINITION. Operand forms: format codes (R95), elements in memory (R65, R66), walks (R106, R107), the vectors of
rows and beats with their edge padding (R168, R487), and the ranges they read (R108).
-/
set_option autoImplicit false
namespace Sys2Proof.Machine

/-- Four-bit formats. -/
def is4 (fmt : Nat) : Bool := fmt = 0 || fmt = 5
/-- Integer formats. -/
def isInt (fmt : Nat) : Bool := fmt = 5 || fmt = 6 || fmt = 8
def fmtBits (fmt : Nat) : Nat :=
  if is4 fmt then 4 else if fmt = 4 then 16 else if fmt = 7 || fmt = 8 then 32 else 8

/-- The floating format of a code; AB8 elements are AF8M (R64). -/
def fmtOf (fmt : Nat) : FFmt :=
  if fmt = 0 then fAF4 else if fmt = 2 then fAF8E else if fmt = 4 then fAF16 else if fmt = 7 then fAF32 else fAF8M

/-- The operand pairs that the array and the MVP accept (R70). -/
def pairOk (a b : Nat) : Bool :=
  ((a = 1 || a = 2 || a = 3) && (b = 1 || b = 2 || b = 3)) || (a = 0 && b = 0) || (a = 4 && b = 4) ||
  (a = 6 && b = 6) || (a = 6 && b = 5) || (a = 5 && b = 5)

/-- The accumulator format of a pair (R70). -/
def accOf (a : Nat) : AccKind := if isInt a then .ai32 else .af32

/-- k-width of a pair (R96). -/
def kWidth (a b : Nat) : Nat := if is4 a && is4 b then 128 else 64
/-- Elements per PE per row (R96). -/
def perPe (a b : Nat) : Nat := if is4 a && is4 b then 2 else 1

/-- +0 in a format's operand form (R66). -/
def zeroOp (fmt : Nat) : Opnd := if isInt fmt then .i 0 else .f (.fin false 0 0)

/-- An element's operand value from its code (R65). -/
def opOf (fmt code : Nat) : Opnd :=
  if isInt fmt then .i (sext (fmtBits fmt) code) else .f ((fmtOf fmt).decode code)

/-- Scale a finite value by 2^s; zeros, infinities and NaN keep their value (R65, AB8). -/
def scaleVal (v : Val) (s : Int) : Val :=
  match v with
  | .fin n m e => .fin n m (if m = 0 then e else e + s)
  | v => v

/-- Read element `e` of a packed group at byte `a` (R66, R107). -/
def rdElem (rd : Nat → Byte) (fmt a e : Nat) : Opnd :=
  if is4 fmt then
    let b := (rd (a + e / 2)).toNat
    opOf fmt (if e % 2 = 0 then b % 16 else b / 16)
  else if fmt = 3 then
    let blk := a + e / 16 * 17
    let s := sext 8 (rd (blk + 16)).toNat
    .f (scaleVal (fAF8M.decode (rd (blk + e % 16)).toNat) s)
  else
    let n := fmtBits fmt / 8
    opOf fmt (natOfBytes ((List.range n).map (fun i => rd (a + e * n + i))))

/-- Bytes that a packed group of `n` elements occupies (R66). -/
def packedLen (fmt n : Nat) : Nat :=
  if is4 fmt then cdiv n 2 else if fmt = 3 then cdiv n 16 * 17 else n * (fmtBits fmt / 8)

/-! Fields of a walk descriptor (R106) -/

def wk (ws : List Word) (i hi lo : Nat) : Nat := bits (ws.getD i 0) hi lo
def wkBank (ws : List Word) : Nat := wk ws 0 0 0
def wkFmt (ws : List Word) : Nat := wk ws 0 4 1
def wkBase (ws : List Word) : Nat := wk ws 0 26 8
def wkCh (ws : List Word) : Nat := wk ws 0 34 27
def wkNtx (ws : List Word) : Nat := wk ws 0 37 35
def wkNty (ws : List Word) : Nat := wk ws 0 40 38
def wkEstride (ws : List Word) : Nat := wk ws 2 56 38
def wkOw (ws : List Word) : Nat := wk ws 1 15 0 + 1
def wkIw (ws : List Word) : Nat := wk ws 3 15 0
def wkIh (ws : List Word) : Nat := wk ws 3 31 16

/-- Number of elements that a walk forms. -/
def wkElems (ws : List Word) : Nat := wkNtx ws * wkNty ws * wkCh ws

/-- The taps of walk row `m` in order (R107): the byte of channel element 0 of each, or none for padding. -/
def wkTaps (ws : List Word) (base m : Int) : List (Option Int) :=
  let ow : Int := wkOw ws
  let x := m % ow
  let y := m / ow
  (List.range (wkNty ws)).flatMap (fun (ty : Nat) => (List.range (wkNtx ws)).map (fun (tx : Nat) =>
    let ix := sext 16 (wk ws 1 47 32) + x * (wk ws 0 52 49 : Nat) + (tx * wk ws 0 44 41 : Nat)
    let iy := sext 16 (wk ws 1 63 48) + y * (wk ws 0 56 53 : Nat) + (ty * wk ws 0 48 45 : Nat)
    if 0 ≤ ix && ix < (wkIw ws : Int) && 0 ≤ iy && iy < (wkIh ws : Int) then
      some (base + iy * (wk ws 2 37 19 : Nat) + ix * (wk ws 2 18 0 : Nat))
    else none))

/-- The elements of one group at byte `a`. -/
def wkGroup (rd : Nat → Byte) (ws : List Word) (a : Nat) : List Opnd :=
  let fmt := wkFmt ws
  (List.range (wkCh ws)).map (fun e =>
    if wkEstride ws = 0 then rdElem rd fmt a e else rdElem rd fmt (a + e * wkEstride ws) 0)

/-- The vector of walk row `m`, filled to `n` elements with edge padding (R107, R168). -/
def wkVector (rd : Nat → Byte) (ws : List Word) (base m : Int) (n : Nat) : List El :=
  let fmt := wkFmt ws
  let body := (wkTaps ws base m).flatMap (fun tap => match tap with
    | some a => (wkGroup rd ws a.toNat).map (fun v => ({ v := v } : El))
    | none => (List.range (wkCh ws)).map (fun _ => ({ v := zeroOp fmt } : El)))
  (body ++ List.replicate (n - body.length) ({ v := zeroOp fmt, edge := true } : El)).take n

/-- Bytes of a group from its channel element 0 to its last byte. -/
def wkGroupLen (ws : List Word) : Nat :=
  if wkEstride ws = 0 then packedLen (wkFmt ws) (wkCh ws)
  else (wkCh ws - 1) * wkEstride ws + fmtBits (wkFmt ws) / 8

/-- Lowest and highest byte that the walk reads over rows `org` to `org + n − 1` (R108). -/
def wkRange (ws : List Word) (base org : Int) (n : Nat) : Option (Int × Int) :=
  (List.range n).foldl (fun (acc : Option (Int × Int)) (i : Nat) =>
    (wkTaps ws base (org + i)).foldl (fun acc tap => match tap with
      | none => acc
      | some a =>
        let hi := a + (wkGroupLen ws : Int) - 1
        match acc with
        | none => some (a, hi)
        | some (l, h) => some (min l a, max h hi)) acc) none

/-- Is a byte range inside the task's allocation of a bank (R108, R167)? -/
def Task.inBank (t : Task) (bank : Nat) (r : Option (Int × Int)) : Bool :=
  match r with
  | none => true
  | some (l, h) =>
    let b : Int := t.base bank
    decide (b ≤ l) && decide (h < b + (t.bankLen bank : Int)) && decide (h < 524288)

/-! Fields of an array instruction (R99 to R101) -/

def aiOpc (w : Word) : Nat := bits w 3 0
def aiTgt (w : Word) : Nat := bits w 5 4
def aiPlane (w : Word) : Nat := bits w 6 6
def aiTrans (w : Word) : Bool := bit w 7
def aiMode (w : Word) : Nat := bits w 9 8
def aiRnd (w : Word) : Rnd := if bit w 10 then .trunc else .halfUp
def aiAcc (w : Word) : Bool := bit w 11
def aiFmtA (w : Word) : Nat := bits w 15 12
def aiFmtB (w : Word) : Nat := bits w 19 16
def aiCnt (w : Word) : Nat := bits w 47 24 + 1
def aiAccBase (w : Word) : Nat := bits w 63 48
def awWalk (w : Word) : Nat := bits w 3 0
def awWalk2 (w : Word) : Nat := bits w 7 4
def awSrc (w : Word) : Bool := bit w 8
def awRow (w : Word) : Nat := bits w 31 16
def awCol (w : Word) : Nat := bits w 47 32
def awRing (w : Word) : Nat := bits w 51 48
def amXbank (w : Word) : Nat := bits w 4 4
def amK (w : Word) : Nat := bits w 19 8 + 1
def amXbase (w : Word) : Nat := bits w 38 20
def amXpitch (w : Word) : Nat := bits w 57 39

/-- Columns of the target (R487). -/
def tgtCols (w : Word) : Nat := if aiTgt w = 0 then 64 else 32

/-- Ring size in vectors, or 0 (R100). -/
def ringSize (w1 : Word) : Nat := if awRing w1 = 0 then 0 else 2 ^ awRing w1

/-- The accumulator entry of element `j` of output vector `v` (R103), from the effective base of R166. -/
def ArrInstr.accEntry (i : ArrInstr) (v j : Nat) : Int :=
  if aiOpc i.w0 = 4 then i.accBase + 64 * v + j
  else
    let v' := if aiOpc i.w0 = 2 && ringSize i.w1 ≠ 0 then v % ringSize i.w1 else v
    i.accBase + v' * awRow i.w1 + j * awCol i.w1

/-- Output vectors and their elements: of a STREAM in WS or IS, of a DRAIN, of an MVP. -/
def ArrInstr.outVecs (i : ArrInstr) : Nat :=
  if aiOpc i.w0 = 3 then 64 else if aiOpc i.w0 = 2 && aiMode i.w0 = 2 then 0
  else if aiOpc i.w0 = 2 || aiOpc i.w0 = 4 then i.count else 0
def ArrInstr.outElems (i : ArrInstr) : Nat := if aiOpc i.w0 = 4 then 64 else tgtCols i.w0

/-- Lowest and highest entry that an instruction can write (R103, R167), if it writes any. -/
def ArrInstr.accRange (i : ArrInstr) : Option (Int × Int) :=
  let n := i.outVecs
  if n = 0 then none
  else
    let n' := if aiOpc i.w0 = 2 && ringSize i.w1 ≠ 0 then min n (ringSize i.w1) else n
    some (i.accEntry 0 0, i.accEntry (n' - 1) (i.outElems - 1))

/-- Is the entry range inside the accumulator memory, the half and the task's allocation (R103, R167)? -/
def Task.inAcc (t : Task) (r : Option (Int × Int)) : Bool :=
  match r with
  | none => true
  | some (l, h) =>
    let top : Int := if t.ctxCode = 1 then 32768 else 65536
    let bot : Int := if t.ctxCode = 2 then 32768 else 0
    decide ((t.accBase : Int) ≤ l) && decide (h < (t.accBase : Int) + (t.accLen : Int)) && decide (bot ≤ l) &&
      decide (h < top)

/-- Lowest and highest byte of the x vectors of an MVP (R108). -/
def ArrInstr.xRange (i : ArrInstr) : Option (Int × Int) :=
  let first : Int := amXbase i.w1
  let last : Int := first + ((i.count - 1) * amXpitch i.w1 : Nat)
  some (first, last + (packedLen (aiFmtA i.w0) i.kCount : Int) - 1)

/-- Is `i` at or beyond a left value (R168)? -/
def beyond (left : Option Int) (i : Nat) : Bool :=
  match left with
  | some l => decide (l ≤ (i : Int))
  | none => false

def markEdge (es : List El) (f : Nat → Bool) : List El :=
  (es.zipIdx).map (fun p => { p.1 with edge := p.1.edge || f p.2 })

/-- Beats of a LOAD (R114, R487). -/
def loadBeats (w : Word) : Nat := if aiTrans w then tgtCols w else 64

/-- Elements of a LOAD beat: the k-width with TRANS = 1, columns times elements per PE with TRANS = 0. -/
def beatLen (w : Word) : Nat :=
  if aiTrans w then kWidth (aiFmtA w) (aiFmtB w) else tgtCols w * perPe (aiFmtA w) (aiFmtB w)

/-- Format of the stationary and of the streamed operand (Stationary choice). -/
def statFmt (w : Word) : Nat := if aiMode w = 1 then aiFmtA w else aiFmtB w
def strmFmt (w : Word) : Nat := if aiMode w = 1 then aiFmtB w else aiFmtA w

/-- The PE operands that beat `r` of a LOAD writes: key 64·row + column and element index within the PE (R487),
with edge padding by R168. -/
def placeBeat (i : ArrInstr) (r : Nat) (els : List El) : List (Nat × Nat × El) :=
  let w := i.w0
  let nc := tgtCols w
  let two := perPe (aiFmtA w) (aiFmtB w) = 2
  let leftO := if aiMode w = 1 then i.leftM else i.leftN
  (els.zipIdx).map (fun p =>
    let e := p.2
    if aiTrans w then
      let el := { p.1 with edge := p.1.edge || beyond i.leftK e || beyond leftO r }
      (64 * (if two then e / 2 else e) + r, if two then e % 2 else 0, el)
    else
      let sub := if two then e / nc else 0
      let c := if two then e % nc else e
      let k := if two then 2 * r + sub else r
      (64 * r + c, sub, { p.1 with edge := p.1.edge || beyond i.leftK k || beyond leftO c }))

/-- Put one operand into a PE. -/
def pePut (pes : Table (List El)) (x : Nat × Nat × El) : Table (List El) :=
  let old := tget [] pes x.1
  let pad : El := { v := x.2.2.v, edge := true }
  let old := if old.length ≤ x.2.1 then old ++ List.replicate (x.2.1 + 1 - old.length) pad else old
  tput x.1 (old.set x.2.1 x.2.2) pes

/-! Arithmetic of a row (R71, R72, R169) -/

/-- Reduce products in ascending k: the pass sum with the k-index of its last product, or none when every
product is edge padding; the events with their k-index (R72, R75, R84, R169). -/
def reduce (k : AccKind) (r : Rnd) (start : Option (Word32 × Nat)) (terms : List (Nat × El × El)) :
    Option (Word32 × Nat) × List (Fl × Nat) :=
  terms.foldl (fun (acc : Option (Word32 × Nat) × List (Fl × Nat)) t =>
    if t.2.1.edge || t.2.2.edge then acc
    else
      let (p, fl) := product k r t.2.1.v t.2.2.v
      let evs := if fl.any then acc.2 ++ [(fl, t.1)] else acc.2
      match acc.1 with
      | none => (some (p, t.1), evs)
      | some (s, _) =>
        let (s', fl') := accAdd k r s p
        (some (s', t.1), if fl'.any then evs ++ [(fl', t.1)] else evs)) (start, [])

/-- Write or add a pass sum to an accumulator entry (R72, R99, R169): the new value and its flags; none leaves the
entry as it is. -/
def accumulate (k : AccKind) (r : Rnd) (add : Bool) (old : Word32) (sum : Option (Word32 × Nat)) :
    Option Word32 × Fl :=
  match sum, add with
  | none, false => (some 0, {})
  | none, true => (none, {})
  | some (v, _), false => (some v, {})
  | some (v, _), true => let p := accAdd k r old v; (some p.1, p.2)

end Sys2Proof.Machine
end

