-- ==== Sys2Proof/Machine/Array.lean ====
section
/-!
DEFINITION. The matrix tile (04): taking array instructions, beats, rows, output vectors, DRAIN, the
matrix-vector path, FENCE, STALL, and reads of flag words (03).
-/
set_option autoImplicit false
namespace Sys2Proof.Machine

/-! ## Flag words -/

/-- World of an engine of a physical tile (R92, R409); a tile without a logical tile counts as secure. -/
def State.engineWorld (s : State) (p : Nat) (e : Engine) : World :=
  match s.logicalOf p with
  | some l => s.wtile l (engCtx e)
  | none => true

/-- FLAG_WORD_READ (R83, R92): the word is returned and its read mark set; a non-secure read of a word of the
secure world returns zero and is no read of the word. -/
def flagWordRead (p : Nat) (e : Engine) (w : World) (s : State) : State :=
  if !w && s.engineWorld p e then { s with readData := 0 }
  else
    let s := { s with readData := ((s.tile p).flag e).toWord }
    s.modTile p (fun t => t.setFlag e (t.flag e).read)

/-! ## Taking an instruction -/

/-- The instruction with opcode `opc` that the sequencer offers to the engine of an active context. -/
def CtxSt.offered (x : CtxSt) (opc : Nat) : Option ArrInstr :=
  if !x.active then none
  else match x.offer with
    | some i => if aiOpc i.w0 = opc then some i else none
    | none => none

/-- The engine has taken the instruction: the sequencer moves on (R176). -/
def CtxSt.taken (x : CtxSt) : CtxSt := { x with offer := none, pos := x.pos + 1 }

def Tile.walk (t : Tile) (slot : Nat) : List Word := tget [] t.walks slot

/-- The first range check of R103 and R108 that an instruction fails: code and second location word. Every beat of a LOAD counts, one
that a ragged edge turns into padding too (log entry 106). -/
def rangeCheck (t : Tile) (k : Task) (i : ArrInstr) : Option (Nat × Nat) :=
  let r := i.accRange
  let w1ws := t.walk (awWalk i.w1)
  let w2ws := t.walk (awWalk2 i.w1)
  let opc := aiOpc i.w0
  let rows := if opc = 1 then loadBeats i.w0 else if opc = 4 then i.kCount else i.count
  let usesWalk := (opc = 1 && !awSrc i.w1) || opc = 2 || opc = 4
  let usesWalk2 := opc = 2 && aiMode i.w0 = 2
  if !k.inAcc r then some (5, match r with
    | some (_, h) => h.toNat
    | none => 0)
  else if usesWalk && !k.inBank (wkBank w1ws) (wkRange w1ws i.base1 i.org1 rows) then some (4, awWalk i.w1)
  else if usesWalk2 && !k.inBank (wkBank w2ws) (wkRange w2ws i.base2 i.org2 rows) then some (4, awWalk2 i.w1)
  else if opc = 4 && !k.inBank (amXbank i.w1) i.xRange then some (4, 16)
  else none

/-- LOAD (R109, R111): taken while the LOAD slot is free; WALK_RANGE before the first beat (R108). -/
def load (p c : Nat) (s : State) : State :=
  let x := s.ctx p c
  match x.offered 1, x.task with
  | some i, some k =>
    if x.load.isSome then s
    else match rangeCheck (s.tile p) k i with
      | some (code, l2) => s.tileFault p c false code i.entry l2
      | none => s.modCtx p c (fun x => { x.taken with load := some { ins := i } })
  | _, _ => s

/-- Bytes of the paceline buffer at position `pos` of its endless order (R206). -/
def plByte (t : Tile) (k : Task) (r : Ring) (pos : Nat) : Byte :=
  let rec' := (List.range 16).find? (fun i => decide (i < k.nstr) && bits (k.sb i) 1 0 = 2)
  match rec' with
  | some i => let (b, a, _) := k.record i
              t.rd b (a + (if r.bufLen = 0 then 0 else pos % r.bufLen))
  | none => 0

/-- Positions of the data bytes still to be read, in block order: the blocks' data without their padding. -/
def CtxSt.plData (x : CtxSt) : List Nat :=
  x.blocks.flatMap (fun b => (List.range b.len).map (fun j => b.start + j))

/-- The data positions from the read point on (R207). -/
def CtxSt.plAhead (x : CtxSt) : List Nat := x.plData.filter (fun q => decide (x.readPt ≤ q))

/-- The elements of a beat taken from the paceline buffer, and the read point after it (R207); none while the
block that holds its bytes is not stored. -/
def paceBeat (t : Tile) (x : CtxSt) (k : Task) (w : Word) : Option (List El × Nat) :=
  match x.ring with
  | none => none
  | some r =>
    let fmt := statFmt w
    let n := beatLen w
    let need := packedLen fmt n
    let ps := x.plAhead
    if ps.length < need then none
    else
      let bytes := (ps.take need).map (plByte t k r)
      let rd := fun (a : Nat) => bytes.getD a 0
      some ((List.range n).map (fun e => { v := rdElem rd fmt 0 e }), (ps.getD (need - 1) 0) + 1)

/-- Is a LOAD's beat held by unissued rows of an earlier STREAM on its plane (R111, R112)? -/
def CtxSt.beatHeld (x : CtxSt) (ip : InProg) : Bool :=
  match x.strm with
  | some st => decide (st.ins.num < ip.ins.num) && decide (aiPlane st.ins.w0 = aiPlane ip.ins.w0)
  | none => false

/-- Do the rows of a STREAM in WS or IS wait: is its plane not complete, or is an earlier LOAD of it still in
progress (R111 step 4)? -/
def CtxSt.rowHeld (x : CtxSt) (ip : InProg) : Bool :=
  let q := aiPlane ip.ins.w0
  let ahead := match x.load with
    | some l => decide (l.ins.num < ip.ins.num) && decide (aiPlane l.ins.w0 = q)
    | none => false
  ahead || (x.plane q).st ≠ .complete

/-- Write a beat into the plane (R487); the first beat of a LOAD removes what the plane held (R488). -/
def CtxSt.putBeat (x : CtxSt) (ip : InProg) (els : List El) : CtxSt :=
  let q := aiPlane ip.ins.w0
  let old := if ip.next = 0 then [] else (x.plane q).pes
  let pes := (placeBeat ip.ins ip.next els).foldl pePut old
  let last := decide (loadBeats ip.ins.w0 ≤ ip.next + 1)
  { x.setPlane q { st := if last then .entered else .loading, pes := pes, sums := [] } with
    load := if last then none else some { ip with next := ip.next + 1 } }

/-- LOAD_BEAT (R111, R112, R207, R487). -/
def loadBeat (p c : Nat) (hw : HwEvent) (s : State) : State :=
  let x := s.ctx p c
  match x.load, x.task with
  | some ip, some k =>
    if !x.active || x.beatHeld ip then s
    else s.underHw p c hw false ip.ins.entry 0 (fun h => match h with | .opbufUe _ _ => true | _ => false) (fun s =>
      let t := s.tile p
      let w := ip.ins.w0
      if awSrc ip.ins.w1 then
        match paceBeat t x k w with
        | none => s
        | some (els, rp) => s.modCtx p c (fun x => { x.putBeat ip els with readPt := rp })
      else
        let ws := t.walk (awWalk ip.ins.w1)
        let els := wkVector (t.rd (wkBank ws)) ws ip.ins.base1 (ip.ins.org1 + ip.next) (beatLen w)
        s.modCtx p c (fun x => x.putBeat ip els))
  | _, _ => s

/-- PLANE_COMPLETE (R111 step 3): a plane whose beats have all entered is marked complete. -/
def planeComplete (p c : Nat) (s : State) : State :=
  s.modCtx p c (fun x =>
    if x.plane0.st = .entered then x.setPlane 0 { x.plane0 with st := .complete }
    else if x.plane1.st = .entered then x.setPlane 1 { x.plane1 with st := .complete }
    else x)

/-- Does the plane fail the check of R113 for a STREAM? A LOAD of it in progress will complete it. -/
def CtxSt.planeEmpty (x : CtxSt) (i : ArrInstr) : Bool :=
  let q := aiPlane i.w0
  let st := (x.plane q).st
  let loading := match x.load with
    | some ip => decide (aiPlane ip.ins.w0 = q)
    | none => false
  if aiMode i.w0 = 2 then aiAcc i.w0 && st ≠ .sums
  else !(loading || st = .entered || st = .complete)

/-- Of a ring STREAM of `count` vectors from output `base` on: does one that is written before, or is, the `n`-th output of the task
need a release that has not been made (R104, R105, R150)? -/
def ringBlocks (base count ring rel n : Nat) : Bool :=
  let top := min n (base + count)
  decide (base < top) && decide (ring ≠ 0) && decide (ring < top - base) && decide (rel < top - ring)

/-- Does this vector await the release of its ring slot (R105, R150)? -/
def CtxSt.ringWaits (x : CtxSt) (v : OutVec) : Bool :=
  decide (v.ring ≠ 0) && decide (v.ring ≤ v.vec) && decide (x.relcnt < v.out + 1 - v.ring)

/-- Can a wait for `n` outputs end only by a release that this program has not made (R151)? The awaited output belongs to a ring
STREAM, and it or a vector ahead of it awaits a release. -/
def CtxSt.deadlocked (x : CtxSt) (n : Nat) : Bool :=
  let strmHas (f : InProg → Bool) : Bool := match x.strm with
    | some ip => f ip
    | none => false
  (strmHas (fun ip => decide (ringSize ip.ins.w1 ≠ 0) && decide (ip.outBase < n) && decide (n ≤ ip.outBase + ip.ins.outVecs)) ||
    x.flight.any (fun v => decide (v.out + 1 = n) && decide (v.ring ≠ 0))) &&
  (strmHas (fun ip => ringBlocks ip.outBase ip.ins.outVecs (ringSize ip.ins.w1) x.relcnt n) ||
    x.flight.any (fun v => decide (v.out < n) && x.ringWaits v))

/-- A TVU fault (R159): the TVU stops at once and the context's task ends. -/
def State.tvuFault (s : State) (p c addr sub : Nat) : State :=
  let s := s.modTile p (fun t => { t with prog := match t.prog with
    | some g => if g.ctx = c then none else some g
    | none => none })
  s.tileFault p c false 0xB addr sub

/-- The counts that WAITVs await, with their addresses: one that stands, and one that a handler has interrupted (R151, R154). -/
def Prog.awaited (g : Prog) : List (Nat × Nat) :=
  (g.waitv.toList.map (fun n => (n, g.pc))) ++ (g.waitSaved.toList.map (fun n => (n, g.saved)))

/-- STREAM (R109, R113): range and plane checks, then its rows may issue. -/
def stream (p c : Nat) (s : State) : State :=
  let x := s.ctx p c
  match x.offered 2, x.task with
  | some i, some k =>
    let clash := match x.load with
      | some ip => aiMode i.w0 = 2 && aiPlane ip.ins.w0 = aiPlane i.w0
      | none => false
    if x.strm.isSome || clash then s
    else match rangeCheck (s.tile p) k i with
      | some (code, l2) => s.tileFault p c false code i.entry l2
      | none =>
        if x.planeEmpty i then s.tileFault p c false 6 i.entry (aiPlane i.w0)
        else
          let s := s.modCtx p c (fun x => { x.taken with
            strm := some { ins := i, outBase := x.outs }, outs := x.outs + i.outVecs })
          -- R151: a wait on this ring becomes visible, be it that a handler has interrupted it
          match (s.tile p).prog with
          | some g =>
            match g.awaited.find? (fun a => g.ctx = c && (s.ctx p c).deadlocked a.1) with
            | some a => s.tvuFault p c a.2 4
            | none => s
          | none => s
  | _, _ => s

/-- Task tag of the context's task. -/
def CtxSt.tag (x : CtxSt) : BitVec 32 :=
  match x.task with
  | some k => k.tag
  | none => 0

/-- Output row and column of element `j` of vector `v` (R121). -/
def ArrInstr.rowCol (i : ArrInstr) (v j : Nat) : Nat × Nat :=
  if aiOpc i.w0 = 2 && aiMode i.w0 = 1 then ((i.offM + j).toNat, (i.offN + v).toNat)
  else if aiOpc i.w0 = 4 then ((i.offM + v).toNat, 0)
  else ((i.offM + v).toNat, (i.offN + j).toNat)

/-- The stationary operands of column `j` in ascending k. -/
def Plane.column (pl : Plane) (w : Word) (j : Nat) : List El :=
  let per := perPe (aiFmtA w) (aiFmtB w)
  (List.range 64).flatMap (fun r =>
    let ops := tget [] pl.pes (64 * r + j)
    (List.range per).map (fun e => ops.getD e { v := zeroOp (statFmt w), edge := true }))

/-- The events of one row in the order of the array's steps: PE(r, c) works at step r + c of the row, and the events of one step keep
their order (R89, R112). -/
def byStep (es : List (Nat × Fl × EvAt)) : List (Fl × EvAt) :=
  (List.range 128).flatMap (fun d => (es.filter (fun e => e.1 = d)).map (·.2))

/-- One row of a WS or IS STREAM: its output vector and its events (R71, R72, R75, R89). -/
def streamRow (t : Tile) (x : CtxSt) (ip : InProg) (step : Word32) : OutVec × List (Fl × EvAt) :=
  let i := ip.ins
  let w := i.w0
  let ws := t.walk (awWalk i.w1)
  let row := markEdge (wkVector (t.rd (wkBank ws)) ws i.base1 (i.org1 + ip.next) (kWidth (aiFmtA w) (aiFmtB w)))
    (beyond i.leftK)
  let pl := x.plane (aiPlane w)
  let cols := (List.range (tgtCols w)).map (fun j =>
    let terms := ((row.zip (pl.column w j)).zipIdx).map (fun q => ((i.offK + (q.2 : Nat)).toNat, q.1.1, q.1.2))
    (j, reduce (accOf (aiFmtA w)) (aiRnd w) none terms))
  let evs := byStep (cols.flatMap (fun q => q.2.2.map (fun f =>
    let rc := i.rowCol ip.next q.1
    (((f.2 : Int) - i.offK).toNat / perPe (aiFmtA w) (aiFmtB w) + q.1, f.1,
      { task := x.tag, row := rc.1, col := rc.2, kidx := f.2, step := step }))))
  ({ ins := i, vec := ip.next, out := ip.outBase + ip.next, ring := ringSize i.w1, sums := cols.map (·.2.1) }, evs)

/-- One k-step of an OS STREAM into the plane's sums (R488). -/
def osStep (t : Tile) (x : CtxSt) (ip : InProg) (step : Word32) : Plane × List (Fl × EvAt) :=
  let i := ip.ins
  let w := i.w0
  let ww := t.walk (awWalk i.w1)
  let wn := t.walk (awWalk2 i.w1)
  let late := beyond i.leftK ip.next
  let west := markEdge (wkVector (t.rd (wkBank ww)) ww i.base1 (i.org1 + ip.next) 64) (fun r => late || beyond i.leftM r)
  let north := markEdge (wkVector (t.rd (wkBank wn)) wn i.base2 (i.org2 + ip.next) (tgtCols w))
    (fun c => late || beyond i.leftN c)
  let start := if ip.next = 0 && !aiAcc w then [] else (x.plane (aiPlane w)).sums
  let (sums, evs) := (west.zipIdx).foldl (fun (acc : Table (Word32 × Nat) × List (Nat × Fl × EvAt)) a =>
    (north.zipIdx).foldl (fun acc b =>
      let key := 64 * a.2 + b.2
      let k := (i.offK + ip.next).toNat
      let (sum, fls) := reduce (accOf (aiFmtA w)) (aiRnd w) (tlook key acc.1) [(k, a.1, b.1)]
      let at_ : EvAt := ⟨x.tag, (i.offM + a.2).toNat, (i.offN + b.2).toNat, k, step⟩
      let evs := fls.map (fun f => (a.2 + b.2, f.1, at_))
      (match sum with
        | some v => tput key v acc.1
        | none => acc.1, acc.2 ++ evs)) acc) (start, [])
  ({ st := .sums, pes := [], sums := sums }, byStep evs)

/-- The probe signals that toggle at a row of plane `q` (R249). -/
def Tile.rowSeen (t : Tile) (q : Nat) : Tile :=
  { t with
    rowTog := !t.rowTog, lastPlane := some q
    planeTog := if t.lastPlane.isSome && t.lastPlane ≠ some q then !t.planeTog else t.planeTog }

/-- ROW_ISSUE (R109, R110, R488): the next row of the STREAM in progress, once its plane is complete. -/
def rowIssue (p c : Nat) (hw : HwEvent) (s : State) : State :=
  let x := s.ctx p c
  match x.strm with
  | none => s
  | some ip =>
    let os := aiMode ip.ins.w0 = 2
    let q := aiPlane ip.ins.w0
    if !x.active || (!os && x.rowHeld ip) then s
    else s.underHw p c hw false ip.ins.entry 0
      (fun h => match h with | .opbufUe _ _ => true | .planeParity _ _ _ => true | _ => false) (fun s =>
        let t := s.tile p
        let step := Config.freeStep s.fresh
        let ip' := if ip.ins.count ≤ ip.next + 1 then none else some { ip with next := ip.next + 1 }
        let s := s.bump
        if os then
          let (pl, evs) := osStep t x ip step
          s.modTile p (fun t => ((t.modCtx c (fun x => { x.setPlane q pl with strm := ip' })).raise (arrEngine c) c evs).rowSeen q)
        else
          let (v, evs) := streamRow t x ip step
          s.modTile p (fun t => ((t.modCtx c (fun x => { x with strm := ip', flight := x.flight ++ [v] })).raise
            (arrEngine c) c evs).rowSeen q))

/-- Write the elements of an output vector in ascending j (R103, R104, R169). -/
def writeVec (t : Tile) (i : ArrInstr) (v : Nat) (sums : List (Option (Word32 × Nat))) (tag : BitVec 32)
    (step : Word32) : Tile × List (Fl × EvAt) :=
  (sums.zipIdx).foldl (fun (acc : Tile × List (Fl × EvAt)) q =>
    let e := (i.accEntry v q.2).toNat
    let (val, fl) := accumulate (accOf (aiFmtA i.w0)) (aiRnd i.w0) (aiAcc i.w0) (acc.1.acc_rd e) q.1
    let rc := i.rowCol v q.2
    let k := match q.1 with
      | some (_, k) => k
      | none => 0
    (match val with
      | some u => acc.1.acc_wr e u
      | none => acc.1,
     if fl.any then acc.2 ++ [(fl, { task := tag, row := rc.1, col := rc.2, kidx := k, step := step })] else acc.2))
    (t, [])

/-- Is a ring slot still unreleased for this vector (R105)? Every slot counts as released once a notice has ended the TVU program of
a context whose task ends. -/
def Tile.ringHeld (t : Tile) (c : Nat) (v : OutVec) : Bool :=
  let x := t.ctx c
  let ended := match t.prog with
    | some g => decide (g.ctx ≠ c)
    | none => true
  !(x.ending.isSome && ended) && x.ringWaits v

/-- OUTPUT_VECTOR_WRITTEN (R103 to R105, R149): the oldest vector in the array is written. -/
def outputVectorWritten (p c : Nat) (hw : HwEvent) (s : State) : State :=
  let x := s.ctx p c
  match x.flight with
  | [] => s
  | v :: rest =>
    if (s.tile p).ringHeld c v then s
    else s.underHw p c hw false v.ins.entry 0 (fun h => match h with | .accUe _ => true | _ => false) (fun s =>
      let step := Config.freeStep s.fresh
      let (t, evs) := writeVec (s.tile p) v.ins v.vec v.sums x.tag step
      let t := t.modCtx c (fun x => { x with flight := rest, outcnt := x.outcnt + 1 })
      (s.setTile p (t.raise (arrEngine c) c evs)).bump)

/-- DRAIN (R488): the plane's sums into accumulator memory, the sums unchanged. It takes them in its own kind (log entry 105). -/
def drain (p c : Nat) (hw : HwEvent) (s : State) : State :=
  let x := s.ctx p c
  match x.offered 3, x.task with
  | some i, some k =>
    let q := aiPlane i.w0
    if x.load.isSome || x.strm.isSome || !x.flight.isEmpty then s
    else match rangeCheck (s.tile p) k i with
      | some (code, l2) => s.tileFault p c false code i.entry l2
      | none =>
        if (x.plane q).st ≠ .sums then s.tileFault p c false 6 i.entry q
        else s.underHw p c hw false i.entry 0 (fun h => match h with | .accUe _ => true | _ => false) (fun s =>
          let step := Config.freeStep s.fresh
          let pl := x.plane q
          let (t, evs) := (List.range 64).foldl (fun (acc : Tile × List (Fl × EvAt)) r =>
            let sums := (List.range (tgtCols i.w0)).map (fun j => tlook (64 * r + j) pl.sums)
            let (t, evs) := writeVec acc.1 i r sums x.tag step
            (t, acc.2 ++ evs)) (s.tile p, [])
          let t := t.modCtx c (fun x => { x.taken with outs := x.outs + 64, outcnt := x.outcnt + 64 })
          (s.setTile p (t.raise (arrEngine c) c evs)).bump)
  | _, _ => s

/-- One pass of an MVP over k in `[lo, hi)` for vector `m` (R118): columns' sums, and the product and addition events in
ascending k, as every column reports column zero (R88, R89). -/
def mvpPass (t : Tile) (i : ArrInstr) (m lo hi : Nat) (tag : BitVec 32) (step : Word32) :
    List (Option (Word32 × Nat)) × List (Fl × EvAt) :=
  let w := i.w0
  let ws := t.walk (bits i.w1 3 0)
  let xa := amXbase i.w1 + m * amXpitch i.w1
  let ks := (List.range (hi - lo)).map (· + lo)
  let xs := ks.map (fun k => ({ v := rdElem (t.rd (amXbank i.w1)) (aiFmtA w) xa k } : El))
  let rows := ks.map (fun (k : Nat) => wkVector (t.rd (wkBank ws)) ws i.base1 (i.org1 + (k : Int)) 64)
  let cols := (List.range 64).map (fun (j : Nat) =>
    let terms := ((ks.zip xs).zip rows).map (fun q =>
      let b := q.2.getD j { v := zeroOp (aiFmtB w), edge := true }
      ((i.offK + (q.1.1 : Nat)).toNat, q.1.2, { b with edge := b.edge || beyond i.leftN j }))
    reduce (accOf (aiFmtA w)) (aiRnd w) none terms)
  let evs := ks.flatMap (fun (k : Nat) => cols.flatMap (fun q =>
    (q.2.filter (fun f => decide (f.2 = (i.offK + (k : Int)).toNat))).map (fun f =>
      (f.1, ({ task := tag, row := (i.rowCol m 0).1, col := 0, kidx := f.2, step := step } : EvAt)))))
  (cols.map (·.1), evs)

/-- The whole of an MVP instruction (R118). -/
def mvpRun (t : Tile) (i : ArrInstr) (tag : BitVec 32) (step : Word32) : Tile × List (Fl × EvAt) :=
  let kw := kWidth (aiFmtA i.w0) (aiFmtB i.w0)
  (List.range i.count).foldl (fun (acc : Tile × List (Fl × EvAt)) m =>
    (List.range (cdiv i.kCount kw)).foldl (fun acc g =>
      let (sums, evs) := mvpPass acc.1 i m (g * kw) (min ((g + 1) * kw) i.kCount) tag step
      let i' := if g = 0 then i else { i with w0 := i.w0 ||| 0x800#64 }
      let (t, evs') := writeVec acc.1 i' m sums tag step
      (t, acc.2 ++ evs ++ evs')) acc) (t, [])

/-- MVP (R118, R119): after every earlier output is written. -/
def mvp (p : Nat) (hw : HwEvent) (s : State) : State :=
  let x := s.ctx p 0
  match x.offered 4, x.task with
  | some i, some k =>
    if x.load.isSome || x.strm.isSome || !x.flight.isEmpty then s
    else match rangeCheck (s.tile p) k i with
      | some (code, l2) => s.tileFault p 0 true code i.entry l2
      | none =>
        s.underHw p 0 hw true i.entry 0
          (fun h => match h with | .accUe _ => true | .opbufUe _ _ => true | _ => false) (fun s =>
          let step := Config.freeStep s.fresh
          let (t, evs) := mvpRun (s.tile p) i x.tag step
          let t := t.modCtx 0 (fun x => { x.taken with outs := x.outs + i.count, outcnt := x.outcnt + i.count })
          (s.setTile p (t.raise .mvp 0 evs)).bump)
  | _, _ => s

/-- FENCE (R120): taken; the sequencer issues nothing until it completes. -/
def fence (p c : Nat) (s : State) : State :=
  match (s.ctx p c).offered 5 with
  | some _ => s.modCtx p c (fun x => { x with offer := none, fencing := true })
  | none => s

/-- FENCE_COMPLETE (R120): every output of every earlier instruction is written. -/
def fenceComplete (p c : Nat) (s : State) : State :=
  let x := s.ctx p c
  if x.active && x.fencing && x.strm.isNone && x.flight.isEmpty then
    s.modCtx p c (fun x => { x with fencing := false, pos := x.pos + 1 })
  else s

/-- ARRAY_NOP (R99): nothing but that the sequencer moves on. -/
def arrayNop (p c : Nat) (s : State) : State :=
  match (s.ctx p c).offered 0 with
  | some _ => s.modCtx p c CtxSt.taken
  | none => s

/-- Has the context a row in the array whose way is free: does the oldest one not await a ring slot (R105, R123)? -/
def Tile.rowMoves (t : Tile) (c : Nat) : Bool :=
  match (t.ctx c).flight with
  | v :: _ => !t.ringHeld c v
  | [] => false

/-- Has the context a beat whose way is free: one that no row holds up and whose paceline bytes have come (R111, R123, R207)? -/
def Tile.beatMoves (t : Tile) (c : Nat) : Bool :=
  let x := t.ctx c
  match x.load, x.task with
  | some ip, some k => x.active && !x.beatHeld ip && (!awSrc ip.ins.w1 || (paceBeat t x k ip.ins.w0).isSome)
  | _, _ => false

/-- Has the context a row to issue whose plane is ready? -/
def Tile.rowFeeds (t : Tile) (c : Nat) : Bool :=
  let x := t.ctx c
  match x.strm with
  | some ip => x.active && (aiMode ip.ins.w0 = 2 || !x.rowHeld ip) && (x.flight.isEmpty || t.rowMoves c)
  | none => false

/-- Does a stage of the feed (0), the array (1) or the accumulate path (2) hold a row or beat of the context that the next stage is
ready for (R123)? -/
def Tile.holds (t : Tile) (c stage : Nat) : Bool :=
  t.rowMoves c || (stage ≤ 1 && t.beatMoves c) || (stage = 0 && t.rowFeeds c)

/-- STALL (R116, R123): a fault of both halves, each of whose tasks it ends. -/
def stall (p : Nat) (stage : Nat) (s : State) : State :=
  let t := s.tile p
  if !t.holds 0 stage && !t.holds 1 stage then s
  else
    let hit (x : CtxSt) : Bool := x.active || (x.task.isSome && !x.flight.isEmpty)
    let s := if hit t.c0 then s.tileFault p 0 false 0xA stage 0 else s
    if hit t.c1 then s.tileFault p 1 false 0xA stage 0 else s

end Sys2Proof.Machine
end

