-- ==== Sys2Proof/Machine/Rs.lean ====
section
/-!
DEFINITION. The inline code of the memory channels (10: R280, R281): a shortened Reed–Solomon code over GF(2^16). Symbol 0 is the
coefficient of the highest power (log entry 111).
-/
set_option autoImplicit false
namespace Sys2Proof.Machine

abbrev Sym := BitVec 16

/-- Multiplication by α in the field built on x^16 + x^12 + x^3 + x + 1. -/
def gfDouble (a : Sym) : Sym := (a <<< 1) ^^^ (if a.getLsbD 15 then 0x100B else 0)

def gfMul (a b : Sym) : Sym :=
  (List.range 16).foldl (fun r i => gfDouble r ^^^ (if b.getLsbD (15 - i) then a else 0)) 0

/-- α to a power. -/
def gfPow (n : Nat) : Sym := (List.range n).foldl (fun r _ => gfDouble r) 1

/-- The generator, with the roots α^0 to α^3; its highest coefficient first. -/
def rsGen : List Sym :=
  (List.range 4).foldl (fun p i => List.zipWith (· ^^^ ·) (p ++ [0]) (0 :: p.map (gfMul (gfPow i)))) [1]

/-- The four check symbols of a code word: the remainder of its data. -/
def rsCheck (data : List Sym) : List Sym :=
  data.foldl (fun r d =>
    let f := d ^^^ r.headD 0
    List.zipWith (· ^^^ ·) (r.drop 1 ++ [0]) ((rsGen.drop 1).map (gfMul f))) [0, 0, 0, 0]

/-- The four syndromes of a word that differs from a code word by `errs`. -/
def syndromes (errs : List (Fin 68 × Sym)) : List Sym :=
  (List.range 4).map (fun j => errs.foldl (fun r e => r ^^^ gfMul e.2 (gfPow (j * (67 - e.1.val)))) 0)

/-- The symbol to which an error with these syndromes is confined, if there is one. -/
def locate (s : List Sym) : Option (Fin 68) :=
  (List.finRange 68).find? (fun i =>
    (List.range 4).all (fun j => decide (s.getD j 0 = gfMul (s.getD 0 0) (gfPow (j * (67 - i.val))))))

/-- What is left of an error in each data symbol. -/
def residue (errs : List (Fin 68 × Sym)) : List (Nat × Sym) :=
  (List.range 64).filterMap (fun i =>
    let e := (errs.filter (fun e => decide (e.1.val = i))).foldl (fun r e => r ^^^ e.2) 0
    if e = 0 then none else some (i, e))

/-- The decoder: what it shows, and what its data still differs by. -/
def rsDecode (errs : List (Fin 68 × Sym)) : EccResult × List (Nat × Sym) :=
  let s := syndromes errs
  if s.all (fun x => decide (x = 0)) then (.clean, residue errs)
  else match if s.headD 0 = 0 then none else locate s with
    | some i => (.corrected, residue ((i, s.headD 0) :: errs))
    | none => (.uncorrectable, [])

/-- The symbols of a code word's bytes, the first byte low (R281). -/
def symsOf (bs : List Byte) : List Sym :=
  (List.range 64).map (fun i => BitVec.ofNat 16 ((bs.getD (2 * i) 0).toNat + 256 * (bs.getD (2 * i + 1) 0).toNat))

/-- The 8 check bytes of a code word (R280). -/
def checkBytes (bs : List Byte) : List Byte := (rsCheck (symsOf bs)).flatMap (fun c => bytesOf 2 c.toNat)

/-- Bytes of a code word with a difference in its data symbols. -/
def flipBytes (res : List (Nat × Sym)) (bs : List Byte) : List Byte :=
  (bs.zipIdx).map (fun b => (res.filter (fun e => decide (e.1 = b.2 / 2))).foldl (fun (r : Byte) (e : Nat × Sym) =>
    r ^^^ BitVec.ofNat 8 (if b.2 % 2 = 0 then e.2.toNat else e.2.toNat / 256)) b.1)

end Sys2Proof.Machine
end

