-- ==== Sys2Proof/Machine/Spokes.lean ====
section
/-!
DEFINITION. Spokes and die routers (01: R12 to R31; 15: R434 to R437): route words and ports, the way of a token from the
port that sends it to the port it is ejected at, credits, and repair.
-/
set_option autoImplicit false
namespace Sys2Proof.Machine

/-! ## The map (R12) -/

/-- Ends A and B of spoke `i`, dies coded as `RW.DSTDIE`. -/
def spokeEnds (i : Nat) : Nat × Nat :=
  if i < 12 then (i / 3 * 4 + i % 3, i / 3 * 4 + i % 3 + 1)
  else if i < 24 then (i - 12, i - 8)
  else if i < 28 then (16, 4 * (i - 24))
  else if i < 32 then (4 * (i - 28) + 3, 17)
  else if i = 32 then (18, 1) else (18, 2)

/-- Sending and receiving die of direction 2i + d. -/
def dirFrom (d : Nat) : Nat := if d % 2 = 0 then (spokeEnds (d / 2)).1 else (spokeEnds (d / 2)).2
def dirTo (d : Nat) : Nat := if d % 2 = 0 then (spokeEnds (d / 2)).2 else (spokeEnds (d / 2)).1

/-- The direction from die `a` to its neighbour `b`. -/
def dirBetween (a b : Nat) : Option Nat := lowest 68 (fun d => dirFrom d = a && dirTo d = b)

/-! ## Routes (R28, R435) -/

/-- The neighbour that R28 names from a holder towards a destination, `avoid` the spokes that have failed; `sp` is the source
port, which places traffic between the rims on a row. -/
def r28 (avoid : List Nat) (h dst sp : Nat) : Nat :=
  let r := h / 4
  let c := h % 4
  let go (tr tc : Nat) : Nat := if c < tc then h + 1 else if tc < c then h - 1 else if r < tr then h + 4 else h - 4
  if h < 16 then
    if dst < 16 then go (dst / 4) (dst % 4)
    else if dst = 16 then (if c = 0 then 16 else h - 1)
    else if dst = 17 then (if c = 3 then 17 else h + 1)
    else
      let tc := if avoid.contains 32 then 2 else if avoid.contains 33 then 1 else if c ≤ 1 then 1 else 2
      if c = tc && r = 0 then 18 else go 0 tc
  else if h = 16 then (if dst < 16 then 4 * (dst / 4) else if dst = 17 then 4 * (sp % 4) else 0)
  else if h = 17 then (if dst < 16 then 4 * (dst / 4) + 3 else if dst = 16 then 4 * (sp % 4) + 3 else 3)
  else
    let c' := if dst < 16 then dst % 4 else if dst = 16 then 0 else 3
    if c' ≤ 1 then 1 else 2

/-- May traffic use a spoke, and pass through a die, under a set of obstacles? -/
def Routes.spokeOk (o : Routes) (i : Nat) : Bool := !o.spokes.contains i
def Routes.dieOk (o : Routes) (n : Nat) : Bool := !o.dies.contains n

/-- One round of distances to a destination over the spokes and dies that remain; 99 is unreachable. -/
def relax (o : Routes) (ds : List Nat) : List Nat :=
  (List.range 19).map (fun h =>
    (List.range 68).foldl (fun m d =>
      let t := dirTo d
      if dirFrom d = h && o.spokeOk (d / 2) && o.dieOk t then min m (ds.getD t 99 + 1) else m) (ds.getD h 99))

def dists (o : Routes) (dst : Nat) : List Nat :=
  (List.range 19).foldl (fun ds _ => relax o ds) ((List.range 19).map (fun h => if h = dst then 0 else 99))

/-- The neighbour of a holder towards a destination (R28, R435): the R28 one where a shortest path goes through it. -/
def Routes.next (o : Routes) (h dst sp : Nat) : Option Nat :=
  let ds := dists o dst
  let ok (n : Nat) : Bool := match dirBetween h n with
    | some d => o.spokeOk (d / 2) && o.dieOk n && decide (ds.getD n 99 < 99)
    | none => false
  let best := ds.getD h 99
  let nat := r28 o.spokes h dst sp
  let rimRow (row : Nat) : Nat := if h = 16 then 4 * row else 4 * row + 3
  if h = 18 then
    if ok nat then some nat else (if ok 1 then some 1 else if ok 2 then some 2 else none)
  else if h = 16 || h = 17 then
    let row := nat / 4
    let alt := rimRow (if row = 3 then 2 else row + 1)
    if ok nat then some nat else if ok alt then some alt else lowest 16 (fun n => ok n)
  else if o.spokes.isEmpty && o.dies.isEmpty then some nat
  else if ok nat && ds.getD nat 99 + 1 = best then some nat
  else lowest 19 (fun n => ok n && ds.getD n 99 + 1 = best)

/-! ## Tokens (R14, R19, R25) -/

def State.side (s : State) (d : Nat) : SpokeSide := tget {} s.spk.sides d
def State.modSide (s : State) (d : Nat) (f : SpokeSide → SpokeSide) : State :=
  { s with spk := { s.spk with sides := tmod {} d f s.spk.sides } }

def Token.dst (t : Token) : Nat := bits t.route 4 0
def Token.dstPort (t : Token) : Nat := bits t.route 10 5
def Token.srcDie (t : Token) : Nat := bits t.route 15 11
def Token.srcPort (t : Token) : Nat := bits t.route 21 16
def Token.cls (t : Token) : Nat := bits t.route 24 22
def Token.last (t : Token) : Bool := bit t.route 25
def Token.toggle (t : Token) : Bool := bit t.route 26
/-- Virtual channel 1 carries classes 1 and 3 (R29). -/
def Token.vc1 (t : Token) : Bool := t.cls = 1 || t.cls = 3
def Token.setToggle (t : Token) (b : Bool) : Token :=
  { t with route := (t.route &&& ~~~ (1#32 <<< 26)) ||| (if b then 1#32 <<< 26 else 0) }

/-- The route word that the die router of the source die builds (R25): `RW.TOGGLE` is each sender's, and `RW.RSVD` is zero. -/
def routeWord (dst dport src sport cls : Nat) (last : Bool) : Word32 :=
  (packF [(0, 5, dst), (5, 6, dport), (11, 5, src), (16, 6, sport), (22, 3, cls), (25, 1, b2n last)]).setWidth 32

/-- The two bits of a complete group (R14). -/
def groupVal (g : BitVec 4) : Option Nat :=
  if g = 1 then some 0 else if g = 2 then some 1 else if g = 4 then some 2 else if g = 8 then some 3 else none

/-- Do the groups of a token hold two transitions in one group (R16)? -/
def codeError (gs : List (BitVec 4)) : Bool := gs.any (fun g => 1 < popcount g)

/-- Data and route word that complete groups spell on direction `d` (R13, R14): on a field spoke 1,024 data groups, then 16 route
groups; on a keel spoke four beats of 256 data groups, the lowest pairs first, the 16 route groups after those of the first
beat (log entry 95). -/
def tokenOf (d : Nat) (gs : List (BitVec 4)) : Option (BitVec 2048 × Word32) :=
  let vs := gs.map groupVal
  if gs.length = 1040 && vs.all Option.isSome then
    let n (l : List (Option Nat)) : Nat := l.foldr (fun v a => v.getD 0 + 4 * a) 0
    let (dat, rt) :=
      if d < 64 then (vs.take 1024, vs.drop 1024) else (vs.take 256 ++ vs.drop 272, (vs.drop 256).take 16)
    some (BitVec.ofNat 2048 (n dat), BitVec.ofNat 32 (n rt))
  else none

/-! ## Ports (R26, R27) -/

/-- Is a port number reserved on a die (R26), or the die itself (R25)? -/
def portReserved (die port : Nat) : Bool :=
  if die < 16 then decide (61 ≤ port) else if die < 18 then decide (49 ≤ port) else if die = 18 then decide (6 ≤ port) else true

/-- Physical tile 52n + t of a logical tile by the tile route table that die `h` holds (R26, R434). -/
def State.placedAt (s : State) (h l : Nat) : Option Nat :=
  (tlook l (s.routesOf h).tile).map (fun t => 52 * (l / 48) + t)

/-- Is the tile at a port of a field die active in the tile map that the source die holds? -/
def State.tileActive (s : State) (h die port : Nat) : Bool :=
  (s.routesOf h).tile.any (fun x => decide (x.1 / 48 = die) && decide (x.2 = port))

/-- Does the router of die `h` refuse to inject a token (R27)? -/
def State.refuses (s : State) (h : Nat) (t : Token) : Bool :=
  portReserved t.dst t.dstPort || decide (t.cls = 7) ||
  (decide (t.dst < 16) && decide (t.dstPort < 52) && !s.tileActive h t.dst t.dstPort)

/-- The port of a logical tile as the source die `h` names it; an unplaced tile has none, and a reserved port stands for it. -/
def State.tilePort (s : State) (h l : Nat) : Nat × Nat :=
  match s.placedAt h l with
  | some p => (p / 52, p % 52)
  | none => (l / 48, 63)

/-- Destination die and port of a message that die `h` sends (R26, R236). -/
def State.msgPort (s : State) (h : Nat) : Msg → Nat × Nat
  | .grant t _ key _ _ _ =>
    if key < 0xC000 then s.tilePort h t else (key / 0x400 % 16, 52 + key % 0x400 / 48)
  | .remote t _ _ _ _ _ _ _ => s.tilePort h t
  | .block t _ _ _ _ _ _ _ _ _ => s.tilePort h t
  | .take _ _ _ _ _ => (18, 2)
  | .taken _ p _ _ _ _ => (p / 52, p % 52)

/-- Class of a message's tokens, and how many there are: a block goes as its header and its data (R25, R206; log entry 96). -/
def Msg.cls : Msg → Nat
  | .grant _ _ _ _ _ _ => 6
  | .remote _ _ _ _ _ _ _ _ => 4
  | .block _ _ _ _ _ _ _ _ _ _ => 5
  | .take _ _ _ _ _ => 0
  | .taken _ _ _ _ _ _ => 1
def Msg.tokens : Msg → Nat
  | .block _ _ _ _ _ _ d _ _ _ => 1 + cdiv d.length 256
  | _ => 1

/-- The port of the block that asked for a memory request (R26). -/
def ReqSrc.port : ReqSrc → Nat × Nat
  | .xfer p _ _ => (p / 52, p % 52)
  | .desc p _ _ => (p / 52, p % 52)
  | .region r _ => (r / 8, 52 + r % 8)
  | .peer v _ => (16 + v / 6, 40 + v % 6)
  | .line st _ _ => (16 + st / 16, 46)

/-! ## The router (R28 to R30) -/

def SpokeSide.credit (x : SpokeSide) (vc1 : Bool) : Nat := if vc1 then x.credit1 else x.credit0
def SpokeSide.spend (x : SpokeSide) (vc1 : Bool) : SpokeSide :=
  if vc1 then { x with credit1 := x.credit1 - 1 } else { x with credit0 := x.credit0 - 1 }
/-- A credit comes back; a sender never holds more than the four buffers of its receiver (R29). -/
def SpokeSide.refund (x : SpokeSide) (vc1 : Bool) : SpokeSide :=
  if vc1 then { x with credit1 := min 4 (x.credit1 + 1) } else { x with credit0 := min 4 (x.credit0 + 1) }
def SpokeSide.rx (x : SpokeSide) (vc1 : Bool) : List Token := if vc1 then x.rx1 else x.rx0
def SpokeSide.setRx (x : SpokeSide) (vc1 : Bool) (l : List Token) : SpokeSide :=
  if vc1 then { x with rx1 := l } else { x with rx0 := l }

/-- The spokes carry tokens: not in cold reset, and not in a warm reset before their wire tests (R21). -/
def State.spokesRun (s : State) : Bool := s.boot.phase ≠ .held && s.boot.phase ≠ .warm

/-- The spoke direction by which a token leaves die `n`; none when it ends there or no route exists. -/
def State.outDir (s : State) (n : Nat) (t : Token) : Option Nat :=
  if t.dst = n then none
  else match (s.routesOf n).next n t.dst t.srcPort with
    | some m => dirBetween n m
    | none => none

/-- Outputs of a die router are numbered as its inputs: a spoke direction by its number, port q of the die as 68 + q. -/
def State.outOf (s : State) (n : Nat) (t : Token) : Option Nat := if t.dst = n then some (68 + t.dstPort) else s.outDir n t

/-- Key of the port of a die in a virtual channel. -/
def injKey (n port : Nat) (vc1 : Bool) : Nat := 128 * n + 2 * port + b2n vc1

/-- The oldest token at an input of die `n` in a virtual channel. -/
def State.inHead (s : State) (n i : Nat) (vc1 : Bool) : Option Token :=
  if i < 68 then (if dirTo i = n then ((s.side i).rx vc1).head? else none) else (tget [] s.spk.inj (injKey n (i - 68) vc1)).head?

/-- Can a token be driven on a direction now (R15, R29, R436)? -/
def State.canDrive (s : State) (d : Nat) (t : Token) : Bool :=
  let x := s.side d
  s.spokesRun && x.state = 0 && x.held.isNone && 0 < x.credit t.vc1 && !s.flt.holds.contains (dirFrom d, t.dst)

/-- Can a token pass an output? A port of the die always takes it. -/
def State.canPass (s : State) (o : Nat) (t : Token) : Bool := 68 ≤ o || s.canDrive o t

/-- Drive a token: the toggle inverts for each new token (R19), and a credit is spent. -/
def State.drive (s : State) (d : Nat) (t : Token) : State :=
  s.modSide d (fun x => { x.spend t.vc1 with
    held := some { t.setToggle (!x.txToggle) with via := dirFrom d :: t.via }, onWire := true, txToggle := !x.txToggle })

/-- A token is ejected at die `n`: what it carries is the block's at its port. -/
def State.eject (s : State) (n : Nat) (t : Token) : State :=
  match t.load with
  | none => { s with spk := { s.spk with ejected := s.spk.ejected ++ [(n, t)] } }
  | some .part => s
  | some (.msg m) => { s with msgs := s.msgs ++ [m] }
  | some (.req r) => { s with mem := { s.mem with net := s.mem.net ++ [r] } }
  | some (.resp r) => { s with mem := { s.mem with resps := s.mem.resps ++ [r] } }

/-- The inputs of die `n` whose oldest token of a virtual channel wants output `o`, in order. -/
def State.wanting (s : State) (n o : Nat) (vc1 : Bool) : List Nat :=
  (List.range 132).filter (fun i => match s.inHead n i vc1 with
    | some t => decide (s.outOf n t = some o)
    | none => false)

/-- Is input `i` next in the round robin of an output (R30)? -/
def nextServed (last i : Nat) (want : List Nat) : Bool :=
  match want.find? (fun j => decide (last < j)) with
  | some j => j = i
  | none => want.head? = some i

def servedKey (n o : Nat) (vc1 : Bool) : Nat := 512 * n + 2 * o + b2n vc1

/-- Does output `o` of die `n` serve input `i` with its oldest token `t` next (R30)? Virtual channel 1 goes first whenever it has a
token and a credit, and tokens that the router holds for new tables go before both (R437). -/
def State.turn (s : State) (n o i : Nat) (t : Token) : Bool :=
  s.canPass o t &&
  (t.vc1 || (s.wanting n o true).isEmpty || (decide (o < 68) && decide ((s.side o).credit1 = 0))) &&
  nextServed (tget 0 s.spk.served (servedKey n o t.vc1)) i (s.wanting n o t.vc1) &&
  (tget [] s.spk.rerouted n).all (fun u => decide (s.outOf n u ≠ some o))

/-- A token passes an output of die `n` from input `i`. -/
def State.pass (s : State) (n o i : Nat) (t : Token) : State :=
  let s := { s with spk := { s.spk with served := tput (servedKey n o t.vc1) i s.spk.served } }
  if 68 ≤ o then s.eject n t else s.drive o t

/-- The first port of die `n` whose oldest token may pass now: its key, its output, the token. -/
def State.movable (s : State) (n : Nat) : Option (Nat × Nat × Token) :=
  s.spk.inj.findSome? (fun x => if x.1 / 128 ≠ n then none else match x.2 with
    | [] => none
    | t :: _ => match s.outOf n t with
      | none => none
      | some o => if s.turn n o (68 + x.1 % 128 / 2) t then some (x.1, o, t) else none)

/-- Move tokens of the die's own ports as far as they go. -/
def pump (n : Nat) : Nat → State → State
  | 0, s => s
  | k + 1, s => match s.movable n with
    | none => s
    | some (key, o, t) =>
      pump n k (({ s with spk := { s.spk with inj := tmod [] key (fun (l : List Token) => l.drop 1) s.spk.inj } } : State).pass n o
        (68 + key % 128 / 2) t)

def State.pumpDie (s : State) (n : Nat) : State :=
  pump n (s.spk.inj.foldl (fun a x => if x.1 / 128 = n then a + x.2.length else a) 0) s

/-- Send on the tokens that a router held for new tables, in order, as far as they go (R437). -/
def refill (n : Nat) : List Token → State → State × List Token
  | [], s => (s, [])
  | t :: rest, s =>
    match s.outOf n t with
    | some o => if s.canPass o t then refill n rest (if 68 ≤ o then s.eject n t else s.drive o t) else (s, t :: rest)
    | none => (s, t :: rest)

/-- The router of die `n` goes on: with what it held for new tables, then with its ports. -/
def State.routerGo (s : State) (n : Nat) : State :=
  let s := match tget [] s.spk.rerouted n with
    | [] => s
    | ts =>
      let r := refill n ts s
      { r.1 with spk := { r.1.spk with rerouted := tput n r.2 r.1.spk.rerouted } }
  s.pumpDie n

/-! ## Sending (R25 to R27) -/

/-- The tokens of one sending, at least one: the load with the last, which `RW.LAST` marks. Their data bits are free values (log
entry 96). -/
def tokensFor (fresh dst dport src sport cls count : Nat) (l : Load) : List Token :=
  let k := max 1 count
  (List.range k).map (fun i =>
    { route := routeWord dst dport src sport cls (decide (i + 1 = k)), data := Config.tokenData fresh i
      load := some (if i + 1 = k then l else .part) })

/-- Offer tokens to the router of die `n` at a port: one that R27 refuses is not injected. -/
def State.inject (s : State) (n port : Nat) (ts : List Token) : State :=
  match ts with
  | [] => s
  | t :: _ =>
    if s.refuses n t then s
    else
      (({ s with
        fresh := s.fresh + 1
        spk := { s.spk with inj := tmod [] (injKey n port t.vc1) (fun (l : List Token) => l ++ ts) s.spk.inj } } : State)).pumpDie n

/-- A block at a port sends a message. -/
def State.send (s : State) (n port : Nat) (m : Msg) : State :=
  let (dst, dport) := s.msgPort n m
  s.inject n port (tokensFor s.fresh dst dport n port m.cls m.tokens (.msg m))

/-- The tile on which a stream engine stands sends a message. -/
def State.sendTile (s : State) (p : Nat) (m : Msg) : State := s.send (p / 52) (p % 52) m

/-- What is under way in spokes and routers. -/
def State.flying (s : State) : List Token :=
  s.spk.inj.flatMap (·.2) ++ s.spk.rerouted.flatMap (·.2) ++ s.spk.sides.flatMap (fun x => x.2.rx0 ++ x.2.rx1 ++ x.2.held.toList)

/-- Take the load from every token under way whose load `f` names; the token itself goes on empty. -/
def State.dropLoads (s : State) (f : Load → Bool) : State :=
  let g (t : Token) : Token := match t.load with
    | some l => if f l then { t with load := some .part } else t
    | none => t
  { s with spk := { s.spk with
    inj := s.spk.inj.map (fun x => (x.1, x.2.map g))
    rerouted := s.spk.rerouted.map (fun x => (x.1, x.2.map g))
    sides := s.spk.sides.map (fun x =>
      (x.1, { x.2 with rx0 := x.2.rx0.map g, rx1 := x.2.rx1.map g, held := x.2.held.map g })) } }

/-! ## Commands -/

/-- SPOKE_TOKEN_RECEIVED (R14, R15, R16, R19): `groups` are the transitions that the receiver sees in each group for the token
that the sender has driven. Groups that spell another token than that one are not what its wires carry (log entry 95). -/
def spokeTokenReceived (d : Nat) (groups : List (BitVec 4)) (s : State) : State :=
  let x := s.side d
  if !s.spokesRun || x.state ≠ 0 || !x.onWire then s
  else if codeError groups then
    s.modSide d (fun x => { x with codeErr := satInc x.codeErr, state := 1, onWire := false, ackDue := false })
  else match x.held, tokenOf d groups with
    | some t, some g =>
      if g.1 ≠ t.data || g.2 ≠ t.route then s
      else if x.lastTog = some t.toggle then s.modSide d (fun x => { x with ack := !x.ack, ackDue := true, onWire := false })
      else if 4 ≤ (x.rx t.vc1).length then s
      else s.modSide d (fun x => { x.setRx t.vc1 (x.rx t.vc1 ++ [t]) with
        lastTog := some t.toggle, ack := !x.ack, ackDue := true, onWire := false })
    | _, _ => s

/-- ACKNOWLEDGE_TRANSITION (R15): the transition that the receiver made reaches the sender. -/
def acknowledgeTransition (d : Nat) (s : State) : State :=
  let x := s.side d
  if !s.spokesRun || x.state ≠ 0 || !x.ackDue then s
  else (s.modSide d (fun x => { x with held := none, ackDue := false })).routerGo (dirFrom d)

/-- CREDIT_RETURN (R28 to R30): the oldest token of a receive buffer moves on, or is ejected, and its buffer's credit goes back
to the sender. -/
def creditReturn (d : Nat) (vc1 : Bool) (s : State) : State :=
  let n := dirTo d
  match (s.side d).rx vc1 with
  | [] => s
  | t :: rest => match s.outOf n t with
    | none => s
    | some o =>
      if s.spokesRun && s.turn n o d t then
        ((((s.modSide d (fun x => (x.setRx vc1 rest).refund vc1)).pass n o d t).routerGo (dirFrom d)).routerGo n)
      else s

/-- STALL_DETECTED (R16, R17): a token has been driven, and some groups do not complete or its acknowledge does not come. A
transition of the acknowledge that is still under way is lost in the repair. -/
def stallDetected (d : Nat) (s : State) : State :=
  let x := s.side d
  if !s.spokesRun || x.state ≠ 0 || x.held.isNone then s
  else s.modSide d (fun x => { x with stalls := satInc x.stalls, state := 1, onWire := false, ackDue := false })

/-- The segments of a direction (R13): a keel spoke has data segments 0 and 1 only. -/
def segsOf (d : Nat) : List Nat := if d < 64 then List.range 9 else [0, 1, 8]

/-- Is a wire test a failure of direction `d` (R18)? -/
def wireFails (d : Nat) (w : WireTest) : Bool :=
  (segsOf d).any (fun g => 2 ≤ ((w.badSegs ++ w.badSpares).filter (fun x => decide (x.val = g))).length) ||
  2 ≤ w.ackBad || 2 ≤ w.cred0Bad || 2 ≤ w.cred1Bad

/-- The spare map that a wire test of direction `d` gives (R18, R22). -/
def wireMask (d : Nat) (w : WireTest) : BitVec 9 :=
  BitVec.ofNat 9 ((segsOf d).foldl (fun a g => if w.badSegs.any (fun x => decide (x.val = g)) then a + 2 ^ g else a) 0)

/-- `SPKSTAT` (R22). -/
def SpokeSide.word (x : SpokeSide) : Word :=
  packF [(0, 2, x.state.toNat), (2, 4, popcount x.segMask), (6, 9, x.segMask.toNat), (16, 16, x.stalls.toNat),
    (32, 16, x.codeErr.toNat)]

/-- Queue a change of route tables (R434). -/
def State.addSwap (s : State) (j : SwapJob) : State := { s with flt := { s.flt with swaps := s.flt.swaps ++ [j] } }

/-- The tables that will be in the foreground once every queued change is through. -/
def State.lastRoutes (s : State) : Routes := match s.flt.swaps.getLast? with
  | some j => j.bg
  | none => s.flt.routes

/-- The tokens that a sender held are its router's again (R20, step 6); that crossing did not take place. -/
def State.handBack (s : State) (d : Nat) : State :=
  let n := dirFrom d
  let ts := (s.side d).held.toList.map (fun t => { t with via := t.via.drop 1 })
  let s := { s with spk := { s.spk with rerouted := tput n (tget [] s.spk.rerouted n ++ ts) s.spk.rerouted } }
  s.modSide d (fun x => { x with held := none, onWire := false, ackDue := false })

/-- A spoke fails in both directions; its senders hand their tokens back (R18, R20, R437). -/
def State.failSpoke (s : State) (i side : Nat) : State :=
  if (s.side (2 * i)).state = 2 then s
  else
    let give (s : State) (d : Nat) : State := (s.handBack d).modSide d (fun x => { x with state := 2 })
    let s := give (give s (2 * i)) (2 * i + 1)
    let r := s.lastRoutes
    s.addSwap { bg := { r with spokes := i :: r.spokes }, tileTab := false, dieTab := true, why := .spokeFailed i side }

/-- WIRE_TEST_COMPLETE (R18, R20, R427): the direction resumes, and its sender resends the token it holds. -/
def wireTestComplete (d : Nat) (w : WireTest) (s : State) : State :=
  if !s.spokesRun || (s.side d).state ≠ 1 then s
  else if wireFails d w then s.failSpoke (d / 2) (d % 2)
  else
    let s := s.modSide d (fun x => { x with state := 0, segMask := wireMask d w, onWire := x.held.isSome })
    if wireMask d w = 0 then s
    else s.emit 0x13 false (packF [(0, 6, d / 2), (6, 1, d % 2)]) (s.side d).word 0

end Sys2Proof.Machine
end

