-- ==== Sys2Proof/Machine/Mem.lean ====
section
/-!
DEFINITION. The memory space (10): where an address lies (R282 to R285), what reading and writing it give (R286 to R292),
requests, channel queues and command slots (R293 to R311). What the keel reads and writes goes through the privileged queue and is
issued within the step of its command, so that queue is empty between steps (log entry 110).
-/
set_option autoImplicit false
namespace Sys2Proof.Machine

/-! ## Placement -/

/-- Bytes of one channel's data space (R280). -/
def chanBytes : Nat := 0xF0000000
/-- Physical key of data-space offset `off` of channel `ch` = 40m + c. -/
def memKey (ch off : Nat) : Nat := ch * chanBytes + off
/-- Device 10m + d of a channel. -/
def devOf (ch : Nat) : Nat := ch / 40 * 10 + ch % 40 / 4

def mib : Nat := 0x100000
def inMemSpace (a : Nat) : Bool := a < 0x2800000000
/-- `MRT` index 256m + e of a memory-space address (R282, R287). -/
def blockIx (a : Nat) : Nat := a / 0x1400000000 * 256 + a % 0x1400000000 / 0x14000000

/-- Device d and stripe number q of byte `b` of a block (R282). -/
def stripeOf (ilv : Bool) (b : Nat) : Nat × Nat :=
  if ilv then (b / 0x2000000, b % 0x2000000 / 4096) else (b / 4096 % 10, b / 4096 / 10)

/-- Channel 40m + c and data-space offset of byte `b` under a base (R282). -/
def spotOf (m base : Nat) (ilv : Bool) (b : Nat) : Nat × Nat :=
  let (d, q) := stripeOf ilv b
  let w := b % 4096
  let cw := w / 128
  (40 * m + 4 * d + cw % 4, base + q * 1024 + cw / 4 * 128 + w % 128)

def homeSpot (e : MrtEntry) (a : Nat) : Nat × Nat :=
  spotOf (a / 0x1400000000) (a % 0x1400000000 / 0x14000000 * (8 * mib)) e.ilv (a % 0x14000000)
def mirrorSpot (e : MrtEntry) (a : Nat) : Nat × Nat :=
  spotOf (1 - a / 0x1400000000) (2048 * mib + e.mslot.toNat * (8 * mib)) e.ilv (a % 0x14000000)

def inStore (a : Nat) : Bool := 0xF000000000 ≤ a && a < 0xF400000000

/-- Where the copies of a byte lie, the one served first at the head (R282, R285, R289). -/
def State.copiesOf (s : State) (a : Nat) : List (Nat × Nat) :=
  if inMemSpace a then
    let e := s.mrtE (blockIx a)
    homeSpot e a :: (if e.mirror then [mirrorSpot e a] else [])
  else if inStore a then
    [spotOf 0 (3328 * mib) false (a - 0xF000000000), spotOf 1 (3328 * mib) false (a - 0xF000000000)]
  else if ledgerBase ≤ a && a < ledgerEnd then
    let m := (a - ledgerBase) / 0x800000
    let b := a % 0x800000
    [spotOf m (3740 * mib) false b, spotOf (1 - m) (3740 * mib) false b]
  else []

/-! ## Bytes -/

/-- The canonical form of the listed bytes: keys strictly rising. An unlisted byte holds no defined value (R288), so that no
listed byte equals what an unlisted one reads as. -/
abbrev Memory.wf (m : Memory) : Prop := Rising m.cells

def State.devFailed (s : State) (dev : Nat) : Bool := s.mem.failed.any (fun f => decide (f.1 = dev))

/-- The port of the home rim for an address (R283). -/
def State.homePort (s : State) (a : Nat) : Nat × Nat :=
  let (d, q) := stripeOf (s.mrtE (blockIx a)).ilv (a % 0x14000000)
  (a / 0x1400000000, 4 * d + q % 4)

/-- The port that a request is sent to: of the home rim, or of the mirror rim for a read whose home device has failed (R283,
R289). -/
def State.portOf (s : State) (write : Bool) (a : Nat) : Nat × Nat :=
  let (m, p) := s.homePort a
  if !write && (s.mrtE (blockIx a)).mirror && s.devFailed (10 * m + p / 4) && !s.devFailed (10 * (1 - m) + p / 4) then (1 - m, p)
  else (m, p)

/-- Byte of a part's write data for an offset. -/
def Part.byteAt (p : Part) (off : Nat) : Option Byte :=
  match p.pieces.find? (fun c => decide (c.off ≤ off) && decide (off < c.off + c.len)) with
  | some c => p.data[c.pos + (off - c.off)]?
  | none => none

/-- The newest write held in a channel's queue for an offset (R300). -/
def MemChan.queued (c : MemChan) (off : Nat) : Option Byte :=
  c.queue.foldl (fun acc p => if p.write then (match p.byteAt off with
    | some b => some b
    | none => acc) else acc) none

/-- The keel area of a channel, and the byte of the rim's ledger window that lies at an offset of it (R282, R284, R285). -/
def inKeelArea (off : Nat) : Bool := 3740 * mib ≤ off && off < 3744 * mib
def ledgerSpot (ch off : Nat) : Nat :=
  let o := off - 3740 * mib
  (o / 1024 * 10 + ch % 40 / 4) * 4096 + (o % 1024 / 128 * 4 + ch % 4) * 128 + o % 128
def State.ledgerByte (s : State) (m b : Nat) : Byte :=
  if b < 0x800000 then (bytesOf 8 (s.ledgerWord (ledgerBase + m * 0x800000 + b / 8 * 8)).toNat).getD (b % 8) 0 else 0

/-- A stored byte; one that holds no defined value is free (R288). -/
def State.stored (s : State) (ch off : Nat) : Byte :=
  if inKeelArea off then s.ledgerByte (ch / 40) (ledgerSpot ch off)
  else match tlook (memKey ch off) s.mem.cells with
  | some b => b
  | none => Config.freeByte s.fresh (memKey ch off)

/-- A byte as a read after every acknowledged write sees it (R192, R300). -/
def State.cellAt (s : State) (ch off : Nat) : Byte :=
  match (s.mchan ch).queued off with
  | some b => b
  | none => s.stored ch off

/-- The newest write of a byte, a forwarded copy on its way to the channel included (R289). -/
def State.newest (s : State) (ch off : Nat) : Byte :=
  (s.mem.copies.filter (fun x => decide (x.1 = ch))).foldl (fun b x => (x.2.byteAt off).getD b) (s.cellAt ch off)

/-- The bytes of row `rc` of a channel (R280): data, the check bytes of its code words, zeros. -/
def State.rowByte (s : State) (ch rc i : Nat) : Byte :=
  if i < 1920 then s.stored ch (rc * 1920 + i)
  else if i < 2040 then
    (checkBytes ((List.range 128).map (fun k => s.stored ch (rc * 1920 + (i - 1920) / 8 * 128 + k)))).getD (i % 8) 0
  else 0

/-- The code words that an access at an offset reads: of a part with lossless coding, those it is stored in (R281, R292). -/
def State.codeWordsAt (s : State) (codec : Bool) (ch off : Nat) : List Nat :=
  if codec then (List.range (tget 8 s.mem.coded (memKey ch (off / 1024 * 1024)))).map (fun i => off / 1024 * 1024 + 128 * i)
  else [off / 128 * 128]

/-- Is the code word, or with lossless coding the part, at an offset uncorrectable (R290, R292)? -/
def State.badAt (s : State) (codec : Bool) (ch off : Nat) : Bool :=
  (s.codeWordsAt codec ch off).any (fun w => s.mem.bad.contains (memKey ch w))

/-- Does a write cover the whole of what it must replace (R290, R292)? -/
def Part.whole (p : Part) (codec : Bool) : Bool :=
  if codec then (p.pieces.foldl (fun a q => a + q.len) 0) = 1024 else p.pieces.all (fun q => decide (q.len = 128))

/-- Does a write replace the code word, or with lossless coding the part, at an offset whole? -/
def Part.replaces (p : Part) (codec : Bool) (off : Nat) : Bool :=
  p.write && (if codec then p.whole true && p.pieces.any (fun q => decide (q.off / 1024 = off / 1024))
    else p.pieces.any (fun q => decide (q.len = 128) && decide (q.off = off / 128 * 128)))

/-- State of one copy of a byte as a stream status: 0 sound, 1 MEM_UE, 2 MEM_LOST. -/
def State.copyStatus (s : State) (codec : Bool) (sp : Nat × Nat) : Nat :=
  if s.devFailed (devOf sp.1) then 2
  else if s.badAt codec sp.1 sp.2 && !(s.mchan sp.1).queue.any (fun p => p.replaces codec sp.2) then 1 else 0

def State.codecAt (s : State) (a : Nat) : Bool := inMemSpace a && (s.mrtE (blockIx a)).codec

/-- A byte of the memory space or the image store, served from the first sound copy (R289, R290). -/
def State.memByte (s : State) (a : Nat) : Except Nat Byte :=
  let cs := s.copiesOf a
  let cd := s.codecAt a
  match cs.find? (fun c => s.copyStatus cd c = 0) with
  | some c => .ok (s.cellAt c.1 c.2)
  | none => .error (if cs.any (fun c => s.copyStatus cd c = 1) then 1 else 2)

/-- Bytes in order, with the first failing status met, or 0. -/
def State.memRead (s : State) (a n : Nat) : Nat × List Byte :=
  (List.range n).foldl (fun (acc : Nat × List Byte) i =>
    if acc.1 ≠ 0 then acc
    else match s.memByte (a + i) with
      | .ok b => (0, acc.2 ++ [b])
      | .error e => (e, acc.2)) (0, [])

/-- Does a world reach every byte of a range by R286 and R410? 0 yes, 4 XADDR_RANGE, 3 WORLD. -/
def State.memCheck (s : State) (w : World) (a n : Nat) : Nat :=
  let last := a + n - 1
  if n = 0 then 0
  else if !inMemSpace a || !inMemSpace last then 4
  else
    let es := (List.range (last / 0x14000000 - a / 0x14000000 + 1)).map (fun i =>
      s.mrtE (blockIx ((a / 0x14000000 + i) * 0x14000000)))
    if es.any (fun e => !e.valid) then 4
    else if !w && es.any (fun e => e.world) then 3 else 0

/-! ## Device failure (R291, R439) -/

def State.setMem (s : State) (f : Memory → Memory) : State := { s with mem := f s.mem }

/-- `MRT.STATE` of an entry from the devices now failed (R287, R290). -/
def State.mrtState (s : State) (ix : Nat) (e : MrtEntry) : BitVec 2 :=
  let m := ix / 256
  let home := s.mem.failed.any (fun f => decide (f.1 / 10 = m))
  let other := s.mem.failed.any (fun f => decide (f.1 / 10 = 1 - m))
  if !e.valid then 0
  else if e.mirror then (if home || other then 1 else 0)
  else if home then 2 else 0

/-- Bring `MRT.STATE` of an entry up to date; a change emits record 0x15 (R427, R439). -/
def State.restate (s : State) (ix : Nat) : State :=
  let e := s.mrtE ix
  let st := s.mrtState ix e
  if st = e.state then s
  else
    (s.modMrt ix (fun e => { e with state := st })).emit 0x15 e.world
      (packF [(0, 1, ix / 256), (1, 8, ix % 256), (9, 2, st.toNat)]) 0 0

/-- Answer a request from the port that took it: read data on class 1, an acknowledge on class 3 (R25, R192, R283). -/
def State.memRespond (s : State) (r : MemReq) (status : Nat) (data : List Byte) : State :=
  let (m, q) := s.portOf r.write r.addr
  let (die, port) := r.src.port
  s.inject (16 + m) q (tokensFor s.fresh die port (16 + m) q (if r.write then 3 else 1) (cdiv data.length 256)
    (.resp { src := r.src, write := r.write, status := BitVec.ofNat 8 status, data := data }))

/-- The bytes of a read, put together from the pieces that have come. -/
def assemble (len : Nat) (got : List (Nat × List Byte)) : List Byte :=
  (List.range len).map (fun i =>
    match got.find? (fun g => decide (g.1 ≤ i) && decide (i < g.1 + g.2.length)) with
    | some g => g.2.getD (i - g.1) 0
    | none => 0)

/-- One awaited event of a request has come; the last one forms its response. -/
def State.partDone (s : State) (rid : Nat) (got : List (Nat × List Byte)) (status : Nat) : State :=
  match tlook rid s.mem.pend with
  | none => s
  | some p =>
    let st := if p.status = 0 then BitVec.ofNat 8 status else p.status
    let all := p.got ++ got
    if p.waits ≤ 1 then
      (s.setMem (fun m => { m with pend := tdel rid m.pend })).memRespond p.req st.toNat
        (if p.req.write then [] else if st = 0 then assemble p.req.len all else [])
    else s.setMem (fun m => { m with pend := tput rid { p with waits := p.waits - 1, got := all, status := st } m.pend })

/-- The base of an entry's area on its home and on its mirror channels. -/
def homeBase (ix : Nat) : Nat := ix % 256 * (8 * mib)
def mirrorBase (e : MrtEntry) : Nat := 2048 * mib + e.mslot.toNat * (8 * mib)

/-- A queued part whose device has failed: a home read moves to the mirror, everything else ends (R289, R290). -/
def State.rehome (s : State) (ch : Nat) (p : Part) : State :=
  let e := p.map
  let ch' := (ch + 40) % 80
  if !p.write && !p.copy && e.mirror && !s.devFailed (devOf ch') then
    s.modMchan ch' (fun c => { c with queue := c.queue ++ [{ p with
      copy := true
      pieces := p.pieces.map (fun q => { q with off := q.off - homeBase p.entry + mirrorBase e }) }] })
  else if !p.owes then s
  else s.partDone p.rid [] (if p.write && e.mirror then 0 else 2)

/-- Mark a device failed, with the cause of record 0x14; it stays failed (R291, R439). -/
def State.failDevice (s : State) (dev cause : Nat) : State :=
  if s.devFailed dev then s
  else
    let s := s.setMem (fun m => { m with failed := m.failed ++ [(dev, cause)] })
    let s := { s with keel := { s.keel with degraded := 3 } }
    let s := s.emit 0x14 false (packF [(0, 1, dev / 10), (1, 4, dev % 10), (5, 3, cause)]) 0 0
    let chs := (List.range 4).map (fun i => dev / 10 * 40 + dev % 10 * 4 + i)
    let s := chs.foldl (fun s ch =>
      let q := (s.mchan ch).queue
      let s := s.modMchan ch (fun c => { c with state := 3, queue := [], due := [] })
      q.foldl (fun s p => s.rehome ch p) s) s
    (s.mem.mrt.map (·.1)).foldl (fun s ix => s.restate ix) s

/-! ## Code words (R281, R290 to R292) -/

/-- A code word has been found uncorrectable: counted once while it stays so (R291). -/
def State.markBad (s : State) (ch off : Nat) : State :=
  let key := memKey ch (off / 128 * 128)
  if s.mem.bad.contains key then s
  else
    let dev := devOf ch
    let s := s.setMem (fun m => { m with bad := key :: m.bad, ueDev := tmod 0 dev (· + 1) m.ueDev })
    let s := s.modMchan ch (fun c => { c with ue := satInc c.ue })
    if (tget ({} : Mctl) s.mem.mctl (dev / 10)).uelim.toNat ≤ tget 0 s.mem.ueDev dev then s.failDevice dev 2 else s

def State.clearBad (s : State) (codec : Bool) (ch off : Nat) : State :=
  let lo := if codec then memKey ch (off / 1024 * 1024) else memKey ch (off / 128 * 128)
  let hi := lo + (if codec then 1024 else 128)
  s.setMem (fun m => { m with bad := m.bad.filter (fun k => k < lo || hi ≤ k) })

def memPut (k : Nat) (bs : List Byte) (m : List Host.Cell) : List Host.Cell :=
  (bs.zipIdx).foldl (fun m p => tput (k + p.2) p.1 m) m

def State.putBytes (s : State) (ch off : Nat) (bs : List Byte) : State :=
  s.setMem (fun m => { m with cells := memPut (memKey ch off) bs m.cells })

/-- Write bytes of a block; with lossless coding the part is coded afresh, and the number of its code words recorded (R292). -/
def State.store (s : State) (codec : Bool) (ch off : Nat) (bs : List Byte) : State :=
  let s := s.putBytes ch off bs
  if codec then
    let lo := off / 1024 * 1024
    let n := (Config.codedWords ((List.range 1024).map (fun i => s.stored ch (lo + i)))).val + 1
    s.setMem (fun m => { m with coded := tput (memKey ch lo) n m.coded })
  else s

/-! ## The error code (R281) -/

/-- Change a code word's data by what the decoder left of its error. -/
def State.flipWord (s : State) (ch off : Nat) (res : List (Nat × Sym)) : State :=
  if res.isEmpty || inKeelArea off then s
  else s.putBytes ch off (flipBytes res ((List.range 128).map (fun i => s.stored ch (off + i))))

/-- What the decoder does with one code word that is read: a correction is counted and the code word rewritten in place, an
uncorrectable one is found (R281, R291). -/
def State.eccWord (s : State) (ch off : Nat) (ecc : List CodeWordError) : State :=
  if s.mem.bad.contains (memKey ch off) then s
  else match ecc.find? (fun x => decide (x.chan.val = ch) && decide (x.off / 128 * 128 = off)) with
    | none => s
    | some x =>
      let r := rsDecode x.errs
      match r.1 with
      | .clean => s.flipWord ch off r.2
      | .corrected => (s.modMchan ch (fun c => { c with corr := satInc c.corr })).flipWord ch off r.2
      | .uncorrectable => s.markBad ch off

/-- The code words that an access at a spot of one copy reads. -/
def State.eccSpot (s : State) (codec : Bool) (sp : Nat × Nat) (ecc : List CodeWordError) : State :=
  if s.devFailed (devOf sp.1) then s
  else (s.codeWordsAt codec sp.1 sp.2).foldl (fun s off => s.eccWord sp.1 off ecc) s

/-- Where the other copy of a byte of a mirrored block lies. -/
def otherSpot (e : MrtEntry) (ix ch off : Nat) : Nat × Nat :=
  ((ch + 40) % 80, if ch / 40 = ix / 256 then off - homeBase ix + mirrorBase e else off - mirrorBase e + homeBase ix)

/-- Repair the code word or part at an offset from the other copy, if that is read sound (R289, R290). -/
def State.repair (s : State) (e : MrtEntry) (ix ch off : Nat) (ecc : List CodeWordError) : State × Bool :=
  let lo := if e.codec then off / 1024 * 1024 else off / 128 * 128
  let n := if e.codec then 1024 else 128
  let o := otherSpot e ix ch lo
  if !e.mirror then (s, false)
  else
    let s := s.eccSpot e.codec o ecc
    if s.copyStatus e.codec o = 0 then
      let bs := (List.range n).map (fun i => s.newest o.1 (o.2 + i))
      ((s.clearBad e.codec ch lo).store e.codec ch lo bs, true)
    else (s, false)

/-- Carry out a write part on its channel: each piece whole, or as a read-modify-write (R290, R301). -/
def State.applyWrite (s : State) (ch : Nat) (p : Part) (ecc : List CodeWordError) : State × Nat :=
  let e := p.map
  p.pieces.foldl (fun (acc : State × Nat) q =>
    let bs := (p.data.drop q.pos).take q.len
    let full := if e.codec then p.whole true else decide (q.len = 128)
    if full then ((acc.1.clearBad e.codec ch q.off).store e.codec ch q.off bs, acc.2)
    else if acc.1.badAt e.codec ch q.off then
      let r := acc.1.repair e p.entry ch q.off ecc
      if r.2 then (r.1.store e.codec ch q.off bs, acc.2) else (r.1, 1)
    else (acc.1.store e.codec ch q.off bs, acc.2)) (s, 0)

/-- Cut a range at code words: address, length, position. -/
def cutWords (a n : Nat) : List (Nat × Nat × Nat) :=
  if n = 0 then []
  else (List.range ((a + n - 1) / 128 - a / 128 + 1)).map (fun i =>
    let lo := max a ((a / 128 + i) * 128)
    let hi := min (a + n) ((a / 128 + i + 1) * 128)
    (lo, hi - lo, lo - a))

/-- Forget what the area of an entry holds on its channels (R288, R416). -/
def State.forgetArea (s : State) (ix : Nat) (e : MrtEntry) : State :=
  let areas := (List.range 40).map (fun c => memKey (40 * (ix / 256) + c) (homeBase ix)) ++
    (if e.mirror then (List.range 40).map (fun c => memKey (40 * (1 - ix / 256) + c) (mirrorBase e)) else [])
  s.setMem (fun m => { m with
    cells := areas.foldl (fun cs lo => tclear lo (lo + 8 * mib) cs) m.cells
    coded := areas.foldl (fun cs lo => tclear lo (lo + 8 * mib) cs) m.coded
    bad := m.bad.filter (fun k => areas.all (fun lo => decide (k < lo) || decide (lo + 8 * mib ≤ k))) })

/-! ## Requests and parts (R283, R289, R293, R294) -/

/-- The class of a request (R294). -/
def State.classOf (s : State) (r : MemReq) : Nat :=
  match r.src with
  | .line _ _ _ => 0
  | .desc _ _ _ => 1
  | _ => (s.mrtE (blockIx r.addr)).cls.toNat

/-- The real-time port 16m + p of a request. -/
def MemReq.rtPort (r : MemReq) : Option Nat :=
  match r.src with
  | .line st _ _ => some st
  | _ => none

/-- The parts of a request: channel, pieces and data, under a placement. -/
def State.partsOf (s : State) (r : MemReq) (rid : Nat) (copy : Bool) (spot : Nat → Nat × Nat) : List (Nat × Part) :=
  let cs := (cutWords r.addr r.len).map (fun c => (spot c.1, c.2.1, c.2.2))
  let chs := (cs.map (fun c => c.1.1)).eraseDups
  let ix := blockIx r.addr
  chs.map (fun ch => (ch, {
    rid := rid, write := r.write, copy := copy, cls := s.classOf r, port := r.rtPort, age := 0
    pieces := (cs.filter (fun c => decide (c.1.1 = ch))).map (fun c => { off := c.1.2, len := c.2.1, pos := c.2.2 })
    data := r.data, owes := true, entry := ix, map := s.mrtE ix }))

def State.hasRoom (s : State) (ch : Nat) : Bool :=
  let c := s.mchan ch
  decide (c.queue.length < 48) && c.state = 1 && !c.sref

def State.enqueue (s : State) (x : Nat × Part) : State :=
  s.modMchan x.1 (fun c => { c with queue := c.queue ++ [{ x.2 with lim := (tget ({} : Mctl) s.mem.mctl (x.1 / 40)).age.toNat }] })

/-- Take a checked request into the queues of its channels (R283, R289). `none` while a queue is full. -/
def State.takeRequest (s : State) (r : MemReq) : Option State :=
  let ix := blockIx r.addr
  let e := s.mrtE ix
  let rid := s.mem.nextId
  let hs := s.partsOf r rid false (homeSpot e)
  let ms := if e.mirror then s.partsOf r rid true (mirrorSpot e) else []
  let alive (xs : List (Nat × Part)) : Bool := !xs.isEmpty && xs.all (fun x => !s.devFailed (devOf x.1))
  let primary := if alive hs then hs else if alive ms then ms else []
  if primary.isEmpty then some (s.memRespond r 2 [])
  else if !primary.all (fun x => s.hasRoom x.1) then none
  else
    let s1 := s.setMem (fun m => { m with nextId := m.nextId + 1 })
    let parts := primary.map (fun x => (x.1, { x.2 with owes := !r.write || !x.2.whole e.codec }))
    let fwd := if r.write && alive hs && alive ms then ms else []
    let waits := (parts.filter (fun x => x.2.owes)).length + fwd.length
    let s1 := parts.foldl (fun s x => s.enqueue x) s1
    let s1 := s1.setMem (fun m => { m with copies := m.copies ++ fwd.map (fun x => (x.1, { x.2 with owes := false })) })
    if waits = 0 then some (s1.memRespond r 0 [])
    else some (s1.setMem (fun m => { m with pend := tput rid { req := r, waits := waits } m.pend }))

/-- The check of a request as it reaches its port (R286, R288, R410): the line store of a stream has the stream's own world. -/
def State.reqCheck (s : State) (r : MemReq) : Nat :=
  let k := s.memCheck r.world r.addr r.len
  if k = 0 && r.rtPort.isSome && (s.mrtE (blockIx r.addr)).world != r.world then 3 else k

/-- MEMORY_REQUEST (R283, R286, R288, R410): the oldest request for the port is checked and queued. -/
def memoryRequest (m port : Nat) (s : State) : State :=
  match s.mem.net.find? (fun r => decide (s.portOf r.write r.addr = (m, port)) || decide (s.homePort r.addr = (m, port))) with
  | none => s
  | some r =>
    let s1 := s.setMem (fun x => { x with net := x.net.erase r })
    let st := s.reqCheck r
    if st ≠ 0 then s1.memRespond r st []
    else match s1.takeRequest r with
      | some s2 => s2
      | none => s

/-- Send a memory request into the tile network, to the channel port of the home rim, or of the mirror rim (R25, R26, R283). -/
def State.sendReq (s : State) (r : MemReq) : State :=
  let (m, q) := s.portOf r.write r.addr
  let (die, port) := r.src.port
  s.inject die port (tokensFor s.fresh (16 + m) q die port (if r.write then 2 else 0) (if r.write then cdiv r.len 256 else 1) (.req r))

/-! ## Panic levels (R297, R298) -/

def RtPort.p (r : RtPort) (i : Nat) : Nat := (if i = 1 then r.p1 else if i = 2 then r.p2 else r.p3).toNat * 8192

/-- The level for a fill, from the present level (R297). -/
def RtPort.newLevel (r : RtPort) : Nat :=
  [1, 2, 3].foldl (fun a i =>
    if r.p i ≤ r.fill || (i ≤ r.level.toNat && r.p i < r.fill + 8192) then max a i else a) 0

def RtPort.relevel (r : RtPort) : RtPort :=
  let n := r.newLevel
  { r with level := BitVec.ofNat 2 n, p3cnt := if n = 3 && r.level ≠ 3 then satInc r.p3cnt else r.p3cnt }

/-- Change the fill of real-time port 16m + p. -/
def State.rtFill (s : State) (port : Nat) (f : Nat → Nat) : State :=
  s.setMem (fun m => { m with rtport := tmod ({} : RtPort) port (fun (r : RtPort) => ({ r with fill := f r.fill } : RtPort).relevel) m.rtport })

/-- The highest level that a port of a rim raises. -/
def State.rimLevel (s : State) (m : Nat) : Nat :=
  (List.range 16).foldl (fun a p => max a (tget ({} : RtPort) s.mem.rtport (16 * m + p)).level.toNat) 0

/-! ## Command slots (R295, R296, R301 to R304) -/

/-- Row index and bank of a data-space offset (R280). -/
def rowOf (off : Nat) : Nat := off / 1920
def bankOfRow (rc : Nat) : Nat := rc % 16

/-- Forced refresh of the neighbours of an activated row (R303). -/
def neighbours (rad row : Nat) : List Nat :=
  ((List.range (2 * rad + 1)).map (fun i => row + i)).filterMap (fun x =>
    if x < rad then none else if x - rad = row then none else if 131072 ≤ x - rad then none else some (x - rad))

/-- Is an activate of a bank held until an RFM has been issued: has its count reached RAAMMT (R304)? -/
def State.actHeld (s : State) (ch bank : Nat) : Bool :=
  match s.mem.raaimt with
  | some t => decide (t.2 ≤ tget 0 (s.mchan ch).raa bank)
  | none => false

/-- A refresh or RFM command lowers a bank's activation count by RAAIMT (R304; log entry 113). -/
def State.lowerRaa (s : State) (ch bank : Nat) : State :=
  match s.mem.raaimt with
  | some t => s.modMchan ch (fun c => { c with raa := tput bank (tget 0 c.raa bank - t.1) c.raa })
  | none => s

/-- An activate of row `row` of bank `bank` (R303, R304). -/
def State.activate (s : State) (ch bank row : Nat) : State :=
  let mc := tget {} s.mem.mctl (ch / 40)
  let c := s.mchan ch
  let hit := c.rows.find? (fun r => decide (r.1 = bank) && decide (r.2.1 = row))
  let lowestOf := c.rows.foldl (fun (a : Option (Nat × Nat × Nat)) r => match a with
    | none => some r
    | some b => if r.2.2 < b.2.2 then some r else some b) none
  let count := match hit with
    | some r => r.2.2 + 1
    | none => if c.rows.length < 1024 then 1 else (match lowestOf with
      | some l => l.2.2 + 1
      | none => 1)
  let trip := mc.rht.toNat ≤ count
  let new := (bank, row, if trip then 0 else count)
  let rows := match hit with
    | some r => c.rows.map (fun x => if x = r then new else x)
    | none => if c.rows.length < 1024 then c.rows ++ [new] else (match lowestOf with
      | some l =>
        let i := c.rows.findIdx (fun x => x == l)
        c.rows.set i new
      | none => c.rows)
  let due := if trip then (neighbours mc.rad.toNat row).map (fun r => Due.neighbour bank r) else []
  let raa := tget 0 c.raa bank + 1
  let rfm := match s.mem.raaimt with
    | some t => if t.1 ≤ raa && !c.due.contains (Due.rfm bank) then [Due.rfm bank] else []
    | none => []
  s.modMchan ch (fun c => { c with
    rows := rows, due := c.due ++ due ++ rfm, openRow := tput bank row c.openRow, raa := tput bank raa c.raa })

/-- Refresh commands of one full cycle of every row (log entry 25). -/
def fullCycle : Nat := 131072

/-- A refresh has been issued: tracking falls due each 64, and the activate counters are cleared each full cycle (R302, R303). -/
def MemChan.refreshed (c : MemChan) (bank : Nat) : MemChan :=
  { c with
    openRow := tdel bank c.openRow, refs := c.refs + 1
    due := if (c.refs + 1) % 64 = 0 then c.due ++ [.track] else c.due
    rows := if (c.refs + 1) % fullCycle = 0 then [] else c.rows }

/-- A due command takes the slot (R302 to R304). -/
def State.issueDue (s : State) (ch : Nat) (d : Due) : State :=
  let s := s.modMchan ch (fun c => { c with due := c.due.erase d })
  match d with
  | .refresh b => (s.modMchan ch (fun c => c.refreshed b)).lowerRaa ch b
  | .neighbour b r => (s.activate ch b r).modMchan ch (fun c => { c with openRow := tdel b c.openRow, nref := satInc c.nref })
  | .rfm b => (s.modMchan ch (fun c => { c with openRow := tdel b c.openRow, rfm := satInc c.rfm })).lowerRaa ch b
  | .track => (s.modMchan ch (fun c => { c with
      results := (c.results.set 2 (Config.freeWord s.fresh 2)).set 3 (Config.freeWord s.fresh 3) })).bump

/-- Open a row for an access: an RFM is issued first where the bank's count has reached RAAMMT (R303, R304). -/
def State.openRow (s : State) (ch rc : Nat) : State :=
  let bank := bankOfRow rc
  if tlook bank (s.mchan ch).openRow = some (rc / 16) then s
  else (if s.actHeld ch bank then s.issueDue ch (.rfm bank) else s).activate ch bank (rc / 16)

/-- The rows that a part touches. -/
def Part.rows (p : Part) : List Nat :=
  (p.pieces.flatMap (fun q => [rowOf q.off, rowOf (q.off + q.len - 1)])).eraseDups

/-- Open the rows of a part. -/
def State.openRows (s : State) (ch : Nat) (p : Part) : State := p.rows.foldl (fun s rc => s.openRow ch rc) s

/-- Code words of a part, by key offset. -/
def Part.words (p : Part) : List Nat := (p.pieces.map (fun q => q.off / 128)).eraseDups

/-- Must a part wait: a read for every write held of a code word that it covers (R300), a write for the earlier ones (R301)? -/
def MemChan.hazard (c : MemChan) (before : List Part) (p : Part) : Bool :=
  (if p.write then before else c.queue).any (fun q => q.write && q.words.any (fun w => p.words.contains w))

/-- The bank of a due command; tracking needs none. -/
def Due.bank : Due → Nat
  | .refresh b => b
  | .neighbour b _ => b
  | .rfm b => b
  | .track => 16

/-- Can a due command be issued: is its bank free, and not held? -/
def State.dueReady (s : State) (ch : Nat) (busy : List Nat) (d : Due) : Bool :=
  !busy.contains d.bank && (match d with
    | .neighbour b _ => !s.actHeld ch b
    | _ => true)

/-- A queued part with the parts queued before it. -/
def withBefore : List Part → List Part → List (Part × List Part)
  | _, [] => []
  | before, p :: rest => (p, before) :: withBefore (before ++ [p]) rest

/-- The panic level that the real-time port of a part raises to this channel: to those of its own rim (R297). -/
def State.panicOf (s : State) (ch : Nat) (p : Part) : Nat :=
  match p.port with
  | some q => if q / 16 = ch / 40 then (tget ({} : RtPort) s.mem.rtport q).level.toNat else 0
  | none => 0

/-- Is a part promoted (R296, R297)? -/
def State.promoted (s : State) (ch : Nat) (p : Part) : Bool := decide (p.lim ≤ p.age) || decide (1 ≤ s.panicOf ch p)

/-- Precedence group of R295 of a part: 2 panic, 4 promoted, 5 to 8 by class. -/
def State.groupOf (s : State) (ch : Nat) (p : Part) : Nat :=
  if s.panicOf ch p = 3 then 2 else if s.promoted ch p then 4 else 5 + p.cls

/-- Does a channel drain its writes (R293)? -/
def MemChan.drains (c : MemChan) : Bool :=
  let writes := (c.queue.filter (·.write)).length
  decide (32 ≤ writes) || !c.queue.any (fun p => !p.write) || (c.drainW && decide (8 < writes))

/-- The part that the controller issues in a slot (R293, R295, R297): groups 2 and 4 oldest first, then by class in the direction of
the present drain. -/
def State.pick (s : State) (ch : Nat) (busy : List Nat) : Option Part :=
  let c := s.mchan ch
  let lvl := s.rimLevel (ch / 40)
  let can := (withBefore [] c.queue).filterMap (fun x =>
    let p := x.1
    let held := decide (2 ≤ lvl) && decide (2 ≤ p.cls) && !s.promoted ch p
    let closed := p.rows.any (fun rc => busy.contains (bankOfRow rc) ||
      (decide (tlook (bankOfRow rc) c.openRow ≠ some (rc / 16)) && s.actHeld ch (bankOfRow rc)))
    if c.hazard x.2 p || held || closed then none else some p)
  match can.find? (fun p => s.groupOf ch p = 2) with
  | some p => some p
  | none => match can.find? (fun p => s.groupOf ch p = 4) with
    | some p => some p
    | none =>
      let pref := can.filter (fun p => p.write == c.drains)
      (if pref.isEmpty then can else pref).foldl (fun (a : Option Part) p => match a with
        | none => some p
        | some b => if p.cls < b.cls then some p else some b) none

/-- The read of a part: its bytes from this copy, or repaired from the other (R289, R290). -/
def State.readPart (s : State) (ch : Nat) (p : Part) (ecc : List CodeWordError) : State × List (Nat × List Byte) × Nat :=
  let e := p.map
  p.pieces.foldl (fun (acc : State × List (Nat × List Byte) × Nat) q =>
    let take (s : State) := (q.pos, (List.range q.len).map (fun i => s.stored ch (q.off + i)))
    if !acc.1.badAt e.codec ch q.off then (acc.1, acc.2.1 ++ [take acc.1], acc.2.2)
    else
      let r := acc.1.repair e p.entry ch q.off ecc
      if r.2 then (r.1, acc.2.1 ++ [take r.1], acc.2.2) else (r.1, acc.2.1, 1)) (s, [], 0)

/-- The code words that a part reads: those of a read, and those that a write covers in part (R281, R292, R301). -/
def State.eccSeen (s : State) (ch : Nat) (p : Part) (ecc : List CodeWordError) : State :=
  if p.map.codec then
    if p.write && p.whole true then s
    else match p.pieces with
      | [] => s
      | q :: _ => s.eccSpot true (ch, q.off) ecc
  else p.pieces.foldl (fun s q => if p.write && decide (q.len = 128) then s else s.eccSpot false (ch, q.off) ecc) s

/-- Issue one part (R293 to R301): the older parts that it passes age. -/
def State.issuePart (s : State) (ch : Nat) (p : Part) (ecc : List CodeWordError) : State :=
  let c := s.mchan ch
  let i := c.queue.findIdx (fun x => x == p)
  let queue := ((c.queue.take i).map (fun x => { x with age := x.age + 1 })) ++ c.queue.drop (i + 1)
  let s := s.modMchan ch (fun c => { c with
    queue := queue, drainW := c.drains && decide (8 < (queue.filter (·.write)).length) })
  let s := (s.openRows ch p).eccSeen ch p ecc
  if s.devFailed (devOf ch) then s.rehome ch p
  else if p.write then
    let r := s.applyWrite ch p ecc
    if p.owes then r.1.partDone p.rid [] r.2 else r.1
  else
    let r := s.readPart ch p ecc
    (r.1.partDone p.rid r.2.1 r.2.2).bump

/-- Refreshes that fall due (R302), bank after bank. -/
def MemChan.schedule (c : MemChan) (n : Nat) : MemChan :=
  { c with due := c.due ++ (List.range n).map (fun i => Due.refresh ((c.nextRef + i) % 16)), nextRef := c.nextRef + n }

/-- Postponed refresh is caught up once no port of the rim is at level 2 or above (R297). -/
def State.catchUp (s : State) (ch : Nat) : State :=
  if 2 ≤ s.rimLevel (ch / 40) || (s.mchan ch).postponed = 0 then s
  else s.modMchan ch (fun c => { c.schedule c.postponed with postponed := 0 })

/-- COMMAND_SLOT (R295). -/
def commandSlot (m c : Nat) (busy : List (Fin 16)) (ecc : List CodeWordError) (s : State) : State :=
  let ch := 40 * m + c
  let busyN := busy.map (·.val)
  if (s.mchan ch).state ≠ 1 || (s.mchan ch).sref then s
  else
    let s := s.catchUp ch
    match (s.mchan ch).due.find? (s.dueReady ch busyN) with
    | some d => s.issueDue ch d
    | none =>
      match s.pick ch busyN with
      | some p => s.issuePart ch p ecc
      | none => s

/-- MIRROR_COPY (R289, R301): the copy is held in the mirror channel's queue, and the home controller hears of it. -/
def mirrorCopy (m c : Nat) (s : State) : State :=
  let ch := 40 * m + c
  match s.mem.copies.find? (fun x => decide (x.1 = ch)) with
  | none => s
  | some x =>
    let s1 := s.setMem (fun m => { m with copies := m.copies.erase x })
    if s.devFailed (devOf ch) then s1.partDone x.2.rid [] 0
    else if !s.hasRoom ch then s
    else (s1.enqueue x).partDone x.2.rid [] 0

/-- Refresh commands that JESD209-5 allows to be postponed (log entry 25). -/
def postponeMax : Nat := 8

/-- REFRESH_DUE (R297, R302): due at once, or postponed up to the limit while a port of the rim is at level 2 or above. -/
def refreshDue (m c : Nat) (s : State) : State :=
  let ch := 40 * m + c
  let mc := s.mchan ch
  if mc.state ≠ 1 || mc.sref then s
  else if 2 ≤ s.rimLevel m && mc.postponed < postponeMax then s.modMchan ch (fun c => { c with postponed := c.postponed + 1 })
  else s.modMchan ch (fun c => c.schedule 1)

/-! ## Accesses of the keel (R254, R289 to R296, R301, R395) -/

/-- Every write held for a channel is issued, forwarded copies on their way included: what the keel writes to a code word takes
effect after them (R301). -/
def State.flush (s : State) (ch : Nat) : State :=
  let s := ((s.mchan ch).queue.filter (·.write)).foldl (fun s p => s.issuePart ch p []) s
  (s.mem.copies.filter (fun x => decide (x.1 = ch))).foldl (fun (s : State) x =>
    let s := s.setMem (fun m => { m with copies := m.copies.erase x })
    let r := (s.openRows ch x.2).applyWrite ch x.2 []
    r.1.partDone x.2.rid [] 0) s

/-- Is code word `c` of a range the first of its part there? -/
def firstOfPart (a c : Nat) : Bool := c % 4096 < 512 || c / 128 * 128 < a / 128 * 128 + 512

/-- A part of the privileged queue is issued ahead of the parts that wait, and opens its row (R295, R296, R303). -/
def State.keelPass (s : State) (ch off : Nat) (first : Bool) : State :=
  (if first then s.modMchan ch (fun c => { c with queue := c.queue.map (fun p => { p with age := p.age + 1 }) }) else s).openRow ch (rowOf off)

/-- Rewrite a copy that is uncorrectable from a sound one (R289). -/
def State.rewriteCopy (s : State) (codec : Bool) (sp g : Nat × Nat) : State :=
  let n := if codec then 1024 else 128
  let lo := sp.2 / n * n
  let glo := g.2 / n * n
  let bs := (List.range n).map (fun i => s.newest g.1 (glo + i))
  let s := s.clearBad codec sp.1 sp.2
  if inKeelArea sp.2 then s else s.store codec sp.1 lo bs

/-- A read by the keel of one code word: the first copy, and the other only where the first is uncorrectable or lost; a sound other
copy then rewrites the first (R289, R290). -/
def State.eccRead (s : State) (a : Nat) (first : Bool) (ecc : List CodeWordError) : State :=
  let codec := s.codecAt a
  let read (s : State) (sp : Nat × Nat) : State :=
    if s.devFailed (devOf sp.1) then s
    else
      let s := s.keelPass sp.1 sp.2 first
      if codec && !first then s else s.eccSpot codec sp ecc
  match s.copiesOf a with
  | [] => s
  | [h] => read s h
  | h :: g :: _ =>
    let s := read s h
    if s.copyStatus codec h = 0 then s
    else
      let s := read s g
      if s.copyStatus codec h = 1 && s.copyStatus codec g = 0 then s.rewriteCopy codec h g else s

/-- The reads of a range by the keel. -/
def State.eccRange (s : State) (a n : Nat) (ecc : List CodeWordError) : State :=
  (cutWords a n).foldl (fun s c => s.eccRead c.1 (firstOfPart a c.1) ecc) s

/-- Does a write of a range cover the code word at `c`, or with lossless coding its part, whole (R290, R292)? -/
def coversAll (codec : Bool) (a n c : Nat) : Bool :=
  if codec then
    let lo := c / 4096 * 4096 + c % 512 / 128 * 128
    a ≤ lo && lo + 3712 ≤ a + n
  else a ≤ c / 128 * 128 && c / 128 * 128 + 128 ≤ a + n

/-- The reads that a write makes of the code words that it covers in part (R301). -/
def State.eccWrite (s : State) (a n : Nat) (ecc : List CodeWordError) : State :=
  (cutWords a n).foldl (fun s c =>
    let codec := s.codecAt c.1
    if coversAll codec a n c.1 || (codec && !firstOfPart a c.1) then s
    else (s.copiesOf c.1).foldl (fun s sp => s.eccSpot codec sp ecc) s) s

/-- Write one code word's share to every copy that is not lost: 0, or the failing status. -/
def State.writeWord (s : State) (c : Nat) (full first : Bool) (data : List Byte) : State × Nat :=
  let codec := s.codecAt c
  let live := (s.copiesOf c).filter (fun sp => !s.devFailed (devOf sp.1))
  if live.isEmpty then (s, 2)
  else
    let s := live.foldl (fun s sp => (s.flush sp.1).keelPass sp.1 sp.2 first) s
    match live.find? (fun sp => decide (s.copyStatus codec sp = 0)) with
    | some g =>
      (live.foldl (fun s sp =>
        let s := if full then s.clearBad codec sp.1 sp.2
          else if s.badAt codec sp.1 sp.2 then s.rewriteCopy codec sp g else s
        s.store codec sp.1 sp.2 data) s, 0)
    | none =>
      if full then (live.foldl (fun s sp => (s.clearBad codec sp.1 sp.2).store codec sp.1 sp.2 data) s, 0) else (s, 1)

/-- Write bytes to every copy that is not lost (ISL_WRITE, ISL_STORE_WRITE, attestation reports): the state and the first failing
status. -/
def State.memWrite (s : State) (a : Nat) (bs : List Byte) : State × Nat :=
  (cutWords a bs.length).foldl (fun (acc : State × Nat) c =>
    let r := acc.1.writeWord c.1 (coversAll (acc.1.codecAt c.1) a bs.length c.1) (firstOfPart a c.1) ((bs.drop c.2.2).take c.2.1)
    (r.1, if acc.2 = 0 then r.2 else acc.2)) (s, 0)

/-- Does an access of the keel wait for a channel that is being retrained (R310)? -/
def State.memHeld (s : State) (a n : Nat) : Bool :=
  (cutWords a n).any (fun c => (s.copiesOf c.1).any (fun sp => (s.mchan sp.1).state = 2))

/-- COMMAND_TIMEOUT (R291, R439). -/
def commandTimeout (m c : Nat) (s : State) : State :=
  let ch := 40 * m + c
  if (s.mchan ch).state = 1 then s.failDevice (devOf ch) 3 else s

/-! ## Region table and thresholds (R287, R288, R298, R416) -/

/-- `MRT` as a word (R287). -/
def MrtEntry.word (e : MrtEntry) : Word :=
  packF [(0, 1, b2n e.valid), (1, 1, b2n e.world), (2, 1, b2n e.mirror), (3, 1, b2n e.ilv), (4, 2, e.cls.toNat),
    (6, 1, b2n e.codec), (8, 8, e.mslot.toNat), (16, 2, e.state.toNat)]

/-- A secure write of an entry (R288, R416). -/
def State.mrtSet (s : State) (ix : Nat) (v : Word) : State :=
  let e := s.mrtE ix
  if e.release.isSome then s
  else
    let open_ := !e.valid
    let valid := bit v 0
    let e1 := { e with
      valid := valid
      mirror := if open_ then bit v 2 else e.mirror
      ilv := if open_ then bit v 3 else e.ilv
      codec := if open_ then bit v 6 else e.codec
      mslot := if open_ && bits v 15 8 < 160 then BitVec.ofNat 8 (bits v 15 8) else e.mslot
      cls := BitVec.ofNat 2 (bits v 5 4) }
    let freeW := !e.valid && !valid
    let w := bit v 1 || (e.world && !freeW)
    let clash := s.mem.mrt.any (fun x => decide (x.1 ≠ ix) && decide (x.1 / 256 = ix / 256) &&
      (x.2.valid || x.2.release.isSome) && x.2.mirror && decide (x.2.mslot = e1.mslot))
    if e1.mirror && valid && clash then s
    else if freeW && e.world && !w then
      s.modMrt ix (fun _ => { e1 with world := true, release := some false })
    else if e.valid && !valid && e.world then
      s.modMrt ix (fun _ => { e1 with world := true, release := some true })
    else
      let s := s.modMrt ix (fun _ => { e1 with world := w })
      let s := if open_ && valid then s.forgetArea ix e1 else s
      s.restate ix

/-- MRT_WRITE (R287, R288, R416). -/
def mrtWrite (w : World) (m e : Nat) (v : Word) (s : State) : State := if w then s.mrtSet (256 * m + e) v else s

/-- RELEASE_FILL_COMPLETE (R416): the area is filled and the entry takes its new world. -/
def releaseFillComplete (m e : Nat) (s : State) : State :=
  let ix := 256 * m + e
  let x := s.mrtE ix
  match x.release with
  | none => s
  | some w => ((s.forgetArea ix x).modMrt ix (fun x => { x with release := none, world := w })).restate ix

/-- RTPORT_WRITE (R298). -/
def rtportWrite (w : World) (m p : Nat) (v : Word) (s : State) : State :=
  let p1 := bits v 5 0
  let p2 := bits v 13 8
  let p3 := bits v 21 16
  if w && 1 ≤ p1 && p1 < p2 && p2 < p3 then
    s.setMem (fun x => { x with rtport := tmod ({} : RtPort) (16 * m + p) (fun (r : RtPort) =>
      ({ r with p1 := BitVec.ofNat 6 p1, p2 := BitVec.ofNat 6 p2, p3 := BitVec.ofNat 6 p3 } : RtPort).relevel) x.rtport })
  else s

/-- `RTPORT` as a word (R298). -/
def RtPort.word (r : RtPort) : Word :=
  packF [(0, 6, r.p1.toNat), (8, 6, r.p2.toNat), (16, 6, r.p3.toNat), (24, 2, r.level.toNat), (32, 10, r.fill / 1024),
    (48, 16, r.p3cnt.toNat)]

/-- `MCTL` as a word (R305). -/
def Mctl.word (c : Mctl) : Word :=
  packF [(0, 10, c.age.toNat), (16, 15, c.rht.toNat), (32, 2, c.rad.toNat), (40, 8, c.uelim.toNat)]

/-- `MEMSTAT` as a word (R311). -/
def MemChan.word (c : MemChan) : Word :=
  packF [(0, 2, c.state.toNat), (2, 1, b2n c.drift), (3, 1, b2n c.sref), (8, 16, c.corr.toNat), (24, 8, c.ue.toNat),
    (32, 16, c.nref.toNat), (48, 16, c.rfm.toNat)]

/-! ## Training (R307, R310) -/

/-- Training results in the layout of R308, whose reserved bits are zero (R8). -/
def trainResults (ws : List Word) : List Word :=
  (ws.take 8).zipIdx.map (fun w => if w.2 = 6 then BitVec.ofNat 64 (bits w.1 39 0) else if w.2 = 7 then 0 else w.1)

/-- TRAINING_COMPLETE (R291, R307, R310): the training of a channel ends; a command completes with its last channel. -/
def trainingComplete (m c : Nat) (ok : Bool) (results : List Word) (s : State) : State :=
  let ch := 40 * m + c
  let mc := s.mchan ch
  let first := (mc.state = 0 || mc.state = 3) && s.boot.phase = .training && !s.boot.trained.contains ch
  if !first && mc.state ≠ 2 && mc.cmds.isEmpty then s
  else
    let s := if first then { s with boot := { s.boot with trained := ch :: s.boot.trained } } else s
    let s := s.modMchan ch (fun c =>
      if c.state = 3 then { c with cmds := [] }
      else { c with state := if ok then 1 else c.state, results := if ok then trainResults results else c.results, cmds := [] })
    let s := if ok || mc.state = 3 then s else s.failDevice (devOf ch) 1
    mc.cmds.foldl (fun s i => if s.mem.chans.any (fun x => x.2.cmds.contains i) then s else s.complete i { status := stOK }) s

end Sys2Proof.Machine
end

