-- ==== Sys2Proof/Machine/Issue.lean ====
section
/-!
DEFINITION. The issue check (R178 to R184, R188): form, shape and capacity stages over a task descriptor and
the tables it points to.
-/
set_option autoImplicit false
namespace Sys2Proof.Machine

/-- The first index below `n` that fails. -/
def firstBad (n : Nat) (f : Nat → Bool) : Option Nat := lowest n f

/-! ## Form: the descriptor itself (R179, sections 0x1 to 0x6) -/

/-- Section 0x1. -/
def headerBad (s : State) (k : Task) : Bool :=
  let half := k.half
  let h1 := decide (k.ctxCode = 2)
  k.f 0 63 52 ≠ 0 || k.f 3 63 63 ≠ 0 || k.f 4 63 57 ≠ 0 || k.f 5 63 40 ≠ 0 || k.f 6 63 40 ≠ 0 || k.f 7 63 40 ≠ 0 ||
  k.ctxCode = 3 || k.pass = 3 || 10 < k.f 0 51 48 || 767 < k.logical || k.aBase % 64 ≠ 0 || k.bBase % 64 ≠ 0 ||
  8 < k.nreg || 16 < k.nstr || k.seqN = 0 || 256 < k.seqN || 4096 < k.nxfer || 4096 < k.tvuWords ||
  16 < k.f 4 29 25 || 16 < k.f 4 34 30 ||
  (half && (decide (32768 ≤ k.accBase) ≠ h1 || decide (2048 ≤ k.tvuBase) ≠ h1 || 128 < k.seqN)) ||
  (s.placed k.logical).isNone

/-- Section 0x2. -/
def levelBad (k : Task) (l : Nat) : Bool :=
  let first := if l < 3 then 0 else 3
  k.f (8 + l) 7 2 ≠ 0 || k.f (8 + l) 63 40 ≠ 0 || k.lvDim l = 3 ||
  (List.range 6).any (fun j => decide (first ≤ j) && decide (j < l) && decide (k.lvDim j = k.lvDim l))

/-- The bank that a half owns (R114). -/
def Task.otherBank (k : Task) (bank : Nat) : Bool := k.half && bank ≠ k.ctxNum

/-- Section 0x3. -/
def regionBad (k : Task) (i : Nat) : Bool :=
  let r := k.rg i
  if k.nreg ≤ i then r ≠ 0
  else bits r 7 4 ≠ 0 || bits r 63 51 ≠ 0 || (bits r 3 2 ≠ 3 && bits r 31 8 ≠ 0) || k.otherBank (bits r 0 0)

/-- Section 0x4. -/
def bufferBad (k : Task) (i : Nat) : Bool :=
  let b := k.sb i
  let r := bits b 7 4
  if k.nstr ≤ i then b ≠ 0
  else
    bit b 3 || bits b 63 27 ≠ 0 || (8 ≤ r && r ≠ 15) ||
    (r ≠ 15 && (k.nreg ≤ r || bits (k.rg r) 0 0 ≠ bits b 2 2 || bits b 26 8 ≠ 0)) ||
    (bits b 1 0 = 2 && (List.range i).any (fun j => decide (bits (k.sb j) 1 0 = 2))) ||
    (r = 15 && k.otherBank (bits b 2 2))

/-- The four words of walk slot `i`. -/
def Task.slot (k : Task) (i : Nat) : List Word := (List.range 4).map (fun j => k.w (38 + 4 * i + j))
def Task.slotUsed (k : Task) (i : Nat) : Bool := (k.slot i).any (· ≠ 0)
/-- Does a half own this slot (R114)? -/
def Task.ownsSlot (k : Task) (i : Nat) : Bool := !k.half || decide (i / 8 = k.ctxNum)

/-- Section 0x5 (R106, R108). -/
def walkBad (k : Task) (i : Nat) : Bool :=
  let w := k.slot i
  let fmt := wkFmt w
  k.slotUsed i &&
  (!k.ownsSlot i || wk w 0 7 5 ≠ 0 || wk w 0 63 57 ≠ 0 || wk w 1 31 16 ≠ 0 || wk w 2 63 57 ≠ 0 || wk w 3 63 32 ≠ 0 ||
   8 < fmt || wkCh w = 0 || 128 < wkCh w || wkNtx w = 0 || wkNty w = 0 || wk w 0 44 41 = 0 || wk w 0 48 45 = 0 ||
   wk w 0 52 49 = 0 || wk w 0 56 53 = 0 || wkIw w = 0 || wkIh w = 0 ||
   (is4 fmt && (wkCh w % 2 ≠ 0 || wkEstride w ≠ 0)) ||
   (fmt = 3 && (wkCh w % 16 ≠ 0 || wkEstride w ≠ 0)) || k.otherBank (wkBank w))

/-- Section 0x6: an unused row must be zero, and reserved fields. -/
def modRowBad (k : Task) (i : Nat) : Bool :=
  if i < 16 then !k.slotUsed i && (List.range 7).any (fun j => k.w (102 + 7 * i + j) ≠ 0)
  else k.f 217 63 32 ≠ 0

/-! ## Form: the transfer table (R187, R188, section 0x7) -/

def xf (x : List Word) (i hi lo : Nat) : Nat := bits (x.getD i 0) hi lo
def xfKind (x : List Word) : Nat := xf x 0 3 0
def xfSb (x : List Word) : Nat := xf x 0 7 4
def xfXr (x : List Word) : Nat := xf x 0 9 8
def xfXuse (x : List Word) : Bool := xf x 0 10 10 = 1
def xfGuard (x : List Word) : Bool := xf x 0 11 11 = 1
def xfNext (x : List Word) : Bool := xf x 0 12 12 = 1
def xfFwd (x : List Word) : Bool := xf x 0 13 13 = 1
def xfLen (x : List Word) : Nat := xf x 0 34 16 + 1
def xfLoff (x : List Word) : Nat := xf x 0 54 36
def xfRows (x : List Word) : Nat := xf x 2 15 0 + 1
def xfKey (x : List Word) : Nat := xf x 1 31 16
/-- Kinds that move rows: READ, WRITE, PEER. -/
def xfRowKind (k : Nat) : Bool := k = 0 || k = 1 || k = 4

/-- Is a record kind allowed (R186)? -/
def sbAllowed (kind : Nat) (fwd : Bool) (rec : Nat) : Bool :=
  if kind = 0 then rec = 0
  else if kind = 3 then (if fwd then rec = 2 else rec = 0 || rec = 1)
  else if kind = 6 then rec = 3
  else if kind = 7 then rec = 2
  else rec = 1

/-- The bits of word 1 that a kind does not use (R187). -/
def xfUnused1 (kind : Nat) (fwd : Bool) (x : List Word) : Bool :=
  match kind with
  | 0 => xf x 1 63 40 ≠ 0
  | 1 => xf x 1 63 40 ≠ 0
  | 2 => xf x 1 63 51 ≠ 0
  | 3 => if fwd then x.getD 1 0 ≠ 0 else xf x 1 63 32 ≠ 0
  | 4 => xf x 1 63 44 ≠ 0
  | 5 => xf x 1 63 12 ≠ 0
  | 6 => xf x 1 63 32 ≠ 0 || xf x 1 15 12 ≠ 0
  | _ => xf x 1 63 44 ≠ 0 || xf x 1 15 12 ≠ 0

def tileBad (x : List Word) (lo : Nat) : Bool := 767 < xf x 1 (lo + 9) lo || xf x 1 (lo + 11) (lo + 10) = 3

/-- The checks of one descriptor (R188). -/
def xferBad (k : Task) (x : List Word) : Bool :=
  let kind := xfKind x
  let fwd := xfFwd x
  let bare := kind = 5 || kind = 7 || (kind = 3 && fwd)
  7 < kind || xf x 0 15 14 ≠ 0 || xf x 0 35 35 ≠ 0 || xf x 0 63 55 ≠ 0 || x.getD 7 0 ≠ 0 ||
  (fwd && kind ≠ 3) || (xfXuse x && !xfRowKind kind) || xfUnused1 kind fwd x ||
  (!xfRowKind kind && (x.getD 2 0 ≠ 0 || x.getD 3 0 ≠ 0 || x.getD 4 0 ≠ 0 || x.getD 5 0 ≠ 0 || xf x 6 63 32 ≠ 0)) ||
  (bare && (xfLen x ≠ 1 || xfLoff x ≠ 0 || xf x 6 31 0 ≠ 0)) ||
  (if kind = 5 then xfSb x ≠ 0 else k.nstr ≤ xfSb x || !sbAllowed kind fwd (bits (k.sb (xfSb x)) 1 0)) ||
  (kind = 4 && 11 < xf x 1 43 40) ||
  (kind = 2 && tileBad x 0) || (kind = 6 && xfKey x < 0xC000 && tileBad x 0) ||
  (kind = 7 && (tileBad x 0 || tileBad x 32))

/-- Section 0x7: each descriptor in ascending index, then the table as a whole (R188). -/
def xferTableBad (k : Task) (xs : List (List Word)) : Option Nat :=
  match xs.findIdx? (xferBad k) with
  | some i => some i
  | none =>
    let prings := (xs.zipIdx).filterMap (fun x => if xfKind x.1 = 7 then some x.2 else none)
    if 1 < prings.length then prings[1]?
    else if !prings.isEmpty then none
    else match xs.findIdx? (fun x => xfKind x = 3) with
      | some i => some i
      | none => if (List.range k.nstr).any (fun i => bits (k.sb i) 1 0 = 2) then some k.nxfer else none

/-! ## Form: the sequencer table (R70, R98, R102, R119, R175, R177, section 0x8) -/

def sqKind (e : List Word) : Nat := bits (e.getD 0 0) 3 0
def sqMod (e : List Word) : Bool := bit (e.getD 0 0) 4
def sqClip (e : List Word) : Bool := bit (e.getD 0 0) 5
def sqLevel (e : List Word) : Nat := bits (e.getD 0 0) 8 6
def sqTarget (e : List Word) : Nat := bits (e.getD 0 0) 16 9
def sqCond (e : List Word) : Nat := bits (e.getD 0 0) 19 17
def sqArg (e : List Word) : Nat := bits (e.getD 0 0) 31 20
def sqKoff (e : List Word) : Nat := bits (e.getD 0 0) 47 32

/-- A walk that an instruction names and that does not deliver `fmt` (R102), or that the task does not hold. -/
def walkWrong (k : Task) (slot fmt : Nat) : Bool :=
  !k.ownsSlot slot || !k.slotUsed slot || wkFmt (k.slot slot) ≠ fmt

/-- The array instruction of an entry is refused (R70, R98 to R102, R114, R119, R165). A field that an opcode does not use, `AI.TRANS`
and `AW.SRC` among them, counts as reserved there (log entry 102). -/
def instrBad (k : Task) (w w1 : Word) : Bool :=
  let opc := aiOpc w
  let mode := aiMode w
  let ab8 := aiFmtA w = 3 || aiFmtB w = 3
  let acc := awRow w1 ≠ 0 || awCol w1 ≠ 0 || awRing w1 ≠ 0
  5 < opc || bits w 23 20 ≠ 0 || 8 < aiFmtA w || 8 < aiFmtB w || aiTgt w ≠ k.ctxCode || mode = 3 ||
  (opc ≠ 2 && opc ≠ 4 && bits w 47 24 ≠ 0) || (opc ≠ 1 && aiTrans w) ||
  !pairOk (aiFmtA w) (aiFmtB w) ||
  (if opc = 0 || opc = 5 then w1 ≠ 0
   else
     (if opc = 4 then
        bits w1 7 5 ≠ 0 || bits w1 63 58 ≠ 0 || k.half || ab8 || walkWrong k (awWalk w1) (aiFmtB w)
      else
        bits w1 15 9 ≠ 0 || bits w1 63 52 ≠ 0 || 10 < awRing w1 || (mode = 2 && ab8) ||
        (if opc = 1 then
           acc || awWalk2 w1 ≠ 0 || mode = 2 || (statFmt w = 3 && !aiTrans w) ||
           (!awSrc w1 && walkWrong k (awWalk w1) (statFmt w))
         else if opc = 3 then awWalk w1 ≠ 0 || awWalk2 w1 ≠ 0 || awSrc w1 || awRing w1 ≠ 0
         else
           awSrc w1 || mode ≠ k.pass || (awRing w1 ≠ 0 && aiAcc w) ||
           (if mode = 2 then acc || walkWrong k (awWalk w1) (aiFmtA w) || walkWrong k (awWalk2 w1) (aiFmtB w)
            else awWalk2 w1 ≠ 0 || walkWrong k (awWalk w1) (strmFmt w)))))

/-- The fields of one entry (R175, R179). -/
def entryBad (k : Task) (q : Nat) (e : List Word) : Bool :=
  let kind := sqKind e
  let c := e.getD 0 0
  5 < kind || bits c 63 48 ≠ 0 ||
  (kind ≠ 0 && (sqMod e || sqClip e || sqKoff e ≠ 0 || e.getD 1 0 ≠ 0 || e.getD 2 0 ≠ 0)) ||
  (kind ≠ 3 && (sqLevel e ≠ 0 || sqTarget e ≠ 0)) || (kind = 3 && (5 < sqLevel e || q < sqTarget e)) ||
  (kind ≠ 4 && sqCond e ≠ 0) || 1 < sqCond e ||
  ((kind = 0 || kind = 3 || kind = 5) && sqArg e ≠ 0) ||
  ((kind = 2 || (kind = 4 && sqCond e = 0)) && k.nxfer ≤ sqArg e) ||
  (kind = 1 && (sqArg e < k.tvuBase || k.tvuBase + k.tvuWords ≤ sqArg e)) ||
  (kind = 0 && instrBad k (e.getD 1 0) (e.getD 2 0))

/-- The structure of R177 as it fails at entry `q`: loop `a` stands there, `b` is an earlier one; their bodies overlap when that of
`a` begins below `b`. -/
def structBad (k : Task) (es : List (List Word)) (q : Nat) : Bool :=
  let loops := (es.zipIdx).filterMap (fun x =>
    if sqKind x.1 = 3 then some (x.2, sqTarget x.1, sqLevel x.1) else none)
  let last := es.length - 1
  let atLoop := loops.any (fun a => decide (a.1 = q) && loops.any (fun b =>
    (decide (b.1 < q) && decide (b.2.2 = a.2.2)) ||
    (decide (b.1 < q) && ((decide (a.2.1 < b.1) && decide (b.2.1 < a.2.1)) || (decide (a.2.1 ≤ b.1) && decide (b.2.2 ≤ a.2.2))))))
  let isEnd := sqKind (es.getD q []) = 5
  atLoop || (isEnd ≠ decide (q = last)) ||
  (q = last && (List.range 6).any (fun l => decide (1 < k.cnt l) && !loops.any (fun a => decide (a.2.2 = l))))

/-! ## Form: the TVU words (section 0x9) -/

/-- The vector registers that a word names (R490). -/
def vecRegs (w : Word32) : List Nat :=
  let o := bits w 31 26
  let vd := bits w 25 21
  let va := bits w 20 16
  let vb := bits w 15 11
  if o = 0x18 || o = 0x19 then [vd]
  else if o = 0x26 then [va, vb]
  else if (0x20 ≤ o && o ≤ 0x27) || o = 0x3B then [vd, va, vb]
  else if (0x28 ≤ o && o ≤ 0x2A) || (0x30 ≤ o && o ≤ 0x33) || (0x38 ≤ o && o ≤ 0x3C) then [vd, va]
  else if o = 0x3D then [vd] else []

def tvuWordBad (k : Task) (w : Word32) : Bool :=
  (vecRegs w).any (fun n => if n < 16 then decide (k.f 4 29 25 ≤ n) else decide (k.f 4 34 30 ≤ n - 16))

/-! ## Shape (R108, R165, R180, R181) -/

/-- The number of elements of a vector that an instruction takes from a slot it names (R108). -/
def useLimit (w w1 : Word) (slot : Nat) : Option Nat :=
  let opc := aiOpc w
  let kw := kWidth (aiFmtA w) (aiFmtB w)
  if opc = 4 && awWalk w1 = slot then some 64
  else if opc = 1 && !awSrc w1 && awWalk w1 = slot then
    some (if aiTrans w then kw else tgtCols w * perPe (aiFmtA w) (aiFmtB w))
  else if opc = 2 && (awWalk w1 = slot || (aiMode w = 2 && awWalk2 w1 = slot)) then some kw
  else none

def walkShapeBad (k : Task) (es : List (List Word)) (i : Nat) : Bool :=
  k.slotUsed i && es.any (fun e => decide (sqKind e = 0) &&
    (match useLimit (e.getD 1 0) (e.getD 2 0) i with
      | some n => decide (n < wkElems (k.slot i))
      | none => false))

/-- The limit of R165 on the inner tile of a dimension. -/
def innerLimit (k : Task) (d : Nat) : Option Nat :=
  if k.pass = 0 then (if d = 1 then some k.nw else none)
  else if k.pass = 1 then (if d = 0 then some k.nw else none)
  else if d = 0 then some 64 else if d = 1 then some k.nw else none

/-- The shape stage: section code and index of the first failure, in section order. -/
def shapeBad (k : Task) (safe : Bool) (es : List (List Word)) : Option (Nat × Nat) :=
  let hdr := (List.range 3).any (fun d => k.ext d = 0) ||
    (k.f 0 51 48 ≠ 0 && (List.range 6).any (fun l => decide (k.lvDim l = 2) && decide (1 < k.cnt l))) ||
    (safe && (k.half || (List.range 3).any (fun d => k.ext d % 64 ≠ 0)))
  let lv := firstBad 6 (fun l =>
    let t := k.lvTile l
    let whole := if l < 3 then k.ext (k.lvDim l) else k.ot (k.lvDim l)
    t = 0 || (3 ≤ l && (match innerLimit k (k.lvDim l) with
      | some n => decide (n < t)
      | none => false)) || (safe && (t % 64 ≠ 0 || whole % t ≠ 0)))
  let rgn := firstBad k.nreg (fun i =>
    let r := k.rg i
    bits r 50 32 = 0 || (bits r 3 2 = 3 && bits r 31 8 = 0) || (safe && (bits r 50 32 % 64 ≠ 0 || bits r 31 8 % 64 ≠ 0)))
  let wlk := firstBad 16 (fun i =>
    let w := k.slot i
    walkShapeBad k es i || (safe && k.slotUsed i && (wkCh w % 64 ≠ 0 || wkIw w % 64 ≠ 0 || wkOw w % 64 ≠ 0)))
  if hdr then some (1, 0)
  else match lv, rgn, wlk with
    | some i, _, _ => some (2, i)
    | none, some i, _ => some (3, i)
    | none, none, some i => some (5, i)
    | none, none, none => none

/-! ## Capacity (R182) -/

/-- Code, needed and available amount of each resource, in the order of R182. -/
def capacities (k : Task) : List (Nat × Nat × Nat) :=
  let h0 := k.ctxCode = 1
  [(1, k.bankLen 0, 524288 - k.aBase), (2, k.bankLen 1, 524288 - k.bBase),
   (3, k.accLen, (if h0 then 32768 else 65536) - k.accBase), (4, k.f 4 34 30, 16), (5, k.f 4 29 25, 16),
   (6, k.tvuWords, (if h0 then 2048 else 4096) - k.tvuBase), (7, k.nstr, if k.half then 8 else 16)]

/-! ## The check as a whole -/

/-- A reply that refuses the task (R178, R184, R381). -/
def refuseTask (stage code index : Nat) (st : BitVec 8) (need avail : Nat) : Reply :=
  { status := st
    det0 := packF [(0, 2, stage), (8, 8, code), (16, 16, index)]
    det1 := packF [(0, 32, min need 0xFFFFFFFF), (32, 32, avail)] }

def formFail (code index : Nat) : Reply := refuseTask 1 code index stPARAM 0 0

/-- A read of the keel under the task's world (R178): the bytes, or the refusal. -/
def issueRead (ecc : List CodeWordError) (s : State) (w : World) (code a n : Nat) : State × Except Reply (List Byte) :=
  if n = 0 then (s, .ok [])
  else if s.memCheck w a n ≠ 0 then (s, .error (formFail code 0))
  else
    let s := s.eccRange a n ecc
    match s.memRead a n with
    | (0, bs) => (s, .ok bs)
    | (e, _) => (s, .error {
        status := if e = 2 then stLOST else stFAULT
        det0 := packF [(16, 8, e)] })

def words32OfBytes (bs : List Byte) : List Word32 :=
  (chunks 4 bs.length bs).map (fun b => BitVec.ofNat 32 (natOfBytes b))

/-- The sections of the descriptor itself, in order: the first that is not well formed, with its index (R178). -/
def descBad (s : State) (k : Task) : Option (Nat × Nat) :=
  if headerBad s k then some (1, 0)
  else match firstBad 6 (levelBad k) with
  | some i => some (2, i)
  | none => match firstBad 8 (regionBad k) with
  | some i => some (3, i)
  | none => match firstBad 16 (bufferBad k) with
  | some i => some (4, i)
  | none => match firstBad 16 (walkBad k) with
  | some i => some (5, i)
  | none => (firstBad 17 (modRowBad k)).map (fun i => (6, i))

/-- The checks of shape and capacity, and the task with its tables (R178). -/
def issueEnd (s : State) (k : Task) (xb : List Byte) (xs es : List (List Word)) (qw : List Word) (tw : List Word32) :
    Except Reply Task :=
  match shapeBad k (bit (k.w 0) 46 || s.keel.dstate = .safe) es with
  | some (c, i) => .error (refuseTask 2 c i stSHAPE 0 0)
  | none =>
  match (capacities k).find? (fun c => decide (0 < c.2.1) && decide (c.2.2 < c.2.1)) with
  | some c => .error (refuseTask 3 c.1 0 stCAPACITY c.2.1 c.2.2)
  | none =>
    let pring := xs.findIdx? (fun x => xfKind x = 7)
    let ringKeys := if xs.any (fun x => xfKind x = 3) then (match pring with
      | some i => [xfKey (xs.getD i [])]
      | none => []) else []
    .ok { k with
      seqTab := qw, tvuTab := tw
      groups := (chunks 4096 k.nxfer xb).map Config.groupCheck
      keys := ((xs.filter (fun x => xfKind x = 2)).map xfKey ++ ringKeys).eraseDups
      pring := pring }

/-- The issue check of a descriptor: the task with its tables, or the refusal (R178). -/
def issueCheck (ecc : List CodeWordError) (s : State) (k : Task) : State × Except Reply Task :=
  match descBad s k with
  | some (c, i) => (s, .error (formFail c i))
  | none =>
  match issueRead ecc s k.world 7 (k.f 7 39 0) (64 * k.nxfer) with
  | (s, .error r) => (s, .error r)
  | (s, .ok xb) =>
  let xs := chunks 8 k.nxfer (wordsOfBytes xb)
  match xferTableBad k xs with
  | some i => (s, .error (formFail 7 i))
  | none =>
  match issueRead ecc s k.world 8 (k.f 5 39 0) (24 * k.seqN) with
  | (s, .error r) => (s, .error r)
  | (s, .ok qb) =>
  let qw := wordsOfBytes qb
  let es := chunks 3 k.seqN qw
  match firstBad k.seqN (fun q => entryBad k q (es.getD q []) || structBad k es q) with
  | some i => (s, .error (formFail 8 i))
  | none =>
  match issueRead ecc s k.world 9 (k.f 6 39 0) (4 * k.tvuWords) with
  | (s, .error r) => (s, .error r)
  | (s, .ok tb) =>
  let tw := words32OfBytes tb
  match tw.findIdx? (tvuWordBad k) with
  | some i => (s, .error (formFail 9 i))
  | none => (s, issueEnd s k xb xs es qw tw)

end Sys2Proof.Machine
end

