-- ==== Sys2Proof/Machine/Seq.lean ====
section
/-!
DEFINITION. The start of a task and the sequencer (06): R160, R161, R115, R166, R168, R175, R176.
-/
set_option autoImplicit false
namespace Sys2Proof.Machine

/-! ## Start of a task -/

/-- Two tasks overlap when they need a context in common (R161). -/
def Task.overlaps (a b : Task) : Bool := !a.half || !b.half || a.ctxCode = b.ctxCode

/-- May a task start on its physical tile now (R115)? -/
def Tile.canStart (t : Tile) (k : Task) : Bool :=
  if !k.half then t.c0.task.isNone && t.c1.task.isNone
  else if t.split then (t.ctx k.ctxNum).task.isNone
  else t.c0.task.isNone && t.c1.task.isNone

/-- The first task of a start queue that may start (R161). -/
def firstStart (t : Tile) : List Task → List Task → Option Task
  | _, [] => none
  | before, k :: rest =>
    if t.canStart k && !before.any (fun b => b.overlaps k) then some k else firstStart t (before ++ [k]) rest

/-- The planes become empty and the array's mode changes (R113, R115). -/
def Tile.setSplit (t : Tile) (v : Bool) : Tile :=
  if t.split = v then t
  else
    let e (x : CtxSt) : CtxSt := { x with plane0 := {}, plane1 := {} }
    { t with split := v, c0 := e t.c0, c1 := e t.c1 }

/-- Parity of a sequencer entry, written into `SQ.PAR` at the start (R175; log entry 11). -/
def entryParity (ws : List Word) : Bool := (ws.foldl (fun a w => a + popcount w) 0) % 2 = 1

/-- Write the task's sequencer entries, walk slots and TVU words (R160). -/
def Tile.loadTables (t : Tile) (k : Task) : Tile :=
  let base := 128 * k.ctxNum
  let es := (chunks 3 k.seqN k.seqTab).zipIdx
  let seq := es.foldl (fun tab e =>
    let w0 := (e.1.getD 0 0) ||| (if entryParity e.1 then 0x8000000000000000#64 else 0)
    tput (base + e.2) (e.1.set 0 w0) tab) t.seq
  let walks := (List.range 16).foldl (fun tab i =>
    if !k.ownsSlot i then tab else if k.slotUsed i then tput i (k.slot i) tab else tdel i tab) t.walks
  let imem := (k.tvuTab.zipIdx).foldl (fun tab w => tput (k.tvuBase + w.2) w.1 tab) t.imem
  { t with seq := seq, walks := walks, imem := imem }

/-- The context as a task takes it. -/
def CtxSt.begin (x : CtxSt) (k : Task) : CtxSt :=
  { x.idle with task := some k, links := x.links, outcnt := 0, relcnt := 0, plarr := 0, plseen := 0 }

/-- Request a group of the transfer table (R190). -/
def State.fetchGroup (s : State) (p c g : Nat) (k : Task) : State :=
  let s := s.modCtx p c (fun x => { x with fetching := some g, owed := x.owed + 1 })
  s.sendReq { src := .desc p c g, write := false, addr := k.f 7 39 0 + 4096 * g
              len := min 4096 (64 * k.nxfer - 4096 * g), data := [], world := k.world }

/-- Is the logical tile's physical tile being retired, or its die isolated or in part reset (R432, R441, R446)? -/
def State.startBarred (s : State) (p : Nat) : Bool :=
  s.flt.retire.any (fun r => decide (r.ptile = p)) || (tget {} s.flt.ptiles p).state ≠ .active ||
  (tget ({} : FieldDie) s.flt.dies (p / 52)).state ≠ 0

/-- Is a logical tile under a tile reset (R445)? -/
def State.tileInReset (s : State) (l : Nat) : Bool :=
  s.flt.resets.any (fun r => decide (r.kind = 2) && decide (r.target = l / 4))

/-- TASK_START (R160, R161, R115, R203). -/
def taskStart (l : Nat) (s : State) : State :=
  match s.placed l with
  | none => s
  | some p =>
    let t := s.tile p
    match firstStart t [] (tget [] s.startQ l) with
    | none => s
    | some k =>
      if s.startBarred p || s.tileInReset l || tget false s.sec.wtileClr l then s
      else
        let s := { s with startQ := tput l ((tget [] s.startQ l).erase k) s.startQ }
        let t := ((t.setSplit k.half).loadTables k).modCtx k.ctxNum (fun x => x.begin k)
        let s := s.setTile p t
        match k.pring with
        | some i => s.fetchGroup p k.ctxNum (i / 64) k
        | none => s

/-! ## Indices, offsets and modifiers (R166) -/

/-- The six indices. -/
abbrev Ixs := List Nat

def ix (v : Ixs) (l : Nat) : Nat := v.getD l 0

/-- Offset of dimension `d`. -/
def offsetOf (k : Task) (v : Ixs) (d : Nat) : Nat :=
  ix v (k.levelOf false d) * k.ot d + ix v (k.levelOf true d) * k.it d

/-- Outer tile number t, and output tile number u. -/
def outerTile (k : Task) (v : Ixs) : Nat := ix v 0 * k.cnt 1 * k.cnt 2 + ix v 1 * k.cnt 2 + ix v 2
def outputTile (k : Task) (v : Ixs) : Nat :=
  (List.range 6).foldl (fun a l => if k.lvDim l = 2 then a else a * k.cnt l + ix v l) 0

/-- Signed 32-bit field `j` of a modifier row that begins at descriptor word `w`. -/
def modField (k : Task) (w j : Nat) : Int := sext 32 (k.f (w + j / 2) (32 * (j % 2) + 31) (32 * (j % 2)))

def sumIdx (v : Ixs) (f : Nat → Int) : Int := (List.range 6).foldl (fun a l => a + (ix v l : Int) * f l) 0

/-- Effective base of a walk (R166). -/
def walkBase (k : Task) (v : Ixs) (md : Bool) (slot koff : Nat) : Int :=
  let b : Int := wkBase (k.slot slot)
  let row := 102 + 7 * slot
  if md then b + sumIdx v (modField k row) + ((outerTile k v % 2 : Nat) : Int) * modField k row 12 +
    (koff : Int) * modField k row 13
  else b

/-- Origin of a walk (R166). -/
def walkOrg (k : Task) (v : Ixs) (md : Bool) (slot : Nat) : Int :=
  if md then sumIdx v (fun l => modField k (102 + 7 * slot) (6 + l)) else 0

/-- Effective first accumulator entry (R166). -/
def accFirst (k : Task) (v : Ixs) (md : Bool) (base : Nat) : Int :=
  if md then (base : Int) + sumIdx v (modField k 214) + ((outputTile k v % 2 : Nat) : Int) * modField k 214 6 else base

/-- left_d (R168). -/
def leftOf (k : Task) (v : Ixs) (d : Nat) : Int :=
  min ((k.ext d : Int) - offsetOf k v d) ((k.ot d : Int) - (ix v (k.levelOf true d) * k.it d : Nat))

/-- The instruction of an ARRAY entry, modified and clipped; none when the entry is empty (R166, R168). -/
def arrayInstr (k : Task) (v : Ixs) (pos num : Nat) (e : List Word) : Option ArrInstr :=
  let w := e.getD 1 0
  let w1 := e.getD 2 0
  let opc := aiOpc w
  let md := sqMod e
  let koff := sqKoff e
  let clip := sqClip e
  let lm := leftOf k v 0
  let ln := leftOf k v 1
  let lk := leftOf k v 2
  let lk' := lk - koff
  let counts := opc = 1 || opc = 2 || opc = 3 || opc = 4
  if clip && counts && (decide (lm ≤ 0) || decide (ln ≤ 0) || decide (lk ≤ 0) || decide (lk' ≤ 0)) then none
  else
    let cap (n : Nat) (l : Int) : Nat := if clip then min n l.toNat else n
    let count :=
      if opc = 1 then loadBeats w
      else if opc = 2 then cap (aiCnt w) (if aiMode w = 0 then lm else if aiMode w = 1 then ln else lk)
      else if opc = 3 then 64
      else if opc = 4 then cap (aiCnt w) lm else 0
    some {
      w0 := w, w1 := w1, entry := pos, num := num, count := count
      kCount := if opc = 4 then cap (amK w1) lk' else 0
      leftM := if clip then some lm else none
      leftN := if clip then some ln else none
      leftK := if clip then some lk' else none
      base1 := walkBase k v md (awWalk w1) koff, org1 := walkOrg k v md (awWalk w1)
      base2 := walkBase k v md (awWalk2 w1) koff, org2 := walkOrg k v md (awWalk2 w1)
      accBase := accFirst k v md (aiAccBase w)
      offM := offsetOf k v 0, offN := offsetOf k v 1, offK := (offsetOf k v 2 : Int) + koff }

/-! ## The sequencer's entries (R175, R176) -/

/-- The entry at which the sequencer of an active context stands, when it may take one. -/
def Tile.entryAt (t : Tile) (c : Nat) : Option (Task × List Word) :=
  let x := t.ctx c
  match x.task with
  | none => none
  | some k =>
    if !x.active || x.offer.isSome || x.offerX.isSome || x.fencing || x.waiting || x.atEnd || k.seqN ≤ x.pos then none
    else some (k, tget [] t.seq (128 * c + x.pos))

/-- Take the entry of kind `kind` at which the sequencer stands; a parity error faults instead (R122). -/
def State.takeEntry (s : State) (p c kind : Nat) (hw : HwEvent) (f : Task → List Word → State → State) : State :=
  match (s.tile p).entryAt c with
  | none => s
  | some (k, e) =>
    if sqKind e ≠ kind then s
    else s.underHw p c hw false (s.ctx p c).pos 0 (fun h => match h with | .seqParity => true | _ => false) (f k e)

/-- SEQ_ARRAY_ENTRY (R166, R168, R176). -/
def seqArrayEntry (p c : Nat) (hw : HwEvent) (s : State) : State :=
  s.takeEntry p c 0 hw (fun k e s =>
    s.modCtx p c (fun x =>
      match arrayInstr k x.idx x.pos x.insNum e with
      | none => { x with pos := x.pos + 1 }
      | some i => { x with offer := some i, insNum := x.insNum + 1 }))

/-- SEQ_TVU_ENTRY (R129, R176). -/
def seqTvuEntry (p c : Nat) (hw : HwEvent) (s : State) : State :=
  s.takeEntry p c 1 hw (fun _ e s =>
    s.modTile p (fun t => { t with starts := t.starts ++ [(c, sqArg e)] }.modCtx c (fun x => { x with pos := x.pos + 1 })))

/-- XFER (R176, R190): the transfer is offered to the stream engine, which fetches its descriptor's group if it does not
hold it. -/
def xfer (p c : Nat) (hw : HwEvent) (s : State) : State :=
  s.takeEntry p c 2 hw (fun k e s =>
    let g := sqArg e / 64
    let s := s.modCtx p c (fun x => { x with offerX := some (sqArg e) })
    let x := s.ctx p c
    if x.groups.any (fun h => decide (h.1 = g)) || x.fetching.isSome then s else s.fetchGroup p c g k)

/-- LOOP (R176). -/
def loop (p c : Nat) (hw : HwEvent) (s : State) : State :=
  s.takeEntry p c 3 hw (fun k e s =>
    s.modCtx p c (fun x =>
      let l := sqLevel e
      let n := ix x.idx l + 1
      if n < k.cnt l then { x with idx := x.idx.set l n, pos := sqTarget e }
      else { x with idx := x.idx.set l 0, pos := x.pos + 1 }))

/-- Has every TVU program of the context ended? -/
def Tile.tvuDone (t : Tile) (c : Nat) : Bool :=
  !t.starts.any (fun x => decide (x.1 = c)) &&
  (match t.prog with
    | some g => decide (g.ctx ≠ c)
    | none => true)

/-- Does the condition of a WAIT hold (R175, R193)? -/
def Tile.waitHolds (t : Tile) (c : Nat) (e : List Word) : Bool :=
  let x := t.ctx c
  if sqCond e = 0 then
    !x.xfers.any (fun f => decide (f.xi = sqArg e)) && !x.grants.any (fun g => decide (g.xi = sqArg e))
  else t.tvuDone c

/-- WAIT (R176, R193): moves on at once when the condition holds already. -/
def wait (p c : Nat) (hw : HwEvent) (s : State) : State :=
  s.takeEntry p c 4 hw (fun _ e s =>
    if (s.tile p).waitHolds c e then s.modCtx p c (fun x => { x with pos := x.pos + 1 })
    else s.modCtx p c (fun x => { x with waiting := true }))

/-- WAIT_SATISFIED (R193). -/
def waitSatisfied (p c : Nat) (s : State) : State :=
  let t := s.tile p
  let x := t.ctx c
  if x.active && x.waiting && t.waitHolds c (tget [] t.seq (128 * c + x.pos)) then
    s.modCtx p c (fun x => { x with waiting := false, pos := x.pos + 1 })
  else s

/-- SEQ_END (R176). -/
def seqEnd (p c : Nat) (hw : HwEvent) (s : State) : State :=
  s.takeEntry p c 5 hw (fun _ _ s => s.modCtx p c (fun x => { x with atEnd := true }))

/-- Has everything of the task finished (R176, R196)? -/
def Tile.finished (t : Tile) (c : Nat) : Bool :=
  let x := t.ctx c
  x.active && x.atEnd && x.load.isNone && x.strm.isNone && x.flight.isEmpty && x.xfers.isEmpty && x.grants.isEmpty &&
  x.owed = 0 && t.tvuDone c

/-- TASK_COMPLETE (R87, R176, R185). -/
def taskComplete (p c : Nat) (s : State) : State :=
  if (s.tile p).finished c then s.finishTask p c else s

end Sys2Proof.Machine
end

