-- ==== Sys2Proof/Machine/Streams.lean ====
section
/-!
DEFINITION. The stream engine (07): transfers, descriptor groups, links, the paceline and counters.
-/
set_option autoImplicit false
namespace Sys2Proof.Machine

/-! ## Taking a transfer (R189 to R191) -/

/-- The descriptor of a transfer, if its group is in the store. -/
def CtxSt.descOf (x : CtxSt) (xi : Nat) : Option (List Word) :=
  (x.groups.find? (fun g => decide (g.1 = xi / 64))).map (fun g => (g.2.drop (8 * (xi % 64))).take 8)

/-- The indices of the next outer tile; none at the last (R189). -/
def nextTile (k : Task) (v : Ixs) : Option Ixs :=
  let (i0, i1, i2) := (ix v 0, ix v 1, ix v 2)
  if i2 + 1 < k.cnt 2 then some [i0, i1, i2 + 1, 0, 0, 0]
  else if i1 + 1 < k.cnt 1 then some [i0, i1 + 1, 0, 0, 0, 0]
  else if i0 + 1 < k.cnt 0 then some [i0 + 1, 0, 0, 0, 0, 0]
  else none

def CtxSt.xreg (x : CtxSt) (r : Nat) : XReg := tget {} x.xr r

/-- The engine has taken the offered transfer. -/
def CtxSt.xTaken (x : CtxSt) : CtxSt := { x with offerX := none, pos := x.pos + 1 }

/-- Outstanding transfers that the engine may hold for a context (R191). -/
def xferLimit (t : Tile) : Nat := if t.split then 3 else 6

/-- Does an outstanding transfer, or an open GRANT, name index register `r` (R214)? -/
def CtxSt.usesXr (x : CtxSt) (r : Nat) : Bool :=
  x.xfers.any (fun f => decide (xfXr f.desc = r) && (f.kind = 5 || xfXuse f.desc || xfGuard f.desc)) ||
  x.grants.any (fun g => decide (g.xr = some r))

/-- Take the offered transfer of kind `kind`, or skip it (R189, R191, R213): `f` gets the task, the transfer index, the
descriptor and the indices to use. -/
def State.takeXfer (s : State) (p c kind : Nat) (fwd : Bool) (f : Task → Nat → List Word → Ixs → State → State) : State :=
  let t := s.tile p
  let x := t.ctx c
  match x.task, x.offerX with
  | some k, some xi =>
    match x.descOf xi with
    | none => s
    | some d =>
      let counted := kind ≤ 5
      if !x.active || xfKind d ≠ kind || xfFwd d ≠ fwd || (counted && xferLimit t ≤ x.xfers.length) then s
      else
        let skip := s.modCtx p c CtxSt.xTaken
        if xfGuard d && (x.xreg (xfXr d)).exh then skip
        else if xfNext d then
          match nextTile k x.idx with
          | none => skip
          | some v => f k xi d v s
        else f k xi d x.idx s
  | _, _ => s

/-- External address, and local address in the bank (R189). -/
def extAddr (x : CtxSt) (d : List Word) (v : Ixs) : Int :=
  (xf d 1 39 0 : Int) + sumIdx v (fun l => sext 32 (xf d (3 + l / 2) (32 * (l % 2) + 31) (32 * (l % 2)))) +
  (if xfXuse d then ((x.xreg (xfXr d)).val : Int) * sext 32 (xf d 6 63 32) else 0)

/-- Offset of the local address within the record. -/
def locOff (k : Task) (d : List Word) (v : Ixs) : Int :=
  (xfLoff d : Int) + ((outerTile k v % 2 : Nat) : Int) * sext 32 (xf d 6 31 0)

/-- Do the rows of a transfer lie inside the buffer of its record (R189)? -/
def locOk (k : Task) (d : List Word) (v : Ixs) : Bool :=
  let o := locOff k d v
  let (_, _, len) := k.record (xfSb d)
  let span : Int := ((xfRows d - 1) * xf d 2 34 16 + xfLen d : Nat)
  decide (0 ≤ o) && decide (o + span ≤ (len : Int))

def State.addXfer (s : State) (p c : Nat) (t : Transfer) : State :=
  s.modCtx p c (fun x => { x with xfers := x.xfers ++ [{ t with id := x.nextX }], nextX := x.nextX + 1 })

def State.modXfer (s : State) (p c id : Nat) (f : Transfer → Transfer) : State :=
  s.modCtx p c (fun x => { x with xfers := x.xfers.map (fun t => if t.id = id then f t else t) })

/-- A transfer stops being outstanding (R192). -/
def State.endXfer (s : State) (p c id : Nat) : State :=
  s.modCtx p c (fun x => { x with xfers := x.xfers.filter (fun t => t.id ≠ id) })

def CtxSt.xferAt (x : CtxSt) (id : Nat) : Option Transfer := x.xfers.find? (fun t => decide (t.id = id))

/-- Address, local address and length of the next request of a row transfer: never across a row or a 4 KiB boundary
(R191). -/
def Transfer.nextReq (t : Transfer) : Int × Int × Nat :=
  let len := xfLen t.desc
  let row := t.done / len
  let o := t.done % len
  let xa := t.xa + (row * xf t.desc 2 63 35 : Nat) + o
  let la := t.la + (row * xf t.desc 2 34 16 : Nat) + o
  (xa, la, min (len - o) (4096 - (xa % 4096).toNat))

def Transfer.total (t : Transfer) : Nat := xfRows t.desc * xfLen t.desc

/-- The engine reads bank bytes to send them: a corrected error is counted, and an uncorrectable one is a tile fault in place of
what follows (R91, R122, R124). -/
def State.bankRead (s : State) (p c : Nat) (hw : HwEvent) (f : State → State) : State :=
  match hw with
  | .corrected _ _ _ => s.underHw p c hw false 0 0 (fun _ => true) f
  | .opbufUe _ _ => s.underHw p c hw false 0 0 (fun _ => true) f
  | _ => f s

/-- Issue the next request of a READ or WRITE, or fault on an address that no memory holds (R286). -/
def State.nextMemReq (s : State) (p c id : Nat) (hw : HwEvent) : State :=
  let x := s.ctx p c
  match x.xferAt id, x.task with
  | some t, some k =>
    let (xa, la, n) := t.nextReq
    if xa < 0 || !inMemSpace xa.toNat then s.streamFault p c t.xi 4
    else
      let bank := (k.record (xfSb t.desc)).1
      let go (data : List Byte) (s : State) : State :=
        (s.modXfer p c id (fun t => { t with inFlight := n })).sendReq {
          src := .xfer p c id, write := t.kind = 1, addr := xa.toNat, len := n, data := data, world := k.world }
      if t.kind = 1 then s.bankRead p c hw (fun s => go ((s.tile p).rdN bank la.toNat n) s) else go [] s
  | _, _ => s

/-- Take a READ or WRITE and issue its first request. -/
def rowTransfer (p c kind : Nat) (hw : HwEvent) (s : State) : State :=
  s.takeXfer p c kind false (fun k xi d v s =>
    if !locOk k d v then s.streamFault p c xi 5
    else
      let x := s.ctx p c
      let (_, base, _) := k.record (xfSb d)
      let s := s.modCtx p c CtxSt.xTaken
      let id := x.nextX
      let s := s.addXfer p c { id := 0, xi := xi, kind := kind, desc := d, xa := extAddr x d v, la := (base : Int) + locOff k d v
                               done := 0, inFlight := 0 }
      s.nextMemReq p c id hw)

/-- READ (R189, R191). -/
def read (p c : Nat) (s : State) : State := rowTransfer p c 0 .none s
/-- WRITE (R91, R189, R191). -/
def write (p c : Nat) (hw : HwEvent) (s : State) : State := rowTransfer p c 1 hw s

/-! ## Messages between tiles -/

/-- The sequencer context that a context code names (R171, R187). -/
def ctxOfCode (code : Nat) : Nat := if code = 2 then 1 else 0

/-- The route word of a token that R27 refuses: its destination tile has no port, so that field is free. -/
def State.refusedRoute (s : State) (p logical cls : Nat) : Nat :=
  (routeWord (logical / 48) (bits (Config.freeWord s.fresh logical) 5 0) (p / 52) (p % 52) cls false).toNat

/-- An address fault of R27 on a transfer: code 0x07 (R197). -/
def State.netFault (s : State) (p c logical cls : Nat) : State :=
  s.tileFault p c false 7 (s.refusedRoute p logical cls) 0

/-- The credit of a link key at a context (R201). -/
def CtxSt.link (x : CtxSt) (key : Nat) : Option (Nat × Nat) :=
  (x.links.find? (fun l => decide (l.1 = key))).map (·.2)

def CtxSt.spend (x : CtxSt) (key n : Nat) : CtxSt :=
  { x with links := x.links.map (fun l => if l.1 = key then (l.1, l.2.1 - n, l.2.2) else l) }

/-! ## REMOTE (R202) -/

/-- Send the tokens of a REMOTE whose key holds the credit. -/
def State.sendRemote (s : State) (p c id : Nat) (hw : HwEvent) : State :=
  let x := s.ctx p c
  match x.xferAt id, x.task with
  | some t, some k =>
    let d := t.desc
    let n := xfLen d
    let dst := xf d 1 9 0
    match x.link (xfKey d) with
    | none => s
    | some (credit, _) =>
      if credit < n then s
      else if (s.placedAt (p / 52) dst).isNone then s.netFault p c dst 4
      else s.bankRead p c hw (fun s =>
        let bank := (k.record (xfSb d)).1
        let data := (s.tile p).rdN bank t.la.toNat n
        let toks := (chunks 256 n data).zipIdx
        let s := s.modCtx p c (fun x => x.spend (xfKey d) n)
        let s := s.modXfer p c id (fun t => { t with credited := true, inFlight := n })
        toks.foldl (fun s q => s.sendTile p (.remote dst (xf d 1 11 10) (xf d 1 15 12) (xfKey d) (xf d 1 50 32 + 256 * q.2) q.1
          (decide (q.2 + 1 = toks.length)) (.tile p c id))) s)
  | _, _ => s

/-- The first transfer of a kind and direction that waits for credit under a key. -/
def CtxSt.uncredited (x : CtxSt) (kind : Nat) (fwd : Bool) (key : Nat) : Option Transfer :=
  x.xfers.find? (fun t => decide (t.kind = kind) && !t.credited && (xfFwd t.desc == fwd) && (kind = 3 || xfKey t.desc = key))

/-- The oldest REMOTE that waits and whose key now holds its credit; those of one key go in order. -/
def CtxSt.readyRemote (x : CtxSt) : Option Transfer :=
  x.xfers.find? (fun t => decide (t.kind = 2) && !t.credited &&
    decide ((x.uncredited 2 false (xfKey t.desc)).map Transfer.id = some t.id) &&
    (match x.link (xfKey t.desc) with
      | some l => decide (xfLen t.desc ≤ l.1)
      | none => false))

/-- REMOTE (R191, R202, R236): one that waits and whose credit has come is sent, or else the offered one is taken. -/
def remote (p c : Nat) (hw : HwEvent) (s : State) : State :=
  let x := s.ctx p c
  match (if x.active then x.readyRemote else none) with
  | some t => s.sendRemote p c t.id hw
  | none =>
    s.takeXfer p c 2 false (fun k xi d v s =>
      if 0xC000 ≤ xfKey d then s.streamFault p c xi 6
      else if !locOk k d v then s.streamFault p c xi 5
      else
        let x := s.ctx p c
        let (_, base, _) := k.record (xfSb d)
        let s := s.modCtx p c CtxSt.xTaken
        let s := s.addXfer p c { id := 0, xi := xi, kind := 2, desc := d, xa := 0, la := (base : Int) + locOff k d v
                                 done := 0, inFlight := 0 }
        if (x.uncredited 2 false (xfKey d)).isSome then s else s.sendRemote p c x.nextX hw)

/-- The last acknowledge, or the refusal, of a REMOTE or PACE comes back to its sender (R192, R200). -/
def State.ackXfer (s : State) (p c id : Nat) (ok : Bool) : State :=
  let x := s.ctx p c
  match x.xferAt id with
  | none => s
  | some t =>
    let s := s.endXfer p c id
    if ok then
      if t.kind = 3 && xfFwd t.desc then
        s.modCtx p c (fun x => { x with blocks := x.blocks.map (fun b =>
          if b.fwd = 1 && (b.start : Int) = t.la then { b with fwd := 2 } else b) })
      else s
    else if x.active then s.streamFault p c t.xi 6 else s

/-! ## The paceline (R203 to R208) -/

def occupancy (len : Nat) : Nat := cdiv len 256 * 256

/-- The block that a PACE sends: rotation, hops, number, length and where its bytes lie. A forward takes the oldest block not yet
forwarded (R207). -/
def CtxSt.pacePick (x : CtxSt) (t : Transfer) : Option (Nat × Nat × Nat × Nat × Int) :=
  if xfFwd t.desc then
    (x.blocks.find? (fun b => decide (b.fwd = 0))).map (fun b => (b.rot + 1, b.hops, b.block, b.len, (b.start : Int)))
  else some (1, xf t.desc 1 15 0, xf t.desc 1 31 16, xfLen t.desc, t.la)

/-- Can a PACE be sent now, or does it fault (R206, R207)? -/
def CtxSt.paceReady (x : CtxSt) (t : Transfer) : Bool :=
  match x.pacePick t, x.ring with
  | some (_, hops, _, len, _), some r =>
    (xfFwd t.desc && hops = 0) || (match x.link r.key with
      | some l => decide (l.2 < occupancy len) || decide (occupancy len ≤ l.1)
      | none => false)
  | _, _ => false

/-- Send a block once the ring key holds the credit; a block larger than the successor's buffer faults (R204, R206). -/
def State.sendPace (s : State) (p c id : Nat) (hw : HwEvent) : State :=
  let x := s.ctx p c
  match x.xferAt id, x.task, x.ring with
  | some t, some k, some r =>
    match x.pacePick t with
    | none => s
    | some (rot, hops, number, len, la) =>
      if xfFwd t.desc && hops = 0 then s.streamFault p c t.xi 8
      else match x.link r.key with
        | none => s
        | some (credit, first) =>
          if first < occupancy len then s.streamFault p c t.xi 9
          else if credit < occupancy len then s
          else if (s.placedAt (p / 52) r.succ).isNone then s.netFault p c r.succ 5
          else s.bankRead p c hw (fun s =>
            let data := if xfFwd t.desc then (List.range len).map (fun i => plByte (s.tile p) k r (la.toNat + i))
              else (s.tile p).rdN (k.record (xfSb t.desc)).1 la.toNat len
            let s := s.modCtx p c (fun x => { x.spend r.key (occupancy len) with
              blocks := if xfFwd t.desc then x.blocks.map (fun b => if (b.start : Int) = la then { b with fwd := 1 } else b)
                else x.blocks })
            let s := s.modXfer p c id (fun t => { t with credited := true, inFlight := len, la := la })
            s.sendTile p (.block r.succ r.suctx r.key (rot % 65536) (if xfFwd t.desc then hops - 1 else hops) number data p c id))
  | _, _, _ => s

/-- A PACE of a direction: the oldest that waits and can go is sent, or else the offered one is taken (R191). -/
def paceTransfer (p c : Nat) (fwd : Bool) (hw : HwEvent) (s : State) : State :=
  let x := s.ctx p c
  match (if x.active then (x.uncredited 3 fwd 0).filter x.paceReady else none) with
  | some t => s.sendPace p c t.id hw
  | none =>
    s.takeXfer p c 3 fwd (fun k xi d v s =>
      let x := s.ctx p c
      let key := match x.ring with
        | some r => r.key
        | none => 0
      if 0xC000 ≤ key then s.streamFault p c xi 6
      else if !fwd && !locOk k d v then s.streamFault p c xi 5
      else
        let (_, base, _) := k.record (xfSb d)
        let s := s.modCtx p c CtxSt.xTaken
        let s := s.addXfer p c { id := 0, xi := xi, kind := 3, desc := d, xa := 0, la := (base : Int) + locOff k d v
                                 done := 0, inFlight := 0 }
        if (x.uncredited 3 fwd 0).isSome then s else s.sendPace p c x.nextX hw)

/-- PACE_ORIGIN (R204, R206). -/
def paceOrigin (p c : Nat) (hw : HwEvent) (s : State) : State := paceTransfer p c false hw s
/-- PACE_FORWARD (R206, R207). -/
def paceForward (p c : Nat) (hw : HwEvent) (s : State) : State := paceTransfer p c true hw s

/-! ## CTAKE, GRANT, PRING -/

/-- CTAKE (R212, R214): waits for the transfers that name its register; the register's value is retired. -/
def ctake (p c : Nat) (s : State) : State :=
  s.takeXfer p c 5 false (fun k xi d _ s =>
    let x := s.ctx p c
    let r := xfXr d
    if x.usesXr r then s
    else
      let id := x.nextX
      let s := s.modCtx p c (fun x => { x.xTaken with xr := tmod {} r (fun v => { v with live := none }) x.xr })
      let s := s.addXfer p c { id := 0, xi := xi, kind := 5, desc := d, xa := 0, la := 0, done := 0, inFlight := 1 }
      s.sendTile p (.take (xf d 1 11 0) p c id k.world))

/-- GRANT (R191, R201, R236). -/
def grant (p c : Nat) (s : State) : State :=
  let lim := if (s.tile p).split then 4 else 8
  s.takeXfer p c 6 false (fun k xi d v s =>
    let x := s.ctx p c
    if lim ≤ x.grants.length then s
    else if !locOk k d v then s.streamFault p c xi 5
    else
      let key := xfKey d
      let toTile := key < 0xC000
      if toTile && (s.placedAt (p / 52) (xf d 1 9 0)).isNone then s.netFault p c (xf d 1 9 0) 6
      else if !toTile && 384 ≤ key % 0x400 then s.streamFault p c xi 6
      else
        let s := s.modCtx p c (fun x => { x.xTaken with
          nextX := x.nextX + 1
          grants := x.grants ++ [{ id := x.nextX, xi := xi, record := xfSb d, key := key, lo := (locOff k d v).toNat, len := xfLen d
                                   xr := if xfGuard d then some (xfXr d) else none }] })
        s.sendTile p (.grant (xf d 1 9 0) (xf d 1 11 10) key (xfLen d) k.world (some (p, c, xi, x.nextX))))

/-- PRING (R192, R203): complete at once. -/
def pring (p c : Nat) (s : State) : State :=
  s.takeXfer p c 7 false (fun _ _ _ _ s => s.modCtx p c CtxSt.xTaken)

/-! ## Descriptor groups (R190) -/

/-- Apply the task's ring: the predecessor gets the length of the buffer as credit (R203). -/
def State.applyRing (s : State) (p c : Nat) (k : Task) (d : List Word) : State :=
  let len := (k.record (xfSb d)).2.2
  let pred := xf d 1 9 0
  let s := s.modCtx p c (fun x => { x with ring := some {
    key := xfKey d, pred := pred, pctx := xf d 1 11 10, succ := xf d 1 41 32, suctx := xf d 1 43 42, bufLen := len } })
  if (s.placedAt (p / 52) pred).isNone then s.netFault p c pred 6
  else s.sendTile p (.grant pred (xf d 1 11 10) (xfKey d) len k.world none)

/-- Is a response of the memory for a tile? -/
def respFor (p : Nat) (r : MemResp) : Bool :=
  match r.src with
  | .xfer q _ _ => q = p
  | .desc q _ _ => q = p
  | _ => false

/-- The response that has come first to a tile, if it is the one asked for (R31). -/
def State.firstResp (s : State) (p : Nat) (src : ReqSrc) : Option MemResp :=
  (s.mem.resps.find? (respFor p)).filter (fun r => decide (r.src = src))

/-- DESCRIPTOR_FETCH (R190): the response for a group is taken and checked; with none at hand, a fetch begins. -/
def descriptorFetch (p c group : Nat) (s : State) : State :=
  let x := s.ctx p c
  match s.firstResp p (.desc p c group) with
  | some r =>
    let s := s.setMem (fun m => { m with resps := m.resps.erase r })
    let s := s.modCtx p c (fun x => { x with fetching := none, owed := x.owed - 1 })
    (match x.task with
    | none => s
    | some k =>
      if !x.active then s
      else
        let xi := x.offerX.getD (group * 64)
        if r.status ≠ 0 then s.streamFault p c xi r.status.toNat
        else if Config.groupCheck r.data ≠ k.groups.getD group 0 then s.streamFault p c xi 0xA
        else
          let ws := wordsOfBytes r.data
          let s := s.modCtx p c (fun x => { x with
            groups := (x.groups ++ [(group, ws)]).drop (x.groups.length - 1) })
          match k.pring with
          | some i => if i / 64 = group && x.ring.isNone then s.applyRing p c k ((ws.drop (8 * (i % 64))).take 8) else s
          | none => s)
  | none =>
    match x.task with
    | none => s
    | some k =>
      let wanted := (match x.offerX with
        | some xi => decide (xi / 64 = group)
        | none => false) || x.groups.any (fun g => decide (g.1 + 1 = group))
      if x.active && x.fetching.isNone && wanted && 64 * group < k.nxfer && !x.groups.any (fun g => decide (g.1 = group)) then
        s.fetchGroup p c group k
      else s

/-! ## Responses, time limits and the end of a task -/

/-- A response for a transfer whose task goes on (R191, R192, R197). -/
def State.xferDone (s : State) (p c : Nat) (t : Transfer) (status : Nat) (data : List Byte) (hw : HwEvent) : State :=
  if status ≠ 0 then (s.endXfer p c t.id).streamFault p c t.xi status
  else
    let (_, la, n) := t.nextReq
    let bank := match (s.ctx p c).task with
      | some k => (k.record (xfSb t.desc)).1
      | none => 0
    let s := if t.kind = 0 then s.modTile p (fun x => x.wrN bank la.toNat (data.take n)) else s
    let s := s.modXfer p c t.id (fun x => { x with done := x.done + n, inFlight := 0 })
    if t.total ≤ t.done + n then s.endXfer p c t.id else s.nextMemReq p c t.id hw

/-- Is a message the answer of a take for a tile? -/
def isTaken (p : Nat) : Msg → Bool
  | .taken _ q _ _ _ _ => q = p
  | _ => false

/-- The answer to a CTAKE arrives (R212, R214). -/
def State.takenBack (s : State) (p c : Nat) (t : Transfer) (ctr : Nat) (refused : Bool) (val : Option Nat) : State :=
  let x := s.ctx p c
  let s1 := s.endXfer p c t.id
  let w := match x.task with
    | some k => k.world
    | none => false
  if !x.active then
    match val with
    | some v => s1.returnVal w ctr v
    | none => s1
  else if refused then s1.streamFault p c t.xi 3
  else match val with
    | some v => s1.modCtx p c (fun x => { x with
        xr := tput (xfXr t.desc) { val := v, exh := false, live := some ctr } x.xr })
    | none => s1.modCtx p c (fun x => { x with xr := tmod {} (xfXr t.desc) (fun r => { r with exh := true }) x.xr })

/-- REQUEST_RESPONSE (R191, R192, R197, R199): the response to the request in flight of transfer `id`, if it is the first that has
come to the tile (R31). A counter value for a CTAKE that has been given up goes back to the pool (R214). -/
def requestResponse (p c id : Nat) (hw : HwEvent) (s : State) : State :=
  let x := s.ctx p c
  match s.firstResp p (.xfer p c id) with
  | some r =>
    let s := s.setMem (fun m => { m with resps := m.resps.erase r })
    (match x.xferAt id with
    | none => s
    | some t =>
      if !x.active then s.endXfer p c id
      else s.xferDone p c t r.status.toNat r.data hw)
  | none =>
    match s.msgs.find? (isTaken p) with
    | some (.taken ctr q d i refused val) =>
      if d ≠ c || i ≠ id then s
      else
        let s := { s with msgs := s.msgs.erase (.taken ctr q d i refused val) }
        (match x.xferAt id, val with
        | some t, _ => s.takenBack p c t ctr refused val
        | none, some v => s.poolReturn ctr v
        | none, none => s)
    | _ => s

/-- Is a rim under part reset, so that the limit of R198 does not run (R446)? -/
def State.rimInReset (s : State) (m : Nat) : Bool :=
  s.flt.resets.any (fun r => decide (r.kind = 4) && decide (r.target = m))

/-- Does the request in flight of a transfer wait for a rim under part reset (R446)? -/
def State.rimWaits (s : State) (t : Transfer) : Bool :=
  if t.kind ≤ 1 then s.rimInReset (t.nextReq.1.toNat / 0x1400000000)
  else t.kind = 4 && s.rimInReset (xf t.desc 1 43 40 / 6)

/-- TIMEOUT (R198): the request in flight of transfer `id`, or else the descriptor fetch, is given up. -/
def timeout (p c id : Nat) (s : State) : State :=
  let x := s.ctx p c
  if !x.active then s
  else match x.xferAt id with
    | some t =>
      if t.inFlight = 0 || s.rimWaits t then s
      else (s.modXfer p c id (fun t => { t with inFlight := 0 })).streamFault p c t.xi 0xB
    | none =>
      match x.fetching with
      | some g =>
        let a := match x.task with
          | some k => k.f 7 39 0 + 4096 * g
          | none => 0
        if s.rimInReset (a / 0x1400000000) then s
        else
        let s := s.modCtx p c (fun x => { x with fetching := none, owed := x.owed - 1 })
        s.streamFault p c (x.offerX.getD (g * 64)) 0xB
      | none => s

/-- CANCELLATION (R125, R153, R199, R396): the notice that the keel sent is delivered; a task that is already ending goes
on as it was. -/
def cancellation (p c : Nat) (s : State) : State :=
  let x := s.ctx p c
  if !x.cancelAsked then s
  else
    let s := s.modCtx p c (fun x => { x with cancelAsked := false })
    if x.active then s.beginEnd p c .cancel else s

/-- CANCELLATION_ACK (R117, R125, R199): nothing of the task is in progress; its reply is formed. -/
def cancellationAck (p c : Nat) (s : State) : State :=
  let t := s.tile p
  let x := t.ctx c
  if x.task.isSome && x.ending.isSome && x.xfers.isEmpty && x.owed = 0 && x.flight.isEmpty && t.tvuDone c then
    s.finishTask p c
  else s

/-! ## Arrivals from other tiles -/

/-- Is a message for a logical tile on virtual channel 0? Its port takes them in the order in which they come (R31). -/
def toTile (l : Nat) : Msg → Bool
  | .grant t _ key _ _ _ => t = l && key < 0xC000
  | .remote t _ _ _ _ _ _ _ => t = l
  | .block t _ _ _ _ _ _ _ _ _ => t = l
  | _ => false

/-- A GRANT that was refused faults at the receiver (R201, R236). -/
def State.grantRefused (s : State) (src : Option (Nat × Nat × Nat × Nat)) : State :=
  match src with
  | some (p, c, xi, _) => if (s.ctx p c).active then s.streamFault p c xi 6 else s
  | none => s

/-- GRANT_RECEIVED (R201). -/
def grantReceived (p c : Nat) (s : State) : State :=
  match s.logicalOf p with
  | none => s
  | some l =>
    match s.msgs.find? (toTile l) with
    | some (.grant t ctx key bytes w src) =>
      if ctxOfCode ctx ≠ c then s
      else
      let s := { s with msgs := s.msgs.erase (.grant t ctx key bytes w src) }
      let x := s.ctx p c
      if (x.link key).isSome then
        s.modCtx p c (fun x => { x with links := x.links.map (fun e => if e.1 = key then (e.1, e.2.1 + bytes, e.2.2) else e) })
      else if x.links.length < 8 then s.modCtx p c (fun x => { x with links := x.links ++ [(key, bytes, bytes)] })
      else s.grantRefused src
    | _ => s

/-- The open range that a token's bytes lie in, not yet filled (R202). -/
def Grant.takes (g : Grant) (record key off n : Nat) : Bool :=
  g.record = record && g.key = key && decide (g.lo ≤ off) && decide (off + n ≤ g.lo + g.len) && decide (g.got < g.len)

/-- The range after a token's bytes are stored; bytes stored before count once. -/
def Grant.fill (g : Grant) (off n : Nat) : Grant :=
  { g with
    filled := g.filled ++ [(off, n)]
    got := g.got + ((List.range n).filter (fun i => !g.filled.any (fun f => decide (f.1 ≤ off + i) && decide (off + i < f.1 + f.2)))).length }

/-- The credit that a queue controller's token carried is spent; a refused one ends there. -/
def State.ackSender (s : State) (src : Sender) (last ok : Bool) : State :=
  match src with
  | .tile p c id =>
    if !ok then
      let s := s.ackXfer p c id false
      -- the rest of a refused transfer is refused with it (R202)
      let rest (m : Msg) : Bool := match m with
        | .remote _ _ _ _ _ _ _ (.tile p' c' id') => p' = p && c' = c && id' = id
        | _ => false
      ({ s with msgs := s.msgs.filter (fun m => !rest m) } : State).dropLoads (fun l => match l with
        | .msg m => rest m
        | _ => false)
    else if last then s.ackXfer p c id true else s
  | .queue _ _ => s

/-- REMOTE_TOKEN_RECEIVED (R200, R202). -/
def remoteTokenReceived (p c : Nat) (s : State) : State :=
  match s.logicalOf p with
  | none => s
  | some l =>
    match s.msgs.find? (toTile l) with
    | some (.remote t ctx record key doff data last src) =>
      if ctxOfCode ctx ≠ c then s
      else
      let s := { s with msgs := s.msgs.erase (.remote t ctx record key doff data last src) }
      let x := s.ctx p c
      let hit := match x.task with
        | some k =>
          if x.active && k.ctxCode = ctx && record < k.nstr && bits (k.sb record) 1 0 = 3 then
            (x.grants.find? (fun (g : Grant) => g.takes record key doff data.length)).map (fun (g : Grant) => (k, g))
          else none
        | none => none
      (match hit with
      | none => s.ackSender src last false
      | some (k, g) =>
        let (bank, base, _) := k.record record
        let g' := g.fill doff data.length
        let s := s.modTile p (fun t => (t.wrN bank (base + doff) data).modCtx c (fun x => { x with
          grants := if g.len ≤ g'.got then x.grants.erase g else x.grants.map (fun h => if h = g then g' else h) }))
        s.ackSender src last true)
    | _ => s

/-- PACELINE_BLOCK_STORED (R154, R200, R205, R206). -/
def pacelineBlockStored (p c : Nat) (s : State) : State :=
  match s.logicalOf p with
  | none => s
  | some l =>
    match s.msgs.find? (toTile l) with
    | some (.block t ctx key rot hops number data q qc id) =>
      if ctxOfCode ctx ≠ c then s
      else
      let s := { s with msgs := s.msgs.erase (.block t ctx key rot hops number data q qc id) }
      let x := s.ctx p c
      (match x.task, x.ring with
      | some k, some r =>
        if !x.active || k.ctxCode ≠ ctx || r.key ≠ key then s.ackXfer q qc id false
        else if !(if x.lastRot = 0 then rot = 1 else rot = x.lastRot || rot = x.lastRot + 1) then
          (s.streamFault p c (k.pring.getD 0) 7).ackXfer q qc id false
        else
          let start := x.plEnd
          let recIx := ((List.range 16).find? (fun i => decide (i < k.nstr) && bits (k.sb i) 1 0 = 2)).getD 0
          let (bank, base, _) := k.record recIx
          let s := s.modTile p (fun t =>
            let t := (data.zipIdx).foldl (fun t b => t.wrN bank (base + (start + b.2) % (max r.bufLen 1)) [b.1]) t
            t.modCtx c (fun x => { x with
              blocks := x.blocks ++ [{ rot := rot, hops := hops, block := number, len := data.length, start := start, fwd := 0 }]
              plEnd := start + occupancy data.length, lastRot := rot, plarr := x.plarr + 1 }))
          s.ackXfer q qc id true
      | _, _ => s.ackXfer q qc id false)
    | _ => s

/-- BLOCK_RELEASE (R208). -/
def blockRelease (p c : Nat) (s : State) : State :=
  let x := s.ctx p c
  match x.task, x.ring with
  | some k, some r =>
    match x.blocks.find? (fun b => decide (b.start + b.len ≤ x.readPt) && (b.hops = 0 || b.fwd = 2)) with
    | some b =>
      if !x.active then s
      else
        let s := s.modCtx p c (fun x => { x with blocks := x.blocks.erase b })
        if (s.placedAt (p / 52) r.pred).isNone then s.netFault p c r.pred 6
        else s.sendTile p (.grant r.pred r.pctx r.key (occupancy b.len) k.world none)
    | none => s
  | _, _ => s

/-! ## Counters (R211 to R215) -/

/-- COUNTER_TAKE (R212, R410): the arbiter of counter `ctr` takes the oldest request. -/
def counterTake (ctr : Nat) (s : State) : State :=
  match s.msgs.find? (fun m => match m with
    | .take k _ _ _ _ => k = ctr
    | _ => false) with
  | some (.take k p c id w) =>
    let s := { s with msgs := s.msgs.erase (.take k p c id w) }
    let ct : Counter := tget {} s.ctrs.ctrs ctr
    if s.wcbank (ctr / 256) ≠ w then s.send 18 2 (.taken ctr p c id true none)
    else match s.ctrs.pool.find? (fun e => decide (e.1 = ctr)) with
      | some e => { s with ctrs := { s.ctrs with pool := s.ctrs.pool.erase e } }.send 18 2 (.taken ctr p c id false (some e.2))
      | none =>
        if ct.value.toNat < ct.limit.toNat then
          { s with ctrs := { s.ctrs with ctrs := tput ctr { ct with value := ct.value + 1 } s.ctrs.ctrs } }.send 18 2
            (.taken ctr p c id false (some ct.value.toNat))
        else s.send 18 2 (.taken ctr p c id false none)
  | _ => s

end Sys2Proof.Machine
end

