-- ==== Sys2Proof/Machine/Cells.lean ====
section
/-!
DEFINITION. The cells of the fabric (08: R216 to R219, R227, R228, R241, R242): tables, storage elements, handshake controllers and
the crossings between regions. What the bits of CELL and HARD frames say is a value of Config (R260; log entry 7).
-/
set_option autoImplicit false
namespace Sys2Proof.Machine

/-! ## Units -/

def State.region (s : State) (r : Nat) : Region := tget {} s.fab.regions r
def State.modRegion (s : State) (r : Nat) (f : Region → Region) : State :=
  { s with fab := { s.fab with regions := tmod {} r f s.fab.regions } }
def Region.isOpen (r : Region) : Bool := r.state = 0

def Region.qc (r : Region) (q : Nat) : QueueCtl := tget {} r.qcs q
def Region.modQc (r : Region) (q : Nat) (f : QueueCtl → QueueCtl) : Region := { r with qcs := tmod {} q f r.qcs }

/-- The HARD frame of a region, and the configuration of cell `i` from the frame of its column (R216, R260). -/
def Region.hard (r : Region) : List Byte := tget (List.replicate 4096 0) r.frames 300
def Region.cellConf (r : Region) (i : Nat) : Config.CellConf :=
  Config.cellConf (((tget (List.replicate 24000 0) r.frames (i / 500)).drop (48 * (i % 500))).take 48)

/-! ## Tables (R217, R218) -/

/-- The number that inputs form, the last most significant. -/
def inputNum (ins : List Bool) : Nat := (ins.zipIdx).foldl (fun a b => a + b2n b.1 * 2 ^ b.2) 0

/-- Output O6 of a whole table (R217). -/
def tableO6 (l : BitVec 64) (ins : List Bool) : Bool := l.getLsbD (inputNum (ins.take 6))
/-- Outputs O5A and O5B of a split table (R218): I5 is ignored. -/
def tableO5A (l : BitVec 64) (ins : List Bool) : Bool := l.getLsbD (inputNum (ins.take 5))
def tableO5B (l : BitVec 64) (ins : List Bool) : Bool := l.getLsbD (32 + inputNum (ins.take 5))

/-- What a cell's table puts out at O6 or O5A (0) and at O5B (1); a whole table has no O5B. -/
def tableOut (c : Config.CellConf) (o : Nat) (ins : List Bool) : Bool :=
  if o = 0 then (if c.split then tableO5A c.table ins else tableO6 c.table ins) else c.split && tableO5B c.table ins

/-! ## Storage elements (R219) -/

/-- The stored value of SE k of cell `i`: its initial value until it has captured one (R241). -/
def Region.stored (r : Region) (c : Config.CellConf) (i k : Nat) : Bool :=
  (tlook (2 * i + k) r.se).getD (if k = 0 then c.init0 else c.init1)

def Region.hc (r : Region) (key : Nat) : HcSt := tget {} r.hcs key

/-! ## Neighbours (R228) -/

/-- The region over an edge of a region: west, east, north, south. -/
def neighbourOf (r e : Nat) : Option Nat :=
  let q := r % 8
  if e = 0 then (if q % 4 = 0 then none else some (r - 1))
  else if e = 1 then (if q % 4 = 3 then none else some (r + 1))
  else if e = 2 then (if q < 4 then none else some (r - 4))
  else if q < 4 then some (r + 4) else none

def opposite (e : Fin 4) : Fin 4 := if e = 0 then 1 else if e = 1 then 0 else if e = 2 then 3 else 2

/-- Crossing wires of an edge in each direction. -/
def crossWires : Nat := 1536

/-! ## Nets -/

/-- The level of a net of region `r`. A net that depends on itself through tables and open latches alone has no stated level: it is
a free value once the first argument, which counts down, is used up. -/
def State.net (s : State) : Nat → Nat → Config.Net → Bool
  | 0, r, _ => bit (Config.freeWord s.fresh r) 0
  | k + 1, r, n =>
    let x := s.region r
    match n with
    | .const b => b
    | .cell i o =>
      let c := x.cellConf i
      let ins (j : Nat) : List Bool := (List.range j).map (fun q => s.net k r (c.ins (Fin.ofNat 6 q)))
      let out (q : Nat) : Bool := tableOut c q (ins 6)
      let data (q : Nat) : Bool :=
        if q = 0 then (if c.byX0 then s.net k r c.x0 else out 0) else if c.byX1 then s.net k r c.x1 else out 1
      if o.val < 2 then out o.val
      else
        let q := o.val - 2
        if c.latch then (if (x.hc (4 * (i / 500) + c.sel.val)).en then data q else x.stored c i q)
        else if c.srAsync && s.net k r c.sr then (if q = 0 then c.init0 else c.init1)
        else x.stored c i q
    | .cross e j =>
      match neighbourOf r e.val with
      | none => false
      | some nb =>
        let y := s.region nb
        if y.isOpen then s.net k nb (Config.crossOut y.hard (opposite e) j)
        else if Config.crossHold x.hard e j = 0 then false
        else if Config.crossHold x.hard e j = 1 then true
        else (tlook (crossWires * (opposite e).val + j) y.crossLast).getD (bit (Config.freeWord r j) 1)
    | .hcReq key => (x.hc key).req
    | .hcAck key => (x.hc key).ack
    | .bmOut bm pb b =>
      let m : BlockMem := tget {} x.bms bm
      if b = 72 then (if pb then m.errB else m.errA) else bit (if pb then m.outB else m.outA) b
    | .qcErr q => (x.qc q).err
    | .other j => bit (Config.freeWord s.fresh j) 2

/-- More nets than a path without a loop can pass on a die. -/
def netDepth : Nat := 2000000
def State.netOf (s : State) (r : Nat) (n : Config.Net) : Bool := s.net netDepth r n

/-- The data input of SE k of cell `i`, and its clock enable. -/
def State.seData (s : State) (r i k : Nat) : Bool :=
  let c := (s.region r).cellConf i
  if k = 0 then s.netOf r (if c.byX0 then c.x0 else .cell i 0) else s.netOf r (if c.byX1 then c.x1 else .cell i 1)
def State.seEn (s : State) (r i k : Nat) : Bool :=
  let c := (s.region r).cellConf i
  s.netOf r (if k = 0 then c.en0 else c.en1)

/-- The value of every crossing wire that leaves a region. -/
def State.crossings (s : State) (r : Nat) : Table Bool :=
  (List.range (4 * crossWires)).map (fun i =>
    (i, s.netOf r (Config.crossOut (s.region r).hard (Fin.ofNat 4 (i / crossWires)) (i % crossWires))))

/-! ## Edges and enables (R219, R227, R231) -/

/-- What SE `k` of cell `i` of region `r` holds after a rising edge of generator `g`: its initial value under set/reset, its data
when its enable is high, else what it held. -/
def State.seAfter (s : State) (r g i k : Nat) : Option Bool :=
  let x := s.region r
  let c := x.cellConf i
  if c.latch || c.sel.val ≠ g then tlook (2 * i + k) x.se
  else if s.netOf r c.sr then some (if k = 0 then c.init0 else c.init1)
  else if s.seEn r i k then some (s.seData r i k) else tlook (2 * i + k) x.se

/-- A block memory at a rising edge of generator `g`: its output registers show what they held back (R231). -/
def BlockMem.edge (m : BlockMem) (g : Nat) : BlockMem :=
  let m := match m.lateA with
    | some (h, d) => if h = g then { m with outA := d, lateA := none } else m
    | none => m
  match m.lateB with
  | some (h, d) => if h = g then { m with outB := d, lateB := none } else m
  | none => m

/-- A rising edge of a running generator: every flip-flop that selects it acts at once (R219, R222). -/
def State.clockEdge (s : State) (r g : Nat) : State :=
  let x := s.region r
  if !x.isOpen || !(tget {} x.gens g).run then s
  else s.modRegion r (fun x => { x with
    se := (List.range 300000).filterMap (fun j => (s.seAfter r g (j / 2) (j % 2)).map (fun v => (j, v)))
    bms := x.bms.map (fun m => (m.1, m.2.edge g))
    gens := tmod {} g (fun y => { y with level := true }) x.gens })

/-- A falling edge. -/
def State.clockFall (s : State) (r g : Nat) : State :=
  s.modRegion r (fun x => { x with gens := tmod {} g (fun y => { y with level := false }) x.gens })

/-- The latches of column `key / 4` that select controller `key % 4` keep what is at their data inputs as the enable falls
(R219). -/
def State.latchColumn (s : State) (r key : Nat) : State :=
  s.modRegion r (fun x => { x with se := (List.range 1000).foldl (fun t j =>
    let i := 500 * (key / 4) + j / 2
    let c := x.cellConf i
    if key / 4 < 300 && c.latch && c.sel.val = key % 4 then tput (2 * i + j % 2) (s.seData r i (j % 2)) t else t) x.se })

/-- A handshake controller acts on its nets, or one unit of its delay passes (R227; log entry 101): a request from the sender closes
the latches and is acknowledged, goes out after DELAY units, and is taken back once the receiver has acknowledged it; the
acknowledge falls with the sender's request, and then the latches open again. -/
def State.hcStep (s : State) (r key : Nat) : State :=
  let x := s.region r
  if !x.isOpen then s
  else
    let c := Config.hcConf x.hard key
    let h := x.hc key
    let reqIn := s.netOf r c.reqIn
    let ackIn := s.netOf r c.ackIn
    let put (s : State) (h : HcSt) : State := s.modRegion r (fun x => { x with hcs := tput key h x.hcs })
    match h.wait with
    | some 0 => put s { h with req := true, wait := none }
    | some (n + 1) => put s { h with wait := some n }
    | none =>
      if h.en && reqIn && !h.ack && !h.req && !ackIn then
        put (s.latchColumn r key) { h with en := false, ack := true, wait := some c.delay.toNat }
      else if h.req && ackIn then put s { h with req := false }
      else if h.ack && !reqIn then put s { h with ack := false }
      else if !h.en && !h.ack && !h.req then put s { h with en := true }
      else s

end Sys2Proof.Machine
end

