-- ==== Sys2Proof/Machine/Fabric.lean ====
section
/-!
DEFINITION. The programmable fabric (08): regions, clock generators, block memories, queue controllers, the region port and
the closing of a region.
-/
set_option autoImplicit false
namespace Sys2Proof.Machine

/-! ## Status words and settings -/

/-- `CKSTAT` (R226), with the number of the last pace window. -/
def ClockGen.word (g : ClockGen) (seq : BitVec 8) : Word :=
  packF [(0, 1, b2n g.fwdSrc), (1, 1, b2n g.run), (8, 10, g.taps.toNat), (18, 3, g.div.toNat), (21, 4, g.fwd.toNat),
    (32, 16, g.meas.toNat), (48, 8, seq.toNat)]

/-- Credit held, in bytes (R237). -/
def QueueCtl.credit (q : QueueCtl) : Nat := q.ranges.foldl (fun a r => a + r.left) 0

/-- `QCSTAT` (R238). -/
def QueueCtl.word (q : QueueCtl) : Word :=
  let b := q.bound.getD (0, 0, 0)
  packF [(0, 2, q.mode.toNat), (2, 2, q.depth.toNat), (4, 1, b2n q.bound.isSome), (5, 2, b.2.1), (7, 4, b.2.2), (11, 10, b.1),
    (32, 16, cdiv q.fill.length 8), (48, 16, min (cdiv q.credit 256) 65535)]

/-- `REGSTAT` (R243). -/
def Region.word (r : Region) : Word :=
  packF [(0, 2, r.state.toNat), (2, 1, b2n r.world), (3, 1, b2n r.empty),
    (4, 4, (List.range 4).foldl (fun a g => a + b2n (tget {} r.gens g).run * 2 ^ g) 0), (8, 3, r.reqs.length),
    (11, 6, (r.qcs.filter (fun q => q.2.bound.isSome)).length), (17, 15, r.loads.toNat), (32, 32, r.imgid.toNat)]

/-- Mode and depth of queue controllers 0 to 47 as loaded (R234): a head joins the controllers of the groups that follow it to its
queue, whatever their own settings, and a queue does not run past QC47. -/
def queueModes (own : Nat → Word) : List (Nat × QueueCtl) :=
  ((List.range 48).foldl (fun (a : List (Nat × QueueCtl) × Nat) q =>
    let w := own q
    let g := bits w 3 2 + 1
    if q < a.2 then (a.1 ++ [(q, { mode := 2 })], a.2)
    else if bits w 1 0 = 1 && q + g ≤ 48 then (a.1 ++ [(q, { mode := 1, depth := BitVec.ofNat 2 (g - 1) })], q + g)
    else (a.1 ++ [(q, ({} : QueueCtl))], a.2)) ([], 0)).1

/-- What the settings of a HARD frame make of generators and queue controllers when the region opens (R222, R234). What a
generator measured in the last pace window stands (R226). -/
def Region.applyHard (r : Region) : Region :=
  let gens := (List.range 4).map (fun g =>
    let w := Config.clockSetting r.hard g
    (g, ({ fwdSrc := bit w 0, taps := BitVec.ofNat 10 (bits w 17 8), div := BitVec.ofNat 3 (bits w 20 18)
           fwd := BitVec.ofNat 4 (bits w 24 21), meas := (tget {} r.gens g).meas } : ClockGen)))
  { r with gens := gens, qcs := queueModes (Config.queueSetting r.hard) }

/-! ## Clock generators and block memories -/

/-- CLOCK_GENERATOR_ENABLE (R222, R226): a generator starts with a high phase and stops after one. -/
def clockGeneratorEnable (r g : Nat) (on : Bool) (s : State) : State :=
  if !(s.region r).isOpen then s
  else s.modRegion r (fun x => { x with gens := tmod {} g (fun y =>
    { y with run := on, level := if on then y.level || !y.run else false }) x.gens })

/-- Width in bits of a shape code. -/
def shapeWidth (c : Nat) : Nat := ([1, 2, 4, 9, 18, 36, 72] : List Nat).getD c 72

def BlockMem.row (b : BlockMem) (i : Nat) : BitVec 72 := tget 0 b.rows (i % 1024)

/-- The ×9 word at index `i`: byte and extra bit (R230). -/
def BlockMem.nine (b : BlockMem) (i : Nat) : Nat :=
  let r := b.row (i / 8)
  bits r (8 * (i % 8) + 7) (8 * (i % 8)) + 256 * b2n (bit r (64 + i % 8))

/-- A row with bits [lo + n − 1 : lo] replaced. -/
def rowPut (r : BitVec 72) (lo n v : Nat) : BitVec 72 :=
  BitVec.ofNat 72 (r.toNat - r.toNat / 2 ^ lo % 2 ^ n * 2 ^ lo + v % 2 ^ n * 2 ^ lo)

def BlockMem.setRow (b : BlockMem) (i : Nat) (v : BitVec 72) : BlockMem := { b with rows := tput (i % 1024) v b.rows }

def BlockMem.setNine (b : BlockMem) (i v : Nat) : BlockMem :=
  let r := b.row (i / 8)
  b.setRow (i / 8) (rowPut (rowPut r (8 * (i % 8)) 8 v) (64 + i % 8) 1 (v / 256))

/-- The word of a shape at an address, without the inline code (R229, R230). -/
def BlockMem.get (b : BlockMem) (shape addr : Nat) : BitVec 72 :=
  let w := shapeWidth shape
  if shape < 3 then
    let n := 64 / w
    BitVec.ofNat 72 ((b.row (addr / n)).toNat / 2 ^ (w * (addr % n)) % 2 ^ w)
  else if shape < 6 then
    let k := w / 9
    BitVec.ofNat 72 ((List.range k).foldl (fun a j => a + b.nine (addr * k + j) * 512 ^ j) 0)
  else b.row addr

def BlockMem.put (b : BlockMem) (shape addr : Nat) (v : BitVec 72) : BlockMem :=
  let w := shapeWidth shape
  if shape < 3 then
    let n := 64 / w
    b.setRow (addr / n) (rowPut (b.row (addr / n)) (w * (addr % n)) w v.toNat)
  else if shape < 6 then
    let k := w / 9
    (List.range k).foldl (fun b j => b.setNine (addr * k + j) (v.toNat / 512 ^ j % 512)) b
  else b.setRow addr v

/-- Bits in which two rows differ. -/
def rowDist (d d' : Word) (e e' : Byte) : Nat := popcount (d ^^^ d') + popcount (e ^^^ e')

/-- A code corrects any single-bit error and detects any double-bit error: its rows differ in four bits or more (R233). -/
def SecDed (code : Word → Byte) : Prop := ∀ d d' : Word, d ≠ d' → 4 ≤ rowDist d d' (code d) (code d')

/-- A read under the inline code (R233): the row after correction in place, the data presented, the error output. -/
def codedRead (code : Word → Byte) (r : BitVec 72) : BitVec 72 × BitVec 72 × Bool :=
  let d : Word := BitVec.ofNat 64 r.toNat
  let e : Byte := BitVec.ofNat 8 (r.toNat / 2 ^ 64)
  if code d = e then (r, d.setWidth 72, false)
  else
    match (List.range 64).find? (fun i => decide (code (d ^^^ (1#64 <<< i)) = e)) with
    | some i =>
      let d' := d ^^^ (1#64 <<< i)
      (BitVec.ofNat 72 (d'.toNat + e.toNat * 2 ^ 64), d'.setWidth 72, false)
    | none =>
      if (List.range 8).any (fun i => decide (code d = e ^^^ (1#8 <<< i))) then
        (BitVec.ofNat 72 (d.toNat + (code d).toNat * 2 ^ 64), d.setWidth 72, false)
      else (r, d.setWidth 72, true)

/-- Addresses of a shape wrap at the memory's size. -/
def shapeDepth (c : Nat) : Nat := ([65536, 32768, 16384, 8192, 4096, 2048, 1024] : List Nat).getD c 1024

/-- One port access: the memory, what the port's outputs then hold, and its error output (R231 to R233). -/
def BlockMem.access (b : BlockMem) (a : BmAccess) (last : BitVec 72) : BlockMem × BitVec 72 × Bool :=
  let addr := a.addr % shapeDepth a.shape.val
  let coded := a.code && decide (a.shape.val = 6)
  let rd (b : BlockMem) : BlockMem × BitVec 72 × Bool :=
    if coded then
      let r := codedRead Config.bmCode (b.row addr)
      (b.setRow addr r.1, r.2.1, r.2.2)
    else (b, b.get a.shape.val addr, false)
  match a.write with
  | none => rd b
  | some v =>
    let old := rd b
    let b' := if coded then
        b.setRow addr (BitVec.ofNat 72 (v.toNat % 2 ^ 64 + (Config.bmCode (BitVec.ofNat 64 v.toNat)).toNat * 2 ^ 64))
      else b.put a.shape.val addr v
    if a.mode.val = 0 then (b', old.2.1, old.2.2)
    else if a.mode.val = 1 then
      let new := rd b'
      (b', new.2.1, new.2.2)
    else (b', last, false)

/-- Does a queue controller own this block memory (R234)? -/
def Region.bmTaken (r : Region) (bm : Nat) : Bool := bm < 192 && (r.qc (bm / 4)).mode ≠ 0

/-- Can a port or an interface on a clock generator work: does the generator run (R222, R231, R235)? A handshake controller can. -/
def Region.clocked (r : Region) (clk : Option (Fin 4)) : Bool :=
  match clk with
  | some g => (tget {} r.gens g.val).run
  | none => true

/-- The read output after an access: what the output register still shows, and what it shows at the next edge (R231). -/
def portOut (a : BmAccess) (out data : BitVec 72) : BitVec 72 × Option (Nat × BitVec 72) :=
  match a.clk with
  | some g => if a.outReg then (out, some (g.val, data)) else (data, none)
  | none => (data, none)

def BlockMem.portA (m : BlockMem) (a : BmAccess) : BlockMem :=
  let o := m.access a m.lastA
  let q := portOut a m.outA o.2.1
  { o.1 with lastA := o.2.1, errA := o.2.2, outA := q.1, lateA := q.2, ackA := a.clk.isNone }
def BlockMem.portB (m : BlockMem) (a : BmAccess) : BlockMem :=
  let o := m.access a m.lastB
  let q := portOut a m.outB o.2.1
  { o.1 with lastB := o.2.1, errB := o.2.2, outB := q.1, lateB := q.2, ackB := a.clk.isNone }

/-- BLOCK_MEMORY_ACCESS (R231, R232): port A first; a port whose generator stands still does nothing. -/
def blockMemoryAccess (r bm : Nat) (a b : Option BmAccess) (s : State) : State :=
  let x := s.region r
  if !x.isOpen || x.bmTaken bm then s
  else
    let m : BlockMem := tget {} x.bms bm
    let m := match a.filter (fun q => x.clocked q.clk) with
      | some q => m.portA q
      | none => m
    let m := match b.filter (fun q => x.clocked q.clk) with
      | some q => m.portB q
      | none => m
    s.modRegion r (fun x => { x with bms := tput bm m x.bms })

/-! ## Queue controllers (R234 to R238) -/

def queueKey (r q : Nat) : Nat := 0xC000 + 0x400 * (r / 8) + 48 * (r % 8) + q
def QueueCtl.room (q : QueueCtl) : Nat := (q.depth.toNat + 1) * 32768

/-- BIND (R235). -/
def bind (r q dtile dctx drec : Nat) (enable : Bool) (clk : Option (Fin 4)) (s : State) : State :=
  let x := s.region r
  let c := x.qc q
  if !x.isOpen || !x.clocked clk || c.mode ≠ 1 || !c.fill.isEmpty || c.credit ≠ 0 then s
  else s.modRegion r (fun x => x.modQc q (fun c => { c with bound := if enable then some (dtile, dctx, drec) else none }))

/-- QUEUE_DATA_WORD (R235). -/
def queueDataWord (r q : Nat) (w : Word) (clk : Option (Fin 4)) (s : State) : State :=
  let x := s.region r
  let c := x.qc q
  if !x.isOpen || !x.clocked clk || c.mode ≠ 1 || c.room < c.fill.length + 8 then s
  else s.modRegion r (fun x => x.modQc q (fun c => { c with fill := c.fill ++ bytesOf 8 w.toNat }))

/-- Does a controller accept a grant of a task (R236)? -/
def State.queueTakes (s : State) (r q p c : Nat) (g : Grant) : Bool :=
  let x := s.region r
  let k := x.qc q
  match (s.ctx p c).task, k.bound, s.logicalOf p with
  | some t, some b, some l =>
    k.mode = 1 && decide (b.1 = l) && decide (b.2.1 = t.ctxCode) && decide (b.2.2 = g.record) && x.world == t.world && x.isOpen
  | _, _, _ => false

/-- Is a message for the port of region `r`? Its controllers take them in the order in which they come (R31, R236). -/
def toRegion (r : Nat) : Msg → Bool
  | .grant _ _ key _ _ _ => decide (0xC000 ≤ key) && decide (8 * (key / 0x400 % 16) + key % 0x400 / 48 = r)
  | _ => false

/-- QUEUE_GRANT (R236). -/
def queueGrant (r q : Nat) (s : State) : State :=
  let key := queueKey r q
  match s.msgs.find? (toRegion r) with
  | some (.grant t ctx k n w src) =>
    if k ≠ key then s
    else
    let s := { s with msgs := s.msgs.erase (.grant t ctx k n w src) }
    (match src with
    | none => s
    | some (p, c, xi, id) =>
      match (s.ctx p c).grants.find? (fun (g : Grant) => decide (g.id = id) && decide (g.key = key)) with
      | none => s
      | some g =>
        if s.queueTakes r q p c g then
          s.modRegion r (fun x => x.modQc q (fun y => { y with
            ranges := y.ranges ++ [{ p := p, ctx := c, xi := xi, id := id, off := g.lo, left := g.len }] }))
        else s.grantRefused src)
  | _ => s

/-- Has a controller a token to send: 256 bytes, or the rest of its first range (R237)? -/
def QueueCtl.ready (c : QueueCtl) : Bool :=
  match c.ranges with
  | g :: _ => c.bound.isSome && decide (min 256 g.left ≤ c.fill.length)
  | [] => false

/-- The controllers of a region that have a token to send, in order. -/
def Region.readyQs (x : Region) : List Nat := (x.qcs.filter (fun q => q.2.ready)).map (·.1)

/-- QUEUE_TOKEN_SEND (R234, R237): the controller whose turn it is at the region port sends; `ue` says that a word of the token is
uncorrectable in the memories of the queue: it goes as stored, so that its bytes are free values, and the error output rises. -/
def queueTokenSend (r q : Nat) (ue : Bool) (s : State) : State :=
  let x := s.region r
  let c := x.qc q
  match c.ranges, c.bound with
  | g :: rest, some b =>
    let n := min 256 g.left
    if !x.isOpen || c.fill.length < n || !nextServed x.served q x.readyQs then s
    else
      let data := if ue then (List.range n).map (fun i => Config.freeByte s.fresh i) else c.fill.take n
      let s := s.modRegion r (fun x => { x.modQc q (fun c => { c with
        fill := c.fill.drop n, err := c.err || ue
        ranges := if g.left ≤ n then rest else { g with off := g.off + n, left := g.left - n } :: rest }) with served := q })
      s.send (r / 8) (52 + r % 8) (.remote b.1 b.2.1 b.2.2 (queueKey r q) g.off data (decide (g.left ≤ n)) (.queue r q))
  | _, _ => s

/-! ## The region port (R239, R240) -/

/-- Give the fabric the responses that have come, in request order, as far as the buffer of 2 KiB takes them: `used` are the
bytes of read data that stand in it, and one response always finds room in an empty buffer, through which it passes. -/
def handOver : Nat → List PortReq → List PortReq × List (Bool × BitVec 8 × List Byte)
  | _, [] => ([], [])
  | used, q :: rest => match q.resp with
    | none => (q :: rest, [])
    | some r =>
      if used ≠ 0 && 2048 < used + r.2.length then (q :: rest, [])
      else
        let h := handOver (used + r.2.length) rest
        (h.1, (q.write, r.1, r.2) :: h.2)

/-- Bytes of read data that stand in the port's buffer. -/
def Region.givenBytes (r : Region) : Nat := r.given.foldl (fun a g => a + g.2.2.length) 0

/-- Hand over what the buffer takes. -/
def Region.hand (r : Region) : Region :=
  let h := handOver r.givenBytes r.reqs
  { r with reqs := h.1, given := r.given ++ h.2 }

/-- A response comes to the region port; a closing region discards it (R242, step 3). -/
def Region.answer (r : Region) (tag : Nat) (status : BitVec 8) (data : List Byte) : Region :=
  if r.closing.isSome || !r.isOpen then { r with reqs := r.reqs.filter (fun q => q.tag ≠ tag) }
  else ({ r with reqs := r.reqs.map (fun q => if q.tag = tag then { q with resp := some (status, data) } else q) } : Region).hand

/-- The fabric takes the oldest response from the port (R239). -/
def Region.portTake (r : Region) : Region := ({ r with given := r.given.drop 1 } : Region).hand

/-- REGION_PORT_REQUEST (R239, R253, R286): an address that no memory holds is answered with an error at once. -/
def regionPortRequest (r : Nat) (write : Bool) (addr len : Nat) (data : List Byte) (s : State) : State :=
  let x := s.region r
  if !x.isOpen || len = 0 || 4096 < len || 4096 < addr % 4096 + len || 4 ≤ x.reqs.length then s
  else
    let tag := x.nextTag
    let s := s.modRegion r (fun x => { x with reqs := x.reqs ++ [{ tag := tag, write := write }], nextTag := tag + 1, served := 48 })
    if !inMemSpace addr then s.modRegion r (fun x => x.answer tag 4 [])
    else s.sendReq { src := .region r tag, write := write, addr := addr, len := len, world := x.world
                     data := if write then (List.range len).map (fun i => data.getD i 0) else [] }

/-- The words that a token shows at the inbound interface: 256 bytes, the first marked. -/
def InTok.shown (t : InTok) : List InWord :=
  (List.range 32).map (fun i => { first := i = 0, die := t.die, port := t.port, cls := t.cls, w := t.words.getD i 0 })

/-- REGION_PORT_INBOUND_TOKEN (R240, R242): the fabric takes `taken` words, and the oldest waiting token is delivered when
the buffer of 2 KiB has room for it; a region that is not open refuses it. -/
def regionPortInboundToken (r taken : Nat) (s : State) : State :=
  s.modRegion r (fun x =>
    let inb := x.inbound.drop taken
    match x.arriving with
    | [] => { x with inbound := inb }
    | t :: rest =>
      if !x.isOpen then { x with arriving := rest }
      else if inb.length + 32 ≤ 256 then { x with arriving := rest, inbound := inb ++ t.shown }
      else { x with inbound := inb })

/-! ## GPIO pins (R244 to R247) -/

def State.pin (s : State) (i : Nat) : Pin := tget {} s.fab.pins i
def State.modPin (s : State) (i : Nat) (f : Pin → Pin) : State :=
  { s with fab := { s.fab with pins := tmod {} i f s.fab.pins } }

def Pin.src (p : Pin) : Nat := bits p.cfg 2 0
def Pin.dir (p : Pin) : Nat := bits p.cfg 4 3
def Pin.reg (p : Pin) : Nat := bits p.cfg 11 5
def Pin.sig (p : Pin) : Nat := bits p.cfg 17 12
def Pin.iso (p : Pin) : Nat := bits p.cfg 23 22
def Pin.inv (p : Pin) : Bool := bit p.cfg 24

/-- `GPIOCFG.PULL`. -/
def Pin.pull (p : Pin) : Nat := bits p.cfg 19 18

/-- Is an action entry of this pin pulsing (R350)? -/
def State.pulsing (s : State) (i : Nat) : Bool :=
  s.web.acts.any (fun a => decide (bits a.2.w1 25 24 = 2) && decide (128 * bits a.2.w0 54 54 + bits a.2.w0 62 56 = i))

/-- What pin 128m + p is driven to: nothing, or a level (R245 to R247, R350, R447). -/
def State.pinDrive (s : State) (i : Nat) : Option Bool :=
  let p := s.pin i
  if p.dir = 0 || s.rimInReset (i / 128) then none
  else if p.src = 1 then
    match p.hold with
    | some d => d
    | none => if p.dir = 1 || p.oe then some (p.val != p.inv) else none
  else if p.src = 2 then (if p.dir = 1 then some ((p.latch || s.pulsing i) != p.inv) else none)
  else none

/-- The drive of a pin while its source region is closed (R242, step 5). -/
def isoDrive (p : Pin) (now : Option Bool) : Option Bool :=
  if p.iso = 0 then some false else if p.iso = 1 then some true else if p.iso = 2 then none else now

/-- The level at a pin (R244, R245): its drive, what the board gives it, or what its pull option makes of it. A pin that nothing
drives or pulls floats: its level is a free value. -/
def State.pinLevel (s : State) (i : Nat) : Bool :=
  let p := s.pin i
  match s.pinDrive i with
  | some b => b
  | none => match p.level with
    | some b => b
    | none => if p.pull = 0 then bit (Config.freeWord s.fresh i) 3 else if p.pull = 1 then true else if p.pull = 2 then false else p.kept

/-- Hold every pin of a region at its `ISOVAL`. -/
def State.isolatePins (s : State) (r : Nat) : State :=
  (s.fab.pins.map (·.1)).foldl (fun s i =>
    let p := s.pin i
    if p.src = 1 && p.reg = r && p.dir ≠ 0 then
      let d := isoDrive p (s.pinDrive i)
      let l := s.pinLevel i
      s.modPin i (fun p => { p with hold := some d, kept := l })
    else s) s

/-! ## Closing a region (R242) -/

/-- Steps 1 to 5 of R242, with what follows the close. -/
def State.closeRegion (s : State) (r : Nat) (why : CloseWhy) (code : BitVec 2) : State :=
  let x := s.region r
  let refused := x.qcs.flatMap (fun q => q.2.ranges)
  let s := s.modRegion r (fun x => { x with
    state := code, closing := some why
    crossLast := if x.frames.isEmpty then [] else s.crossings r
    reqs := x.reqs.filter (fun q => q.resp.isNone)
    qcs := x.qcs.map (fun q => (q.1, { q.2 with bound := none, fill := [], ranges := [] })) })
  let s := refused.foldl (fun s g => s.grantRefused (some (g.p, g.ctx, g.xi, g.id))) s
  let s : State := { s with weevils := tmod ({} : Weevil) (r / 8) (fun w => if w.region.toNat = r % 8 then { w with pos := 0 } else w) s.weevils }
  s.isolatePins r

/-- Are steps 3 and 4 complete: is no request outstanding? -/
def Region.quiet (r : Region) : Bool := r.reqs.isEmpty

end Sys2Proof.Machine
end

