-- ==== Sys2Proof/Machine/Odometer.lean ====
section
/-!
DEFINITION. The Odometer and the action table (12: R339 to R353).
-/
set_option autoImplicit false
namespace Sys2Proof.Machine

/-! ## Channels -/

def State.odo (s : State) (c : Nat) : OdoCh := tget {} s.web.odo c
def State.modOdo (s : State) (c : Nat) (f : OdoCh → OdoCh) : State :=
  { s with web := { s.web with odo := tmod {} c f s.web.odo } }

def OdoCh.pos (o : OdoCh) (m : Nat) : BitVec 48 := if m = 0 then o.posW else o.posE
def OdoCh.setPos (o : OdoCh) (m : Nat) (v : BitVec 48) : OdoCh := if m = 0 then { o with posW := v } else { o with posE := v }
def OdoCh.pre (o : OdoCh) (m : Nat) : Option (BitVec 48 × BitVec 48) := if m = 0 then o.preW else o.preE
def OdoCh.setPre (o : OdoCh) (m : Nat) (v : Option (BitVec 48 × BitVec 48)) : OdoCh :=
  if m = 0 then { o with preW := v } else { o with preE := v }
/-- The phases last seen by a rim's decoder. -/
def OdoCh.seen (o : OdoCh) (m : Nat) : Bool × Bool := if m = 0 then (o.aW, o.bW) else (o.aE, o.bE)
def OdoCh.setSeen (o : OdoCh) (m : Nat) (a b : Bool) : OdoCh :=
  if m = 0 then { o with aW := a, bW := b } else { o with aE := a, bE := b }

/-- The pin of rim `m` that carries a phase of channel `c`: the lowest-numbered that names it (R339). -/
def State.phasePin (s : State) (m c ph : Nat) : Option Nat :=
  lowest 128 (fun p =>
    let x := s.pin (128 * m + p)
    x.src = 3 && x.dir = 0 && x.reg = 0 && x.sig = c + 4 * ph) |>.map (128 * m + ·)

/-- Is channel `c` live on rim `m` (R339)? -/
def State.live (s : State) (m c : Nat) : Bool :=
  (s.odo c).en && (s.phasePin m c 0).isSome && (s.phasePin m c 1).isSome

/-- The phase levels at the pins, after `GPIOCFG.INV` (R245). -/
def State.phases (s : State) (m c : Nat) : Bool × Bool :=
  let lv (ph : Nat) := match s.phasePin m c ph with
    | some i => s.pinLevel i != (s.pin i).inv
    | none => false
  (lv 0, lv 1)

/-- Does Q lie ahead of P, forward or in reverse (R341)? -/
def ahead (q p : BitVec 48) (rev : Bool) : Bool :=
  let d := if rev then (p - q).toNat else (q - p).toNat
  1 ≤ d && d < 2 ^ 47

/-! ## Action entries (R347 to R353) -/

def State.act (s : State) (i : Nat) : ActEntry := tget {} s.web.acts i
def State.modAct (s : State) (i : Nat) (f : ActEntry → ActEntry) : State :=
  { s with web := { s.web with acts := tmod {} i f s.web.acts } }

def ActEntry.target (a : ActEntry) : BitVec 48 := BitVec.ofNat 48 (bits a.w0 47 0)
def ActEntry.ch (a : ActEntry) : Nat := bits a.w0 49 48
def ActEntry.op (a : ActEntry) : Nat := bits a.w0 51 50
def ActEntry.rev (a : ActEntry) : Bool := bit a.w0 52
def ActEntry.late (a : ActEntry) : Bool := bit a.w0 53
def ActEntry.rim (a : ActEntry) : Nat := bits a.w0 54 54
def ActEntry.pin (a : ActEntry) : Nat := bits a.w0 62 56
def ActEntry.width (a : ActEntry) : Nat := bits a.w1 23 0
def ActEntry.st (a : ActEntry) : Nat := bits a.w1 25 24
def ActEntry.world (a : ActEntry) : World := bit a.w1 26
def ActEntry.tag (a : ActEntry) : Nat := bits a.w1 63 32
def ActEntry.setSt (a : ActEntry) (v : Nat) : ActEntry := { a with w1 := setBits a.w1 25 24 v }

/-- The position at which a pulse ends (R350). -/
def ActEntry.pulseEnd (a : ActEntry) : BitVec 48 :=
  if a.rev then a.target - BitVec.ofNat 48 a.width else a.target + BitVec.ofNat 48 a.width

/-- Action record of entry `i`: 0 FIRED, 1 LATE, 2 MISSED, 3 WITHDRAWN (R352, R399). -/
def State.actRecord (s : State) (i outcome : Nat) : State :=
  let a := s.act i
  s.emit 5 a.world (packF [(0, 14, i), (14, 2, outcome), (16, 2, a.ch)]) (((s.odo a.ch).pos a.rim).setWidth 64)
    (BitVec.ofNat 64 a.tag)

/-- An entry fires (R350, R352). -/
def State.fire (s : State) (i outcome : Nat) : State :=
  let a := s.act i
  let pin := 128 * a.rim + a.pin
  let s :=
    if a.op = 2 then s.modAct i (fun a => a.setSt 2)
    else
      (s.modPin pin (fun p => { p with latch := if a.op = 0 then true else if a.op = 1 then false else !p.latch })).modAct i
        (fun a => a.setSt 0)
  s.actRecord i outcome

/-- Judge an armed entry: passed in its direction, it fires late or is missed (R349). -/
def State.judge (s : State) (i : Nat) : State :=
  let a := s.act i
  if ahead a.target ((s.odo a.ch).pos a.rim) a.rev then s
  else if a.late then s.fire i 1
  else (s.modAct i (fun a => a.setSt 0)).actRecord i 2

/-- The indices of the entries that satisfy a condition, ascending. -/
def State.actsWhere (s : State) (f : ActEntry → Bool) : List Nat := (s.web.acts.filter (fun a => f a.2)).map (·.1)

/-- Withdraw an entry (R353). -/
def State.withdraw (s : State) (i : Nat) : State := (s.modAct i (fun a => a.setSt 0)).actRecord i 3

/-- What a count step does to an entry of its channel and rim (R349, R350). -/
def State.stepEntry (s : State) (i : Nat) (rev : Bool) (pos : BitVec 48) : State :=
  let a := s.act i
  if a.st = 1 && a.rev == rev && a.target = pos then s.fire i 0
  else if a.st = 2 && a.pulseEnd = pos then s.modAct i (fun a => a.setSt 0)
  else s

/-- The preset of a rim is applied: a jump (R344, R345, R349). -/
def State.applyPreset (s : State) (m c : Nat) (v : BitVec 48) : State :=
  let s := s.modOdo c (fun o => { (o.setPos m v).setPre m none with split := false })
  (s.actsWhere (fun a => a.st ≠ 0 && a.ch = c && a.rim = m)).foldl (fun s i =>
    if (s.act i).st = 2 then s.modAct i (fun a => a.setSt 0) else s.judge i) s

/-- One count step of a channel on a rim (R340, R344, R345, R349). -/
def State.countOne (s : State) (m c : Nat) (rev : Bool) : State :=
  let o := s.odo c
  let pos := if rev then o.pos m - 1 else o.pos m + 1
  let jump := match o.pre m with
    | some (at_, v) => if at_ = pos then some v else none
    | none => none
  let s := match jump with
    | some v => s.applyPreset m c v
    | none =>
      let s := s.modOdo c (fun o => o.setPos m pos)
      (s.actsWhere (fun a => a.st ≠ 0 && a.ch = c && a.rim = m)).foldl (fun s i => s.stepEntry i rev pos) s
  let now := (s.odo c).pos m
  if (o.refE == decide (m = 1)) && now.toNat % 65536 = 0 then s.modOdo c (fun o => { o with sent := o.sent ++ [(o.refE, now)] }) else s

/-- COUNT_STEP (R340): the levels at the phase pins of channel `c` on rim `m` are now `a` and `b`. -/
def countStep (m c : Nat) (a b : Bool) (s : State) : State :=
  let put (s : State) (ph : Nat) (v : Bool) : State := match s.phasePin m c ph with
    | some i => s.modPin i (fun p => { p with level := v })
    | none => s
  let s := put (put s 0 a) 1 b
  if !s.live m c then s
  else
    let (pa, pb) := (s.odo c).seen m
    let (na, nb) := s.phases m c
    let s := s.modOdo c (fun o => o.setSeen m na nb)
    if pa = na && pb = nb then s
    else if pa != na && pb != nb then s.modOdo c (fun o => { o with illegal := satInc o.illegal })
    else
      let fwd := if pa != na then na != nb else nb == na
      s.countOne m c (fwd == (s.odo c).inv)

/-- POSITION_COMPARISON (R345). -/
def positionComparison (c : Nat) (s : State) : State :=
  let o := s.odo c
  match o.sent with
  | [] => s
  | (fromE, q) :: rest =>
    let s := s.modOdo c (fun o => { o with sent := rest })
    let m := if fromE then 0 else 1
    let own := o.pos m
    let d := min (own - q).toNat (q - own).toNat
    if s.live m c && 8 < d then
      (s.modOdo c (fun o => { o with split := true })).emit 4 false (BitVec.ofNat 64 c) (q.setWidth 64) (own.setWidth 64)
    else s

/-! ## A channel starts or stops being live (R353) -/

/-- Bring decoders, presets and entries to the state that follows a change of pins or of `ODOCFG`; `was` says which
channels were live and on which pins. -/
def State.relive (s : State) (was : List (Nat × Nat × Bool × Option Nat × Option Nat)) (also : ActEntry → Bool) : State :=
  let gone (s : State) (m c : Nat) : Bool := was.any (fun w => decide (w.1 = m) && decide (w.2.1 = c) && w.2.2.1) && !s.live m c
  let lost := s.actsWhere (fun a => a.st ≠ 0 && (gone s a.rim a.ch || also a))
  let s := was.foldl (fun s w =>
    let m := w.1
    let c := w.2.1
    if s.live m c then
      if w.2.2.1 && w.2.2.2.1 = s.phasePin m c 0 && w.2.2.2.2 = s.phasePin m c 1 then s
      else s.modOdo c (fun o => o.setSeen m (s.phases m c).1 (s.phases m c).2)
    else if w.2.2.1 then s.modOdo c (fun o => o.setPre m none) else s) s
  lost.foldl (fun s i => s.withdraw i) s

/-- Which channels are live now, and on which pins. -/
def State.lives (s : State) : List (Nat × Nat × Bool × Option Nat × Option Nat) :=
  (List.range 8).map (fun i => (i / 4, i % 4, s.live (i / 4) (i % 4), s.phasePin (i / 4) (i % 4) 0, s.phasePin (i / 4) (i % 4) 1))

/-- ODOCFG_WRITE (R342, R353). -/
def odocfgWrite (w : World) (c : Nat) (v : Word) (s : State) : State :=
  if !w then s
  else
    let was := s.lives
    (s.modOdo c (fun o => { o with en := bit v 0, inv := bit v 1, refE := bit v 2 })).relive was (fun _ => false)

/-- `ODOCFG`, `ODOPOS`, `ODOSTAT` (R342, R343). -/
def OdoCh.cfgWord (o : OdoCh) : Word := packF [(0, 1, b2n o.en), (1, 1, b2n o.inv), (2, 1, b2n o.refE)]
def State.odoPos (s : State) (m c : Nat) : Word :=
  packF [(0, 48, ((s.odo c).pos m).toNat), (48, 1, b2n (s.live m c)), (49, 1, b2n ((s.odo c).pre m).isSome)]
def OdoCh.statWord (o : OdoCh) : Word := packF [(0, 16, o.illegal.toNat), (16, 1, b2n o.split)]

/-! ## Presets and action commands (R344, R348, R352) -/

/-- Arm a preset, or refuse it with PARAM (R344). -/
def State.preset (s : State) (c : Nat) (at_ v : BitVec 48) (mark : Mark) : State × BitVec 8 :=
  let rims := (List.range 2).filter (fun m => s.live m c)
  let far (m : Nat) : Bool :=
    let p := (s.odo c).pos m
    let d := (at_ - p).toNat
    let r := (p - at_).toNat
    (1024 ≤ d && d < 2 ^ 47) || (1024 ≤ r && r < 2 ^ 47)
  if rims.all far then
    (rims.foldl (fun s m => s.modOdo c (fun o =>
      let o := o.setPre m (some (at_, v))
      if m = 0 then { o with markW := some mark } else { o with markE := some mark })) s, stOK)
  else (s, stPARAM)

/-- Do the words of an arming command break R347 or R348? -/
def State.armBad (s : State) (a : ActEntry) : Bool :=
  let p := s.pin (128 * a.rim + a.pin)
  bit a.w0 55 || bit a.w0 63 || bits a.w1 31 24 ≠ 0 || ((a.width = 0) == (a.op = 2)) || p.src ≠ 2 || p.dir ≠ 1 ||
  !s.live a.rim a.ch

/-- Arm an entry (R348, R349). -/
def State.arm (s : State) (i : Nat) (w0 w1 : Word) (w : World) (mark : Mark) : State × BitVec 8 :=
  let old := s.act i
  if !w && old.world then (s, stWORLD)
  else if s.armBad { w0 := w0, w1 := w1 } then (s, stPARAM)
  else if old.st ≠ 0 then (s, stSTATE)
  else
    let w1 := w1 ||| packF [(24, 2, 1), (26, 1, b2n w)]
    ((s.modAct i (fun _ => { w0 := w0, w1 := w1, mark := some mark })).judge i, stOK)

/-- Cancel an entry (R352). -/
def State.unarm (s : State) (i : Nat) (w : World) (mark : Mark) : State × BitVec 8 :=
  let a := s.act i
  if !w && a.world then (s, stWORLD)
  else if a.st = 0 then (s, stSTATE)
  else (s.modAct i (fun a => { a.setSt 0 with mark := some mark }), stOK)

end Sys2Proof.Machine
end

