-- ==== Sys2Proof/Machine/Gpio.lean ====
section
/-!
DEFINITION. General-purpose I/O, forwarded clocks and Firefly probes (08: R224, R225, R244 to R251).
-/
set_option autoImplicit false
namespace Sys2Proof.Machine

/-! ## GPIOCFG (R245, R353) -/

/-- The RW fields of a written `GPIOCFG`; a reserved value leaves its field (R9). -/
def gpioMerge (pin : Nat) (old v : Word) : Word :=
  let src := bits v 2 0
  let src := if 5 ≤ src || (src = 4 && pin % 16 ≠ 0) then bits old 2 0 else src
  let dir := if bits v 4 3 = 3 then bits old 4 3 else bits v 4 3
  packF [(0, 3, src), (3, 2, dir), (5, 20, bits v 24 5)]

/-- What a pin is held at after its word is written (R242): its `ISOVAL` while its region is closed, and as before while it
names the same signal in the same direction. -/
def State.newHold (s : State) (old : Pin) (now : Option Bool) (new : Pin) : Option (Option Bool) :=
  if new.src ≠ 1 then none
  else if !(s.region new.reg).isOpen then some (isoDrive new now)
  else if old.src = 1 && old.reg = new.reg && old.sig = new.sig && old.dir = new.dir then old.hold
  else none

/-- Value and enable of a pin that names a signal: as the last token of its region gave them to rim `m`; before one has come the
spec gives none, and both are free values (log entry 47). -/
def State.sigNow (s : State) (m i : Nat) (p : Pin) : Bool × Bool :=
  match tlook (128 * m + p.reg) s.fab.ioLast with
  | some t => (bit t.1 p.sig, bit t.2 p.sig)
  | none => (bit (Config.freeWord s.fresh i) 0, bit (Config.freeWord s.fresh i) 1)

/-- `GPIOCFG` as read (R245): a driven pin shows its own drive. -/
def State.gpioWord (s : State) (i : Nat) : Word :=
  (s.pin i).cfg ||| packF [(32, 1, b2n (s.pinLevel i)), (33, 2, (tget 0 s.fab.bankV (i / 32)).toNat)]

/-! ## I/O channels (R246, R247) -/

/-- The rims that a region's outputs go to. -/
def State.ioMask (s : State) (r : Nat) : List Nat :=
  (List.range 2).filter (fun m => s.fab.pins.any (fun p => decide (p.1 / 128 = m) && decide (p.2.src = 1) && decide (p.2.reg = r)))

/-- The three words of an outbound token (R247). -/
def Region.ioWords (x : Region) (r : Nat) : Word × Word × Word := (packF [(0, 2, 1), (2, 7, r)], x.ioVal, x.ioOe)

/-- Send the present value of all 64 signals to each rim of the mask. -/
def State.ioSend (s : State) (r : Nat) : State :=
  let toks := (s.ioMask r).map (fun m => (m, r, (s.region r).ioWords r))
  let s := { s with fab := { s.fab with ioToks := s.fab.ioToks ++ toks } }
  s.modRegion r (fun x => { x with ioPend := false })

def State.ioFlying (s : State) (r : Nat) : Bool := s.fab.ioToks.any (fun t => decide (t.2.1 = r))

/-- IO_OUTPUT_CHANGE (R246). -/
def ioOutputChange (r : Nat) (val oe : Word) (s : State) : State :=
  let x := s.region r
  if !x.isOpen || (x.ioVal = val && x.ioOe = oe) then s
  else
    let s := s.modRegion r (fun x => { x with ioVal := val, ioOe := oe, ioPend := true })
    if s.ioFlying r then s else s.ioSend r

/-- `IOH.VAL` of an inbound token: each signal at the lowest-numbered pin of the rim that names it as input (R247). -/
def State.ioInputs (s : State) (m r : Nat) : Word :=
  (List.range 64).foldl (fun a sg =>
    match lowest 128 (fun p =>
        let x := s.pin (128 * m + p)
        x.src = 1 && x.reg = r && x.sig = sg && (x.dir = 0 || x.dir = 2)) with
    | some p =>
      let x := s.pin (128 * m + p)
      if s.pinLevel (128 * m + p) != x.inv then a ||| (1#64 <<< sg) else a
    | none => a) 0

/-- The inbound token of rim `m` for a region, and its sending from port 48 (R246, R247). -/
def State.ioInTok (s : State) (m r : Nat) : InTok :=
  { die := 16 + m, port := 48, cls := 6, words := [packF [(0, 2, 2), (2, 7, r), (9, 1, m)], s.ioInputs m r, 0] }
def State.ioTell (s : State) (m r : Nat) : State :=
  s.modRegion r (fun x => { x with arriving := x.arriving ++ [s.ioInTok m r] })

/-- A bus keeper holds the level that was at its pin. -/
def State.keepPins (s t : State) : State :=
  { t with fab := { t.fab with pins := t.fab.pins.map (fun p => (p.1, { p.2 with kept := s.pinLevel p.1 })) } }

/-- The pins whose levels differ from `s` to `t`. -/
def State.changedPins (s t : State) : List Nat := (t.fab.pins.map (·.1)).filter (fun i => s.pinLevel i != t.pinLevel i)

/-- The rim and region of a pin that feeds an input of its region. -/
def State.pinFeeds (t : State) (i : Nat) : Option (Nat × Nat) :=
  let p := t.pin i
  if p.src = 1 && p.dir ≠ 1 && !t.rimInReset (i / 128) then some (i / 128, p.reg) else none

/-- An edge of a forwarded clock source in the open pace window (R224, R225). -/
def State.clockSeen (t : State) (i : Nat) : State :=
  if (t.pin i).src = 4 then { t with fab := { t.fab with edges := tput (8 * (i / 128) + i % 128 / 16) 2 t.fab.edges } } else t

/-- What follows a change of pins from `s` to `t` (R225, R244, R246): bus keepers keep the levels that were, each rim with a changed
pin that feeds a region tells that region, and forwarded clock sources show edges. -/
def State.pinsFollow (s t : State) : State :=
  let t := s.keepPins t
  let ch := s.changedPins t
  let t := ((ch.filterMap t.pinFeeds).eraseDups).foldl (fun t mr => t.ioTell mr.1 mr.2) t
  ch.foldl (fun t i => t.clockSeen i) t

/-- IO_INPUT_CHANGE (R224, R244, R246): the board drives a pin to a level, or lets it go; a driven pin keeps its own. -/
def ioInputChange (m p : Nat) (level : Option Bool) (s : State) : State :=
  s.pinsFollow (s.modPin (128 * m + p) (fun x => { x with level := level }))

/-- GPIOCFG_WRITE (R245, R246, R350, R353). -/
def gpiocfgWrite (w : World) (m p : Nat) (v : Word) (s : State) : State :=
  if !w then s
  else
    let i := 128 * m + p
    let was := s.lives
    let old := s.pin i
    let now := s.pinDrive i
    let new := { old with cfg := gpioMerge p old.cfg v }
    let sig := s.sigNow m i new
    let same := old.src = 1 && old.reg = new.reg && old.sig = new.sig
    let driven := new.src = 2 && new.dir = 1
    let new := { new with
      hold := s.newHold old now new, latch := old.latch && driven && old.src = 2 && old.dir = 1
      val := if same then old.val else sig.1, oe := if same then old.oe else sig.2 }
    let t := s.pinsFollow (s.modPin i (fun _ => new))
    let t := if new.src = 4 then t else { t with fab := { t.fab with edges := if p % 16 = 0 then tput (8 * m + p / 16) 0 t.fab.edges else t.fab.edges } }
    t.bump.relive was (fun a => !driven && decide (128 * a.rim + a.pin = i))

/-- The pins of rim `m` that name region `r` take the values of a valid token (R247). -/
def State.ioDrive (s : State) (m r : Nat) (val oe : Word) : State :=
  { s with fab := { s.fab with
    pins := s.fab.pins.map (fun p =>
      if p.1 / 128 = m && p.2.src = 1 && p.2.reg = r then
        (p.1, { p.2 with val := bit val p.2.sig, oe := bit oe p.2.sig, hold := none })
      else p)
    ioLast := tput (128 * m + r) (val, oe) s.fab.ioLast } }

/-- Does rim `m` take an I/O-channel token from the port of region `r` (R247)? -/
def State.ioValid (s : State) (r : Nat) (w0 : Word) : Bool :=
  decide (bits w0 1 0 = 1) && decide (bits w0 8 2 = r) && (s.region r).isOpen

/-- IO_CHANNEL_TOKEN (R246, R247): the oldest token for port 48 of rim `m`. -/
def ioChannelToken (m : Nat) (s : State) : State :=
  match s.fab.ioToks.find? (fun t => decide (t.1 = m)) with
  | none => s
  | some t =>
    let r := t.2.1
    let s := { s with fab := { s.fab with ioToks := s.fab.ioToks.erase t } }
    let s := if s.ioValid r t.2.2.1 then s.pinsFollow (s.ioDrive m r t.2.2.2.1 t.2.2.2.2) else s
    if (s.region r).ioPend && !s.ioFlying r then s.ioSend r else s

/-! ## Forwarded clocks and probes (R225, R248 to R250) -/

/-- `FWDCK` after a write; a reserved value leaves its field. -/
def fwdckMerge (old v : Word) : Word :=
  let src := if bits v 1 0 = 3 then bits old 1 0 else bits v 1 0
  let lane := if 48 ≤ bits v 7 2 then bits old 7 2 else bits v 7 2
  packF [(0, 2, src), (2, 6, lane)]

/-- A secure write of `FWDCK` 8m + k: a new source has shown no edge yet. -/
def State.fwdckWrite (s : State) (i : Nat) (v : Word) : State :=
  let old := tget 0 s.fab.fwdck i
  let new := fwdckMerge old v
  let edges := if new = old then s.fab.edges else tput i 0 s.fab.edges
  { s with fab := { s.fab with fwdck := tput i new s.fab.fwdck, edges := edges } }

/-- `FWDCK` as read: a lane's word clock runs while the lane is enabled. -/
def State.fwdckWord (s : State) (i : Nat) : Word :=
  let w := tget 0 s.fab.fwdck i
  let live := if bits w 1 0 = 1 then tget 0 s.fab.edges i ≠ 0
    else if bits w 1 0 = 2 then bit (tget ({} : Lane) s.ser.lanes (48 * (i / 8) + bits w 7 2)).cfg 0 else false
  w ||| packF [(16, 1, b2n live)]

/-- `FFSEL` after a write (R248). Its CELL field is CODE with KIND 2. -/
def ffselMerge (old v : Word) : Word :=
  let kind := if bits v 1 0 = 3 then bits old 1 0 else bits v 1 0
  let cell := bits v 22 5
  let bad := if kind = 1 then 150000 ≤ cell else if kind = 2 then 0x524 ≤ cell || (cell < 0x340 && 8 ≤ cell % 16) else false
  let cell := if bad then bits old 22 5 else cell
  let out := if kind = 1 && 4 ≤ bits v 25 23 then bits old 25 23 else bits v 25 23
  packF [(0, 2, kind), (2, 3, bits v 4 2), (5, 18, cell), (23, 3, out)]

/-- `FFLAND` after a write (R250): a land of W shows dies of columns 0 and 1, of E those of columns 2 and 3. -/
def fflandMerge (m : Nat) (old v : Word) : Word :=
  let die := if bits v 3 0 % 4 / 2 = m then bits v 3 0 else bits old 3 0
  packF [(0, 4, die), (4, 4, bits v 7 4), (8, 1, bits v 8 8)]

end Sys2Proof.Machine
end

