-- ==== Sys2Proof/Machine/Ingress.lean ====
section
/-!
DEFINITION. Web ingress (12: R354 to R366): tokens, admission, the port buffer, line parts and fate records.
-/
set_option autoImplicit false
namespace Sys2Proof.Machine

def State.stream_ (s : State) (i : Nat) : Stream := tget {} s.web.streams i
def State.modStream (s : State) (i : Nat) (f : Stream → Stream) : State :=
  { s with web := { s.web with streams := tmod {} i f s.web.streams } }

/-! ## Configuration fields (R356) -/

def Stream.en (t : Stream) : Bool := bit t.cfg0 0
def Stream.world (t : Stream) : World := bit t.cfg0 1
def Stream.two (t : Stream) : Bool := bit t.cfg0 2
def Stream.sbits (t : Stream) : Nat := bits t.cfg0 6 3
def Stream.e (t : Stream) : Nat := bits t.cfg0 10 7
def Stream.edec (t : Stream) : Nat := bits t.cfg0 14 11
def Stream.ch (t : Stream) : Nat := bits t.cfg0 16 15
def Stream.dlevel (t : Stream) : Nat := bits t.cfg0 18 17
def Stream.region (t : Stream) : Nat := bits t.cfg0 30 24
def Stream.linem1 (t : Stream) : Nat := bits t.cfg0 47 32
def Stream.offset (t : Stream) : Int := sext 32 (bits t.cfg1 31 0)
def Stream.livewin (t : Stream) : Nat := bits t.cfg1 55 32
def Stream.sbase (t : Stream) : Nat := bits t.cfg2 39 0
def Stream.nslot (t : Stream) : Nat := 2 ^ bits t.cfg2 44 40
def Stream.dslots (t : Stream) : Nat := bits t.cfg2 63 48
/-- LINEB (R354) and STRIDE (R357). -/
def Stream.lineb (t : Stream) : Nat := (t.linem1 + 1) * (if t.two then 2 else 1)
def Stream.stride (t : Stream) : Nat := 4096 * cdiv (t.lineb + 1024) 4096
def Stream.slotOf (t : Stream) (l : Nat) : Nat := t.sbase + l % t.nslot * t.stride

/-- Does SBITS fit SAMPLE? -/
def sbitsOk (v : Word) : Bool := if bit v 2 then 8 ≤ bits v 6 3 else bits v 6 3 = 7

/-! ## Line data (R360, R365, R366) -/

/-- Arrived bytes of part `k` of a line. -/
def Line.partLen (l : Line) (k : Nat) : Nat := min 1024 (l.data.length - 1024 * k)
/-- Bytes of the reservation still held (R360). -/
def Line.reserved (l : Line) : Nat :=
  if l.fate = 3 then 0 else (if l.ended then l.data.length else l.lineb) - l.freed
/-- Bytes held in the port buffer. -/
def Line.held (l : Line) : Nat := if l.fate = 3 then 0 else l.data.length - l.freed

/-- The stored samples of a part under bound `ep` with b significant bits (R365). -/
def codecGo (b ep : Nat) : Nat → List Nat → List Nat
  | _, [] => []
  | p, x :: rest =>
    let x := x % 2 ^ b
    let r : Int := (x : Int) - p
    let q : Int := (2 * ep + 1 : Nat)
    let m : Int := ((r.natAbs + ep) / (2 * ep + 1) : Nat)
    let y := (p : Int) + (if r < 0 then -m else m) * q
    let y := if y < 0 then 0 else if (2 ^ b : Nat) ≤ y then 2 ^ b - 1 else y.toNat
    y :: codecGo b ep y rest

/-- The bytes that every read of a part returns. -/
def codec (two : Bool) (sbits ep : Nat) (bs : List Byte) : List Byte :=
  let n := if two then 2 else 1
  let xs := (chunks n bs.length bs).map natOfBytes
  (codecGo (sbits + 1) ep (2 ^ sbits) xs).flatMap (bytesOf n)

/-- Parts of a line. -/
def Line.parts (l : Line) : Nat := cdiv l.lineb 1024

/-- Part `k` as stored: bound 0 when any byte was kept; padded with zero samples. -/
def Line.part (l : Line) (k : Nat) : List Byte :=
  let bs := (l.data.drop (1024 * k)).take 1024
  let kept := bs.any (·.2)
  let raw := (List.range 1024).map (fun i => (bs.getD i (0, false)).1)
  codec l.two l.sbits (if kept then 0 else l.ebound) raw

/-- May part `k` be written: is it whole, or has the line ended? -/
def Line.ready (l : Line) (k : Nat) : Bool := l.fate ≠ 3 && k < l.parts && (l.ended || 1024 * (k + 1) ≤ l.data.length)

/-- Hand every ready part of the stream's lines to the memory, unless it is written already. -/
def State.issueParts (s : State) (st : Nat) : State :=
  (s.stream_ st).lines.foldl (fun s l =>
    let n := ((List.range l.parts).filter (fun k => l.ready k)).length
    let ks := (List.range n).filter (fun k => decide (l.issued ≤ k) && !l.acked.contains k)
    let s := ks.foldl (fun s k => s.sendReq {
      src := .line st l.seq k, write := true, addr := l.slot + 1024 + 1024 * k, len := 1024, data := l.part k, world := l.world }) s
    s.modStream st (fun t => { t with lines := t.lines.map (fun x =>
      if x.seq = l.seq then { x with issued := max x.issued n } else x) })) s

/-! ## Records (R357, R363) -/

/-- The fate record (R363). -/
def Line.record (l : Line) (st : Nat) : List Byte :=
  bytesOfWords [
    packF [(0, 48, l.seq), (48, 2, l.fate), (50, 1, b2n (l.defd && l.fate = 2)), (51, 1, b2n l.fw), (52, 1, b2n l.kept),
      (53, 1, b2n l.short), (54, 1, b2n l.extra), (55, 1, b2n l.ptag), (56, 5, st), (61, 1, b2n l.nopos)],
    packF [(0, 48, l.pos.toNat), (48, 2, l.ch)],
    packF [(0, 32, min l.run 0xFFFFFFFF), (32, 4, l.ebound)],
    packF [(0, 48, l.runPos.toNat)]]

/-- A line loses its data after admission: it gives back all that it holds (R359, R360). -/
def State.loseLine (s : State) (st seq : Nat) : State :=
  match (s.stream_ st).lines.find? (fun l => decide (l.seq = seq) && decide (l.fate ≠ 3)) with
  | none => s
  | some l =>
    let s := s.rtFill st (fun f => f - l.held)
    s.modStream st (fun t => { t with
      lost := satInc t.lost
      lines := t.lines.map (fun x => if x.seq = seq then { x with fate := 3, defd := false, data := [] } else x) })

/-- A slot write that the region table refuses disables the stream (R357, R399). -/
def State.streamRefused (s : State) (st addr : Nat) : State :=
  let t := s.stream_ st
  if t.en then
    let s := s.emit 6 t.world (BitVec.ofNat 64 st) (BitVec.ofNat 64 addr) 0
    s.modStream st (fun t => { t with cfg0 := setBits t.cfg0 0 0 0, cur := none, lines := t.lines.map (fun l => if l.ended then l else { l with ended := true, short := true }) })
  else s

/-- Is a line's data written, so that its record may be? -/
def Line.written (l : Line) : Bool := l.ended && (l.fate = 3 || l.acked.length = l.parts)

/-- Send the record of the oldest line, once its data is written, as the write after its parts (R357). -/
def State.sendRecord (s : State) (st : Nat) : State :=
  match (s.stream_ st).lines with
  | [] => s
  | l :: _ =>
    if !l.written || l.recSent || s.boot.phase = .warm || s.rimInReset (st / 16) then s
    else
      (s.sendReq { src := .line st l.seq l.parts, write := true, addr := l.slot, len := 1024
                   data := l.record st ++ List.replicate 992 0, world := l.world }).modStream st (fun t => { t with
        lines := t.lines.map (fun x => if x.seq = l.seq then { x with recSent := true } else x) })

/-- Move a stream on: issue ready parts, send the record that is ready. -/
def State.streamGo (s : State) (st : Nat) : State := (s.issueParts st).sendRecord st

/-! ## Tokens and admission (R354, R355, R358 to R360) -/

/-- End the line in progress. -/
def Stream.endLine (t : Stream) (short : Bool) : Stream :=
  { t with cur := none, lines := t.lines.map (fun l =>
    if l.ended then l else { l with ended := true, short := l.short || short }) }

/-- Are tokens admitted: is the device Running or in Freewheel (R387)? -/
def State.ingressOn (s : State) : Bool := s.keel.dstate = .running || s.keel.dstate = .freewheel

/-- Bytes of a stream's port buffer not reserved (R360). -/
def Stream.unreserved (t : Stream) : Nat := 524288 - t.lines.foldl (fun a l => a + l.reserved) 0

/-- Take the START of a line (R358, R359). -/
def State.startLine (s : State) (st : Nat) (ptag : Option (BitVec 48)) : State :=
  let t := s.stream_ st
  let m := st / 16
  let pos := ptag.getD ((s.odo t.ch).pos m)
  let tag := pos + BitVec.ofInt 48 t.offset
  let backlog := t.next.toNat - t.rel.toNat
  if s.boot.phase = .warm || s.rimInReset (st / 16) || t.nslot ≤ backlog then
    s.modStream st (fun t => { t with
      cur := some t.lineb, run := t.run + 1, lost := satInc t.lost, runPos := if t.run = 0 then tag else t.runPos })
  else
    let fw := s.keel.dstate = .freewheel
    let store := decide (t.lineb ≤ t.unreserved)
    let deferred := fw || decide (t.livewin < backlog)
    let level := (tget ({} : RtPort) s.mem.rtport st).level.toNat
    let dec := (t.dlevel ≠ 0 && decide (t.dlevel ≤ level)) || decide (t.nslot - backlog ≤ t.dslots)
    let fate := if !store then 3 else if dec then 2 else if deferred then 1 else 0
    let l : Line := {
      seq := t.next.toNat, fate := fate, defd := dec && deferred, fw := fw, extra := t.extra, ptag := ptag.isSome
      nopos := !s.live m t.ch, pos := tag, run := t.run, runPos := if t.run = 0 then 0 else t.runPos, ch := t.ch
      lineb := t.lineb, slot := t.slotOf t.next.toNat, ebound := if fate = 2 then t.edec else t.e, two := t.two
      sbits := t.sbits, world := t.world }
    s.modStream st (fun t => { t with
      cur := some t.lineb, next := t.next + 1, run := 0, runPos := 0, extra := false, lines := t.lines ++ [l]
      lost := if fate = 3 then satInc t.lost else t.lost })

/-- Take data bytes of the line in progress (R355). -/
def State.lineData (s : State) (st : Nat) (bs : List Byte) (keep : Bool) : State :=
  let t := s.stream_ st
  match t.cur with
  | none => s.modStream st (fun t => { t with extra := true })
  | some n =>
    let took := bs.take n
    let stored := t.lines.any (fun l => !l.ended && decide (l.fate ≠ 3))
    let s := s.modStream st (fun t => { t with
      cur := some (n - took.length), extra := t.extra || decide (n < bs.length)
      lines := t.lines.map (fun l =>
        if l.ended || l.fate = 3 then l
        else { l with data := l.data ++ took.map (fun b => (b, keep)), kept := l.kept || keep }) })
    let s := if stored then s.rtFill st (· + took.length) else s
    if n ≤ bs.length then s.modStream st (fun t => t.endLine false) else s

/-- Does a token break R354? -/
def badHeader (ws : List Word) : Bool :=
  let h := ws.getD 0 0
  let cnt := bits h 12 8
  let ptag := bit h 5
  bit h 7 || bits h 63 13 ≠ 0 || cnt = 0 || (ptag && 30 < cnt) || (ptag && !bit h 4) || ws.length < 1 + b2n ptag + cnt

/-- INGRESS_TOKEN (R354): a token from region `r` at port 46 of rim `m`. -/
def ingressToken (m r : Nat) (ws : List Word) (s : State) : State :=
  let h := ws.getD 0 0
  let st := 16 * m + bits h 3 0
  let t := s.stream_ st
  if badHeader ws || !t.en || !s.ingressOn || t.region ≠ r || ((s.region r).world != t.world) then
    s.modStream st (fun t => { t with badtok := satInc t.badtok })
  else
    let ptag := bit h 5
    let data := bytesOfWords ((ws.drop (1 + b2n ptag)).take (bits h 12 8))
    let s := if bit h 4 then
        (s.modStream st (fun t => if t.cur.isSome then t.endLine true else t)).startLine st
          (if ptag then some (BitVec.ofNat 48 (bits (ws.getD 1 0) 47 0)) else none)
      else s
    (s.lineData st data (bit h 6)).streamGo st

/-- The response to a line part. -/
def lineResp (st : Nat) (r : MemResp) : Option (Nat × Nat) :=
  match r.src with
  | .line t seq k => if t = st then some (seq, k) else none
  | _ => none

/-- A part of a line's data has been answered: written, lost, or refused (R359, R360). -/
def State.partAnswered (s : State) (st : Nat) (l : Line) (k : Nat) (status : BitVec 8) : State :=
  let n := l.partLen k
  if l.fate = 3 then s
  else if status = 0 then
    let s := s.rtFill st (fun f => f - n)
    s.modStream st (fun t => { t with lines := t.lines.map (fun x =>
      if x.seq = l.seq then { x with acked := x.acked ++ [k], freed := x.freed + n } else x) })
  else
    let s := s.loseLine st l.seq
    if status = 2 || status = 1 then s else s.streamRefused st (l.slot + 1024 + 1024 * k)

/-- The record of a line has been answered: DONE passes the line, which is LOST where its slot write was refused (R357, R359). -/
def State.recordAnswered (s : State) (st : Nat) (l : Line) (status : BitVec 8) : State :=
  let s := if status.toNat ≤ 2 then s else (s.loseLine st l.seq).streamRefused st l.slot
  s.modStream st (fun t => { t with
    lines := t.lines.filter (fun x => decide (x.seq ≠ l.seq)), done := BitVec.ofNat 48 (l.seq + 1) })

/-- LINE_PART_WRITTEN (R357, R359, R360): the oldest response for a line part, or for a record, of stream `st`. -/
def linePartWritten (st : Nat) (s : State) : State :=
  match s.mem.resps.find? (fun r => (lineResp st r).isSome) with
  | none => s
  | some r =>
    let s := s.setMem (fun m => { m with resps := m.resps.erase r })
    match lineResp st r with
    | none => s
    | some (seq, k) =>
      match (s.stream_ st).lines.find? (fun l => decide (l.seq = seq)) with
      | none => s
      | some l =>
        (if k = l.parts then s.recordAnswered st l r.status else s.partAnswered st l k r.status).streamGo st

/-! ## Stream words (R356, R364) -/

/-- A written `INGCFG0`: reserved values leave their fields (R9). -/
def ingMerge0 (old v : Word) : Word :=
  let sb := if sbitsOk v then bits v 6 3 else bits old 6 3
  let lm := if bits v 47 32 < 63 then bits old 47 32 else bits v 47 32
  packF [(0, 3, bits v 2 0), (3, 4, sb), (7, 12, bits v 18 7), (24, 7, bits v 30 24), (32, 16, lm)]

def ingMerge (k : Nat) (old v : Word) : Word :=
  if k = 0 then ingMerge0 old v
  else if k = 1 then packF [(0, 56, bits v 55 0)]
  else
    let n := if bits v 44 40 < 4 || 24 < bits v 44 40 then bits old 44 40 else bits v 44 40
    packF [(0, 40, bits v 39 0), (40, 5, n), (48, 16, bits v 63 48)]

/-- May a write enable the stream (R356)? `t` holds the merged words, `v` is the word written. -/
def State.enableOk (s : State) (m : Nat) (t : Stream) (v : Word) : Bool :=
  let last := t.sbase + t.nslot * t.stride - 1
  63 ≤ bits v 47 32 && sbitsOk v && t.sbase % 4096 = 0 && t.e ≤ t.edec && s.live m t.ch && inMemSpace last &&
  (List.range (last / 0x14000000 - t.sbase / 0x14000000 + 1)).all (fun i =>
    let e := s.mrtE (blockIx ((t.sbase / 0x14000000 + i) * 0x14000000))
    e.valid && (e.world == t.world))

/-- INGCFG_WRITE (R356): configuration word `k` of stream p of rim m; words from 3 on are status words. -/
def ingcfgWrite (w : World) (m p k : Nat) (v : Word) (s : State) : State :=
  let st := 16 * m + p
  let t := s.stream_ st
  if !w || 3 ≤ k then s
  else if t.en then
    if k = 0 && !bit v 0 then
      (s.modStream st (fun t => { t.endLine true with cfg0 := setBits t.cfg0 0 0 0 })).streamGo st
    else s
  else
    let new := if k = 0 then { t with cfg0 := ingMerge 0 t.cfg0 v }
      else if k = 1 then { t with cfg1 := ingMerge 1 t.cfg1 v }
      else { t with cfg2 := ingMerge 2 t.cfg2 v }
    if k = 0 && bit v 0 && !s.enableOk m new v then s
    else s.modStream st (fun _ => new)

/-- Word `k` of a stream's window. -/
def Stream.word (t : Stream) (k : Nat) : Word :=
  if k = 0 then t.cfg0 else if k = 1 then t.cfg1 else if k = 2 then t.cfg2
  else if k = 3 then packF [(0, 48, t.next.toNat)]
  else if k = 4 then packF [(0, 48, t.rel.toNat), (48, 16, t.badtok.toNat)]
  else if k = 5 then packF [(0, 48, t.done.toNat), (48, 16, t.lost.toNat)]
  else 0

/-- Release lines up to `l` (R364, R404). -/
def State.release (s : State) (st : Nat) (l : Nat) (w : World) (replay : Bool) : State × BitVec 8 :=
  let t := s.stream_ st
  if !w && t.world then (s, stWORLD)
  else if replay && l ≤ t.rel.toNat then (s, stOK)
  else if l < t.rel.toNat || t.done.toNat < l then (s, stPARAM)
  else (s.modStream st (fun t => { t with rel := BitVec.ofNat 48 l }), stOK)

end Sys2Proof.Machine
end

