-- ==== Sys2Proof/Machine/Vorot.lean ====
section
/-!
DEFINITION. Vorot ports and the peloton (11: R324 to R338), PEER transfers (R209), and the responses of the memory that go to
regions and ports.
-/
set_option autoImplicit false
namespace Sys2Proof.Machine

def State.port (s : State) (v : Nat) : VPortSt := tget {} s.ser.ports v
def State.modPort (s : State) (v : Nat) (f : VPortSt → VPortSt) : State :=
  { s with ser := { s.ser with ports := tmod {} v f s.ser.ports } }
def State.modPel (s : State) (f : Peloton → Peloton) : State := { s with ser := { s.ser with pel := f s.ser.pel } }
def State.lane (s : State) (i : Nat) : Lane := tget {} s.ser.lanes i
def State.modLane (s : State) (i : Nat) (f : Lane → Lane) : State :=
  { s with ser := { s.ser with lanes := tmod {} i f s.ser.lanes } }

/-- Lane `j` of port `v`, as 48m + l (R312). -/
def portLane (v j : Nat) : Nat := 48 * (v / 6) + 8 * (v % 6) + j
/-- The port of a lane 48m + l. -/
def lanePort (i : Nat) : Nat := 6 * (i / 48) + i % 48 / 8

/-! ## Identity (R5, R335, R336) -/

def kidDevice : Nat := 0x1648
def kidStep : Nat := 0
def State.kid (s : State) : Word :=
  packF [(0, 16, kidDevice), (16, 4, if s.hPart then 1 else 2), (20, 4, b2n s.xPart), (24, 8, kidStep)]
/-! ## Frames (R326) -/

def fsKind (h : Word) : Nat := bits h 11 8
def fsVc (h : Word) : Nat := bits h 13 12
def fsWorld (h : Word) : World := bit h 14
def fsSeq (h : Word) : BitVec 16 := BitVec.ofNat 16 (bits h 31 16)
def fsDest (h : Word) : Nat := bits h 38 32
def fsSrc (h : Word) : Nat := bits h 45 39

/-- Check value of a frame: bytes 1 to 7 of the FSTART block, then the data. -/
def frameCrc (h : Word) (data : List Word) : Word32 := crc32c ((bytesOf 8 h.toNat).drop 1 ++ bytesOfWords data)

def OutFrame.seal (f : OutFrame) (seq : BitVec 16) : Frame :=
  let h := packF [(0, 8, 0x78), (8, 4, f.kind), (12, 2, f.vc), (14, 1, b2n f.world), (16, 16, seq.toNat), (32, 7, f.dest),
    (39, 7, f.src), (46, 10, f.data.length)]
  { hdr := h, data := f.data, crc := frameCrc h f.data }

/-- Credit units of a frame with `n` data blocks (R327). -/
def frameUnits (n : Nat) : Nat := if n = 0 then 1 else cdiv (8 * n) 256

/-! ## Blocks (R324, R326, R327) -/

/-- The blocks of a frame: FSTART, its data, FEND. A control block has sync header 10. -/
def frameBlocks (f : Frame) : List (BitVec 2 × Word) :=
  (2, f.hdr) :: (f.data.map (fun w => ((1 : BitVec 2), w)) ++ [(2, packF [(0, 8, 0x87), (32, 32, f.crc.toNat)])])

/-- A LINK block: ACK, NAK and the units returned. -/
def linkBlock (ack : BitVec 16) (nak : Bool) (c0 c1 c2 : Nat) : BitVec 2 × Word :=
  (2, packF [(0, 8, 0x2D), (8, 16, ack.toNat), (24, 1, b2n nak), (32, 8, c0), (40, 8, c1), (48, 8, c2)])

def idleBlock : BitVec 2 × Word := (2, 0x1E)

/-! ## Sending (R327, R328) -/

/-- Send one frame: numbered, charged, kept until acknowledged. -/
def VPortSt.sendNow (x : VPortSt) (f : OutFrame) : VPortSt :=
  let fr := f.seal x.txSeq
  let u := frameUnits f.data.length
  { x with
    txSeq := x.txSeq + 1, out := x.out ++ [fr], blocks := x.blocks ++ frameBlocks fr, unacked := x.unacked ++ [{ frame := fr, units := u, sent := 1 }]
    credit := x.credit.set f.vc (x.credit.getD f.vc 0 - u) }

/-- Send every waiting frame that holds its credit, in order within each virtual channel. -/
def VPortSt.pump (x : VPortSt) : VPortSt :=
  if x.state ≠ 3 then x
  else
    let r := x.queue.foldl (fun (a : VPortSt × List OutFrame × List Nat) f =>
      if !a.2.2.contains f.vc && frameUnits f.data.length ≤ a.1.credit.getD f.vc 0 then (a.1.sendNow f, a.2.1, a.2.2)
      else (a.1, a.2.1 ++ [f], f.vc :: a.2.2)) (x, [], [])
    { r.1 with queue := r.2.1 }

def State.vsend (s : State) (v : Nat) (f : OutFrame) : State :=
  s.modPort v (fun x => ({ x with queue := x.queue ++ [f] } : VPortSt).pump)

/-- Send a LINK block with the present ACK and returned credit (R327). -/
def VPortSt.link (x : VPortSt) (nak : Bool) (vc units : Nat) : VPortSt :=
  let c (i : Nat) := if vc = i then units else 0
  { x with
    links := x.links ++ [(x.rxSeq - 1, nak, c 0, c 1, c 2)]
    blocks := x.blocks ++ [linkBlock (x.rxSeq - 1) nak (c 0) (c 1) (c 2)] }

/-- Send again every unacknowledged frame (R328); a frame sent 16 times takes the port down (R330). -/
def VPortSt.resendAll (x : VPortSt) : VPortSt :=
  { x with
    resend := satInc x.resend x.unacked.length
    out := x.out ++ x.unacked.map (·.frame)
    blocks := x.blocks ++ x.unacked.flatMap (fun u => frameBlocks u.frame)
    unacked := x.unacked.map (fun u => { u with sent := u.sent + 1 }) }

/-! ## Relay (R337, R465) -/

/-- The port by which a virtual-channel-2 frame for a member leaves: `PLROUTE` where it is valid and its port's lane group is
secure, since such frames travel only on secure ports (R333, R336, R337). -/
def State.routePort (s : State) (dest : Nat) : Option Nat :=
  match tlook dest s.ser.pel.routes with
  | some (p, true) => if s.wlane p.toNat then some p.toNat else none
  | _ => none

/-- Send a reply, event record or other VC2 frame onward by `PLROUTE`; with no route it is discarded and counted. -/
def State.relay (s : State) (f : OutFrame) (counted : Bool) : State :=
  match s.routePort f.dest with
  | some p =>
    let s := if counted then s.modPel (fun x => { x with relayed := x.relayed + 1 }) else s
    s.vsend p f
  | none => s.modPel (fun x => { x with noRoute := satInc x.noRoute })

/-- The virtual-channel-2 frames that a port gives back when it goes down. -/
def VPortSt.returned (x : VPortSt) : List OutFrame :=
  ((x.unacked.map (fun u =>
    let h := u.frame.hdr
    ({ kind := fsKind h, vc := fsVc h, world := fsWorld h, dest := fsDest h, src := fsSrc h, data := u.frame.data } : OutFrame))) ++
    x.queue).filter (fun f => decide (f.vc = 2) && decide (f.kind ≠ 5))

/-! ## A port goes down or starts over (R329, R330) -/

/-- Are the eight lanes of a port enabled in Vorot mode at one rate, without test patterns, and none failed? -/
def State.portLanesOk (s : State) (v : Nat) : Bool :=
  let r0 := bits (s.lane (portLane v 0)).cfg 5 3
  (List.range 8).all (fun j =>
    let x := s.lane (portLane v j)
    bit x.cfg 0 && decide (bits x.cfg 2 1 = 2) && decide (bits x.cfg 5 3 = r0) && decide (bits x.cfg 9 8 = 0) && x.state ≠ 3)

/-- The transfer of an unanswered PEER faults (R330). -/
def State.peerFault (s : State) (t : Nat × Nat × Nat) : State :=
  let x := s.ctx t.1 t.2.1
  match x.xferAt t.2.2 with
  | none => s
  | some f =>
    if x.active then (s.modXfer t.1 t.2.1 t.2.2 (fun f => { f with inFlight := 0 })).streamFault t.1 t.2.1 f.xi 0xC
    else s.endXfer t.1 t.2.1 t.2.2

/-- A port leaves its state with a cause; it begins again from step 1 of R329 while its lanes allow it. -/
def State.portDown (s : State) (v cause : Nat) : State :=
  let x := s.port v
  let up := x.state = 3
  let next : BitVec 2 := if s.portLanesOk v then 1 else 0
  let s := s.modPort v (fun x => { x with
    state := next, cause := BitVec.ofNat 4 cause, downs := if up then satInc x.downs else x.downs
    aligned := 0, txSeq := 0, unacked := [], queue := [], credit := [0, 0, 0], rxSeq := 0, nakked := false
    farInit := false, ownSeq := none, ownInit := false, awaiting := [], peers := [], blocks := [], slot := 0 })
  let s := (List.range 8).foldl (fun s j => s.modLane (portLane v j) (fun l => { l with marker := none })) s
  let s := x.awaiting.foldl (fun s t => s.peerFault t) s
  x.returned.foldl (fun s f => s.relay f false) s

/-- Take a port down only if it was aligning or better. -/
def State.portFail (s : State) (v cause : Nat) : State := if (s.port v).state = 0 then s else s.portDown v cause

/-- Bring a port to step 1 of R329, or off, after its lanes have changed. -/
def State.portLanes (s : State) (v : Nat) : State :=
  let x := s.port v
  if s.portLanesOk v then (if x.state = 0 then s.modPort v (fun x => { x with state := 1 }) else s)
  else
    let all := (List.range 8).all (fun j => bit (s.lane (portLane v j)).cfg 0)
    let some2 := (List.range 8).any (fun j => bits (s.lane (portLane v j)).cfg 2 1 = 2)
    let split := all && some2 && (List.range 8).any (fun j =>
      bits (s.lane (portLane v j)).cfg 5 1 ≠ bits (s.lane (portLane v 0)).cfg 5 1)
    if x.state ≠ 0 then s.portDown v (if split then 1 else 8)
    else if split then s.modPort v (fun x => { x with cause := 1 })
    else s

/-- Send the port's own link init, once aligned (R329, step 3). -/
def State.sendInit (s : State) (v : Nat) : State :=
  let w := s.wlane v
  let data : List Word := if w then
      [s.kid, packF [(0, 7, s.pelNum), (7, 1, b2n s.lead), (8, 4, v), (12, 1, 1), (13, 7, s.ser.pel.size.toNat)],
        packF [(0, 16, 1024), (16, 16, 128), (32, 16, 128)]]
    else [s.kid, packF [(8, 4, v)], packF [(0, 16, 1024), (16, 16, 128), (32, 16, 128)]]
  s.modPort v (fun x =>
    { (x.sendNow { kind := 5, vc := 2, world := w, dest := 0, src := s.pelNum, data := data }) with
      state := 2, ownSeq := some x.txSeq, credit := x.credit })

/-- Up once both link inits are through (R329, step 5). -/
def VPortSt.tryUp (x : VPortSt) : VPortSt :=
  if x.state = 2 && x.farInit && x.ownInit then ({ x with state := 3 } : VPortSt).pump else x

/-! ## Receiving (R328) -/

/-- Take a frame in at a port: run `f` on its acceptance, or discard it. -/
def State.takeFrame (s : State) (v kind : Nat) (fr : Frame) (f : State → State) : State :=
  let x := s.port v
  if x.state.toNat < 2 || fsKind fr.hdr ≠ kind then s
  else
    let good := decide (fr.crc = frameCrc fr.hdr fr.data)
    let seq := fsSeq fr.hdr
    if good && seq = x.rxSeq then f (s.modPort v (fun x => { x with rxSeq := x.rxSeq + 1, nakked := false }))
    else if good && (x.rxSeq - seq - 1).toNat < 32768 then s.modPort v (fun x => x.link false 3 0)
    else if x.nakked then s
    else s.modPort v (fun x => { x.link true 3 0 with nakked := true })

/-- Does a sequence number lie at or before ACK? -/
def covered (ack seq : BitVec 16) : Bool := (ack - seq).toNat < 32768

/-- LINK (R327, R328, R329, R330). -/
def link (v : Nat) (ack : BitVec 16) (nak : Bool) (c0 c1 c2 : Byte) (s : State) : State :=
  let x := s.port v
  if x.state.toNat < 2 then s
  else
    let x1 : VPortSt := { x with
      unacked := x.unacked.filter (fun u => !covered ack (fsSeq u.frame.hdr))
      credit := [x.credit.getD 0 0 + c0.toNat, x.credit.getD 1 0 + c1.toNat, x.credit.getD 2 0 + c2.toNat]
      ownInit := x.ownInit || (match x.ownSeq with
        | some q => covered ack q
        | none => false) }
    let x2 := if nak then x1.resendAll else x1
    let s := s.modPort v (fun _ => x2.tryUp.pump)
    if x2.unacked.any (fun u => decide (16 ≤ u.sent)) then s.portFail v 5 else s

/-- RESEND_TIMEOUT (R328, R330). -/
def resendTimeout (v : Nat) (s : State) : State :=
  let x := s.port v
  if x.state.toNat < 2 || x.unacked.isEmpty then s
  else
    let y := x.resendAll
    let s := s.modPort v (fun _ => y)
    if y.unacked.any (fun u => decide (16 ≤ u.sent)) then s.portFail v 5 else s

/-- ACKNOWLEDGE_TIMEOUT (R330). -/
def acknowledgeTimeout (v : Nat) (s : State) : State :=
  let x := s.port v
  if x.state.toNat < 2 || x.unacked.isEmpty then s else s.portFail v 6

/-! ## PEER writes (R209, R327, R333) -/

/-- The PEER writes at the head of a port's list whose outcome is known, in order, and the rest. -/
def peerAnswers : List (Nat × Nat × Option Bool) → List (Nat × Nat × Option Bool) × List Bool
  | [] => ([], [])
  | (t, u, none) :: rest => ((t, u, none) :: rest, [])
  | (_, _, some ok) :: rest =>
    let r := peerAnswers rest
    (r.1, ok :: r.2)

/-- Answer them, in the order of the writes. -/
def State.answerPeers (s : State) (v : Nat) : State :=
  let r := peerAnswers (s.port v).peers
  let w := s.wlane v
  let src := s.pelNum
  s.modPort v (fun x => r.2.foldl (fun (x : VPortSt) ok =>
    ({ x with queue := x.queue ++
        [{ kind := if ok then 1 else 2, vc := 1, world := w, dest := 0, src := src, data := [] }] } : VPortSt).pump)
    { x with peers := r.1 })

/-- The outcome of an accepted PEER write is known: its buffer is freed, and its credit goes back at once (R327). -/
def State.peerDone (s : State) (v tag : Nat) (ok : Bool) : State :=
  (s.modPort v (fun x =>
    let y := { x with peers := x.peers.map (fun p => if p.1 = tag then (p.1, p.2.1, some ok) else p) }
    match x.peers.find? (fun p => decide (p.1 = tag)) with
    | some p => y.link false 0 p.2.1
    | none => y)).answerPeers v

/-- PEER_WRITE_FRAME (R209, R286, R327, R333): the accepted frame is acknowledged by a LINK. -/
def peerWriteFrame (v : Nat) (fr : Frame) (s : State) : State :=
  s.takeFrame v 0 fr (fun s =>
    let w := fsWorld fr.hdr
    let addr := bits (fr.data.getD 0 0) 39 0
    let data := bytesOfWords (fr.data.drop 1)
    let tag := (s.port v).nextPeer
    let s := s.modPort v (fun x => { x.link false 3 0 with
      nextPeer := tag + 1, peers := x.peers ++ [(tag, frameUnits fr.data.length, none)] })
    if w != s.wlane v || data.isEmpty || s.memCheck w addr data.length ≠ 0 then s.peerDone v tag false
    else s.sendReq { src := .peer v tag, write := true, addr := addr, len := data.length, data := data, world := w })

/-- Issue the next request of a PEER on its port; a port that is not up, or not of the task's world, faults (R330, R333), and so
does an address that the 40 bits of a request do not hold (R189, R197). -/
def State.nextPeerReq (s : State) (p c id : Nat) (hw : HwEvent) : State :=
  let x := s.ctx p c
  match x.xferAt id, x.task with
  | some t, some k =>
    let v := xf t.desc 1 43 40
    if (s.port v).state ≠ 3 || s.wlane v != k.world then s.streamFault p c t.xi 0xC
    else
      let (xa, la, n) := t.nextReq
      if xa < 0 || 2 ^ 40 ≤ xa then s.streamFault p c t.xi 4
      else s.bankRead p c hw (fun s =>
      let data := (s.tile p).rdN (k.record (xfSb t.desc)).1 la.toNat n
      let words := BitVec.ofNat 64 xa.toNat :: (chunks 8 n data).map wordOfBytes
      let s := s.modXfer p c id (fun t => { t with inFlight := n })
      let s := s.modPort v (fun x => { x with awaiting := x.awaiting ++ [(p, c, id)] })
      s.vsend v { kind := 0, vc := 0, world := k.world, dest := 0, src := s.pelNum, data := words })
  | _, _ => s

/-- PEER (R189, R191, R209, R330, R333). -/
def peer (p c : Nat) (hw : HwEvent) (s : State) : State :=
  s.takeXfer p c 4 false (fun k xi d v s =>
    if !locOk k d v then s.streamFault p c xi 5
    else
      let x := s.ctx p c
      let (_, base, _) := k.record (xfSb d)
      let s := s.modCtx p c CtxSt.xTaken
      let s := s.addXfer p c { id := 0, xi := xi, kind := 4, desc := d, xa := extAddr x d v
                               la := (base : Int) + locOff k d v, done := 0, inFlight := 0 }
      s.nextPeerReq p c x.nextX hw)

/-- PEER_ACKNOWLEDGE_FRAME (R192, R209). -/
def peerAcknowledgeFrame (v : Nat) (fr : Frame) (hw : HwEvent) (s : State) : State :=
  s.takeFrame v 1 fr (fun s =>
    let s := s.modPort v (fun x => x.link false 1 (frameUnits fr.data.length))
    match (s.port v).awaiting with
    | [] => s
    | (p, c, id) :: rest =>
      let s := s.modPort v (fun x => { x with awaiting := rest })
      let x := s.ctx p c
      match x.xferAt id with
      | none => s
      | some t =>
        if !x.active then s.endXfer p c id
        else
          let n := t.nextReq.2.2
          let s := s.modXfer p c id (fun y => { y with done := y.done + n, inFlight := 0 })
          if t.total ≤ t.done + n then s.endXfer p c id else s.nextPeerReq p c id hw)

/-- PEER_REFUSAL_FRAME (R333). -/
def peerRefusalFrame (v : Nat) (fr : Frame) (s : State) : State :=
  s.takeFrame v 2 fr (fun s =>
    let s := s.modPort v (fun x => x.link false 1 (frameUnits fr.data.length))
    match (s.port v).awaiting with
    | [] => s
    | t :: rest => (s.modPort v (fun x => { x with awaiting := rest })).peerFault t)

/-! ## Commands, replies, link init (R333 to R337, R464) -/

/-- A packet from the bytes of a command frame. -/
def packetOf (ws : List Word) : Packet :=
  let n := bits (ws.getD 1 0) 28 16
  { w0 := ws.getD 0 0, w1 := ws.getD 1 0, w2 := ws.getD 2 0, w3 := ws.getD 3 0, params := (bytesOfWords (ws.drop 4)).take n }

/-- Is a VC2 frame for this device (R337, R464)? -/
def State.forKeel (s : State) (h : Word) (cmd : Bool) : Bool :=
  fsDest h = s.pelNum || fsDest h = 127 || (cmd && s.boot.follower && s.pelNum = 127 && fsSrc h = 0 && fsWorld h)

/-- Relay a frame as it came. -/
def State.relayFrame (s : State) (fr : Frame) : State :=
  let h := fr.hdr
  s.relay { kind := fsKind h, vc := 2, world := fsWorld h, dest := fsDest h, src := fsSrc h, data := fr.data } true

/-- COMMAND_FRAME (R333, R335, R337, R464, R465): a frame on a non-secure port, or of the non-secure world, is carried nowhere; a
follower counts each command frame that it does not take or relay. -/
def commandFrame (v : Nat) (fr : Frame) (s : State) : State :=
  s.takeFrame v 3 fr (fun s =>
    let s := s.modPort v (fun x => x.link false 2 (frameUnits fr.data.length))
    let refuse (s : State) : State := if s.boot.follower then s.modPel (fun x => { x with refused := satInc x.refused }) else s
    if !s.wlane v || !fsWorld fr.hdr then refuse s
    else if s.forKeel fr.hdr true then
      if s.boot.follower && fsSrc fr.hdr = 0 then
        { s with keel := { s.keel with arrived := s.keel.arrived ++ [(3, packetOf fr.data)] } }.modPel (fun x => { x with
          lastPort := some v })
      else refuse s
    else s.relayFrame fr)

/-- The host path of a channel (R371, R379). -/
def State.pathOf (s : State) (ch : Nat) : OutPath :=
  let c := s.chan ch
  if c.path = 2 then .ssp else if c.path = 3 then .vorot else .host (decide (ch % 2 = 1))

/-- The path that `EVCFG` names (R400). -/
def State.eventPath (s : State) : OutPath :=
  match s.keel.evPath.toNat with
  | 0 => .host false
  | 1 => .host true
  | 2 => .ssp
  | _ => .vorot

/-- Hand a device packet to a path: the serial slave port holds it (R479), Vorot carries it to the lead (R337, R465). -/
def State.sendOut (s : State) (path : OutPath) (pk : DevPacket) : State :=
  let s := { s with keel := { s.keel with out := s.keel.out ++ [(path, pk)] } }
  match path with
  | .host _ => s
  | .ssp => { s with ssp := { s.ssp with held := s.ssp.held ++ [pk] } }
  | .vorot =>
    let f : OutFrame := { kind := 4, vc := 2, world := true, dest := 0, src := s.pelNum
                          data := [pk.w0, pk.w1, pk.w2, pk.w3] ++ (chunks 8 pk.data.length pk.data).map wordOfBytes }
    let back := match tlook 0 s.ser.pel.routes with
      | some (_, true) => none
      | _ => s.ser.pel.lastPort.filter (fun v => s.wlane v)
    match s.routePort 0, back with
    | some p, _ => s.vsend p f
    | none, some v => s.vsend v f
    | none, none => s.modPel (fun x => { x with noRoute := satInc x.noRoute })

/-- A reply or event record of a member, at the lead: to its host (R376, R400). -/
def State.fromMember (s : State) (ws : List Word) : State :=
  let pk : DevPacket := { w0 := ws.getD 0 0, w1 := ws.getD 1 0, w2 := ws.getD 2 0, w3 := ws.getD 3 0
                          data := bytesOfWords (ws.drop 4) }
  let path := if bits pk.w0 3 0 = 3 then s.eventPath else s.pathOf (bits pk.w1 7 0)
  s.sendOut path pk

/-- REPLY_FRAME (R337, R376). -/
def replyFrame (v : Nat) (fr : Frame) (s : State) : State :=
  s.takeFrame v 4 fr (fun s =>
    let s := s.modPort v (fun x => x.link false 2 (frameUnits fr.data.length))
    if !s.wlane v || !fsWorld fr.hdr then s
    else if s.forKeel fr.hdr false then (if s.lead then s.fromMember fr.data else s)
    else s.relayFrame fr)

/-- Does the port refuse a far end's link init (R334)? -/
def State.initRefused (s : State) (v : Nat) (i : LinkInit) : Bool :=
  bits i.kid 15 0 ≠ kidDevice || bits i.kid 31 24 ≠ kidStep ||
  (s.wlane v && ((s.lead && i.lead) ||
    (s.pelNum ≠ 127 && i.num ≠ 127 && i.size ≠ s.ser.pel.size)))

/-- LINK_INIT (R329, R334). -/
def linkInit (v : Nat) (fr : Frame) (i : LinkInit) (s : State) : State :=
  s.takeFrame v 5 fr (fun s =>
    if s.initRefused v i then s.portFail v 7
    else s.modPort v (fun x =>
      ({ x.link false 2 0 with
        farInit := true, farNum := if s.wlane v then i.num else 0x7F, farPort := i.port
        credit := [i.credits.getD 0 0, i.credits.getD 1 0, i.credits.getD 2 0] } : VPortSt).tryUp))

/-- `VPSTAT` (R332), `PELCFG`, `PELSTAT`, `PLROUTE` (R336). -/
def State.vpWord (s : State) (v : Nat) : Word :=
  let x := s.port v
  packF [(0, 2, x.state.toNat), (2, 4, x.cause.toNat), (6, 1, b2n (s.wlane v)), (8, 7, x.farNum.toNat), (15, 4, x.farPort.toNat),
    (32, 16, x.resend.toNat), (48, 16, x.downs.toNat)]
def State.pelcfgWord (s : State) : Word :=
  packF [(0, 7, s.pelNum), (7, 7, s.ser.pel.size.toNat), (14, 2, s.ser.pel.topo.toNat)]
def State.pelstatWord (s : State) : Word :=
  let x := s.ser.pel
  packF [(0, 1, b2n s.lead), (16, 16, x.relayed.toNat), (32, 16, x.noRoute.toNat), (48, 16, x.refused.toNat)]
def State.plrouteWord (s : State) (n : Nat) : Word :=
  match tlook n s.ser.pel.routes with
  | some (p, v) => packF [(0, 4, p.toNat), (4, 1, b2n v)]
  | none => 0

/-- Secure writes of the peloton words (R9, R336). -/
def State.pelcfgWrite (s : State) (v : Word) : State :=
  let num := bits v 6 0
  let size := bits v 13 7
  let topo := bits v 15 14
  s.modPel (fun x => { x with
    num := if 64 ≤ num && num ≤ 126 then x.num else some (BitVec.ofNat 7 num)
    size := if (1 ≤ size && size ≤ 15) || 65 ≤ size then x.size else BitVec.ofNat 7 size
    topo := if topo = 3 then x.topo else BitVec.ofNat 2 topo })
def State.plrouteWrite (s : State) (n : Nat) (v : Word) : State :=
  let p := bits v 3 0
  if 11 < p || !s.wlane p then s
  else s.modPel (fun x => { x with routes := tput n (BitVec.ofNat 4 p, bit v 4) x.routes })

/-! ## Responses of the memory to regions and ports -/

/-- Deliver to the region ports and the Vorot ports every response that has come for them (R209, R239). -/
def State.deliver (s : State) : State :=
  let mine (r : MemResp) : Bool := match r.src with
    | .region _ _ => true
    | .peer _ _ => true
    | _ => false
  let rs := s.mem.resps.filter mine
  let s := s.setMem (fun m => { m with resps := m.resps.filter (fun r => !mine r) })
  rs.foldl (fun s r => match r.src with
    | .region g tag => s.modRegion g (fun x => x.answer tag r.status r.data)
    | .peer v tag => s.peerDone v tag (r.status = 0)
    | _ => s) s

end Sys2Proof.Machine
end

