-- ==== Sys2Proof/Machine/Lanes.lean ====
section
/-!
DEFINITION. Serial lanes (11: R312 to R325): configuration, lock, raw and PCS words, test patterns and alignment markers.
-/
set_option autoImplicit false
namespace Sys2Proof.Machine

def Lane.en (l : Lane) : Bool := bit l.cfg 0
def Lane.mode (l : Lane) : Nat := bits l.cfg 2 1
def Lane.rate (l : Lane) : Nat := bits l.cfg 5 3
def Lane.loopMode (l : Lane) : Nat := bits l.cfg 7 6
def Lane.prbs (l : Lane) : Nat := bits l.cfg 9 8
def Lane.region (l : Lane) : Nat := bits l.cfg 18 12

/-- Modes that a rate allows (R314). -/
def modeOk (mode rate : Nat) : Bool :=
  mode = 0 || (mode = 1 && rate ≤ 1) || (mode = 2 && 1 ≤ rate && rate ≤ 4)

/-- 64-bit words of one raw word (R314). -/
def rawWords (rate : Nat) : Nat := if rate = 2 then 2 else if 3 ≤ rate then 4 else 1

/-- Data words of a full token (R321). -/
def fullToken (l : Lane) : Nat := if l.mode = 1 then 31 else 31 / rawWords l.rate * rawWords l.rate

/-- The two words of an entry of a loaded EQTAB record (R317). -/
def eqEntry (tab : List Word) (i : Nat) : Word × Word := (tab.getD (2 + 2 * i) 0, tab.getD (3 + 2 * i) 0)

/-- `LNSTAT` (R316). -/
def State.lnstat (s : State) (i : Nat) : Word :=
  let l := s.lane i
  packF [(0, 2, l.state.toNat), (2, 1, b2n l.cdr), (3, 1, b2n l.block), (4, 1, b2n l.eqsrc), (5, 1, b2n l.eqmiss),
    (6, 1, b2n (s.wlane (lanePort i))), (8, 16, l.biperr.toNat), (24, 16, l.prbserr.toNat), (40, 12, l.drop.toNat),
    (52, 12, l.under.toNat)]

/-- Record 0x1A (R427). -/
def State.laneFailed (s : State) (i : Nat) : State :=
  s.emit 0x1A (s.wlane (lanePort i)) (packF [(0, 1, i / 48), (1, 6, i % 48)]) (s.lnstat i) 0

/-! ## Tokens of a lane (R321) -/

/-- Header and data words of a receive token. -/
def laneToken (i : Nat) (pcs : Bool) (ws : List (Word × Bool × Bool)) : InTok :=
  let ctrl := (ws.zipIdx).foldl (fun a w => a + (if w.1.2.1 then 2 ^ w.2 else 0)) 0
  let err := pcs && ws.any (fun w => w.2.2)
  { die := 16 + i / 48, port := 47, cls := 6
    words := packF [(0, 6, i % 48), (6, 1, i / 48), (7, 5, ws.length), (12, 31, if pcs then ctrl else 0), (43, 1, b2n err)] ::
      ws.map (·.1) }

/-- Is a token one that lane `i` has sent? -/
def InTok.ofLane (i : Nat) (t : InTok) : Bool :=
  t.die = 16 + i / 48 && t.port = 47 && bits (t.words.getD 0 0) 5 0 = i % 48

/-- Has the lane's receive buffer of 2 KiB room for a whole token (R39, R321)? Tokens wait there until the inbound interface of the
region has taken them. -/
def State.laneRoom (s : State) (i : Nat) : Bool :=
  32 * (((s.region (s.lane i).region).arriving.filter (fun t => t.ofLane i)).length + 1) ≤ 256

/-- Send one token of held words, or drop it when the buffer cannot take it (R41, R321). -/
def State.laneSend (s : State) (i n : Nat) : State :=
  let l := s.lane i
  let ws := l.held.take n
  let room := s.laneRoom i
  let s := s.modLane i (fun l => { l with held := l.held.drop n, drop := if room then l.drop else satInc l.drop })
  if room then s.modRegion l.region (fun r => { r with arriving := r.arriving ++ [laneToken i (l.mode = 1) ws] }) else s

/-- Send every full token that is held. -/
def laneFull (i : Nat) : Nat → State → State
  | 0, s => s
  | k + 1, s =>
    let n := fullToken (s.lane i)
    if n ≤ (s.lane i).held.length && n ≠ 0 then laneFull i k (s.laneSend i n) else s

/-- Flush a partial token, of whole raw words. -/
def State.laneFlush (s : State) (i : Nat) : State :=
  let l := s.lane i
  let u := if l.mode = 1 then 1 else rawWords l.rate
  let n := l.held.length / u * u
  let s := if l.mode ≤ 1 && n ≠ 0 then s.laneSend i n else s
  s.modLane i (fun l => { l with held := [] })

/-! ## Lock (R316, R318, R320) -/

/-- Up once the receiver is locked, and, with blocks, in block lock. -/
def Lane.settle (l : Lane) : Lane :=
  if l.en && (l.state = 1 || l.state = 2) then
    { l with state := if l.cdr && (l.mode = 0 || l.block) then 2 else 1 }
  else l

/-- A lane goes down: flush, and its Vorot port goes down with a cause. -/
def State.laneDown (s : State) (i cause : Nat) : State :=
  let s := s.laneFlush i
  if (s.lane i).mode = 2 then s.portFail (lanePort i) cause else s

/-- Is the reference input of lane 48m + l present (R313)? -/
def State.lrefOk (s : State) (i : Nat) : Bool := !s.ser.lrefMissing.contains (2 * (i / 48) + i % 48 / 24)

/-- CDR_LOCK_CHANGE (R313, R316, R318, R329, R330): a lane whose reference is missing does not lock. -/
def cdrLockChange (m l : Nat) (locked : Bool) (s : State) : State :=
  let i := 48 * m + l
  let x := s.lane i
  if !x.en || x.state = 3 || x.cdr == locked || (locked && !s.lrefOk i) then s
  else
    let y := { x with
      cdr := locked, block := x.block && locked, syncRun := 0, syncSeen := 0, syncBad := 0 }.settle
    let s := s.modLane i (fun _ => y)
    if x.state = 2 && y.state ≠ 2 then s.laneDown i 2 else s

/-- LANE_ACQUIRE_TIMEOUT (R318). -/
def laneAcquireTimeout (m l : Nat) (s : State) : State :=
  let i := 48 * m + l
  let x := s.lane i
  if x.en && x.state = 1 && !x.cdr then
    ((s.modLane i (fun x => { x with state := 3 })).laneFailed i).portLanes (lanePort i)
  else s

/-! ## Receiving (R320 to R323) -/

/-- One sync header in the lock process (R320): the lane after it. -/
def Lane.sync (l : Lane) (ok : Bool) : Lane :=
  let bad := if ok then l.biperr else if l.mode = 1 then satInc l.biperr else l.biperr
  if l.block then
    let seen := l.syncSeen + 1
    let nb := l.syncBad + b2n (!ok)
    if 16 ≤ nb then { l with biperr := bad, block := false, syncRun := 0, syncSeen := 0, syncBad := 0 }
    else if 64 ≤ seen then { l with biperr := bad, syncSeen := 0, syncBad := 0 }
    else { l with biperr := bad, syncSeen := seen, syncBad := nb }
  else
    let run := if ok then l.syncRun + 1 else 0
    if 64 ≤ run then { l with biperr := bad, block := true, syncRun := 0, syncSeen := 0, syncBad := 0 }
    else { l with biperr := bad, syncRun := run }

/-- The self-synchronous descrambler x^58 + x^39 + 1 (R320). -/
def descramble (past w : Word) : Word :=
  let n := past.toNat + w.toNat * 2 ^ 64
  w ^^^ BitVec.ofNat 64 (n / 2 ^ 25) ^^^ BitVec.ofNat 64 (n / 2 ^ 6)

/-- One received block (R320). -/
def Lane.block1 (l : Lane) (b : BitVec 2 × Word) : Lane :=
  let ok := b.1 = 1 || b.1 = 2
  let was := l.block
  let d := descramble l.past b.2
  let l := { l.sync ok with past := b.2 }
  if was && l.mode = 1 then { l with held := l.held ++ [(d, decide (b.1 ≠ 1), !ok)] } else l

/-- One bit at the PRBS31 checker (R322). -/
def Lane.prbsBit (l : Lane) (b : Bool) : Lane :=
  let pred := bit l.chkPast 30 != bit l.chkPast 27
  let push (v : Bool) : BitVec 31 := BitVec.ofNat 31 (l.chkPast.toNat * 2 + b2n v)
  if l.chkLock then { l with chkPast := push pred, prbserr := if b != pred then satInc l.prbserr else l.prbserr }
  else
    let run := if 31 ≤ l.chkSeen && b == pred then l.chkRun + 1 else 0
    { l with chkPast := push b, chkSeen := l.chkSeen + 1, chkRun := run, chkLock := 64 ≤ run }

def Lane.prbsWord (l : Lane) (w : Word) : Lane := (List.range 64).foldl (fun l k => l.prbsBit (bit w k)) l

/-- Words and blocks with the polarity inverted (R315). -/
def invertRx : LaneRx → LaneRx
  | .raw ws => .raw (ws.map (fun w => ~~~ w))
  | .blocks bs => .blocks (bs.map (fun b => (~~~ b.1, ~~~ b.2)))

/-- What the lane has sent, as its own receiver sees it: test words and raw words are bare (R322, R323). -/
def Lane.looped (l : Lane) : LaneRx :=
  if l.mode = 0 || l.prbs ≠ 0 then .raw (l.sent.map (·.2)) else .blocks l.sent

/-- What the interior receives (R315, R323): in a near-end loop what the lane itself has sent, in the serial one through the driver
and the receiver; else what comes from outside, in the receiver's polarity. -/
def Lane.rxOf (l : Lane) (rx : LaneRx) : LaneRx :=
  if l.loopMode = 2 then l.looped
  else if l.loopMode = 1 then (if bit l.cfg 10 != bit l.cfg 11 then invertRx l.looped else l.looped)
  else if bit l.cfg 11 then invertRx rx else rx

/-- What the lane sends on after it has received (R323): looped words are gone, and the far-end loop sends out what came. -/
def Lane.relooped (l : Lane) (rx : LaneRx) : Lane :=
  if l.loopMode = 0 then l
  else if l.loopMode = 3 then
    { l with sent := match rx with
      | .raw ws => ws.map (fun w => ((0 : BitVec 2), w))
      | .blocks bs => bs }
  else { l with sent := [] }

/-- LANE_RECEIVE (R315, R320 to R323). -/
def laneReceive (m l : Nat) (rx : LaneRx) (s : State) : State :=
  let i := 48 * m + l
  let x := s.lane i
  if !x.en || x.state = 0 || x.state = 3 || !x.cdr then s
  else
    let got := x.rxOf rx
    let s := s.modLane i (fun x => x.relooped got)
    match got with
    | .raw ws =>
      if x.prbs ≠ 0 then (if 2 ≤ x.prbs then s.modLane i (fun x => ws.foldl (fun x w => x.prbsWord w) x) else s)
      else if x.mode ≠ 0 then s
      else
        let s := s.modLane i (fun x => { x with held := x.held ++ ws.map (fun w => (w, false, false)) })
        laneFull i (s.lane i).held.length s
    | .blocks bs =>
      if x.prbs ≠ 0 || x.mode = 0 then s
      else
        let y := (bs.foldl (fun x b => x.block1 b) (s.lane i)).settle
        let s := s.modLane i (fun _ => y)
        let s := laneFull i y.held.length s
        if x.state = 2 && y.state ≠ 2 then s.laneDown i 2 else s

/-! ## Transmitting (R321, R323) -/

/-- LANE_TRANSMIT_TOKEN (R39, R41, R321): a region's token at port 47 of rim `m`; it waits in the router while the transmit buffer of
2 KiB has no room for it. -/
def laneTransmitToken (r m : Nat) (ws : List Word) (s : State) : State :=
  let h := ws.getD 0 0
  let ln := bits h 5 0
  let n := bits h 11 7
  if !(s.region r).isOpen || 48 ≤ ln then s
  else
    let i := 48 * m + ln
    let x := s.lane i
    let bound := x.en && x.mode ≤ 1 && decide (x.region = r)
    let whole := x.mode ≠ 0 || n % rawWords x.rate = 0
    if !bound || !whole then s.modLane i (fun x => { x with drop := satInc x.drop })
    else if x.state = 3 || x.prbs ≠ 0 || x.loopMode = 3 then s
    else
      let data := ((ws.drop 1).take n).zipIdx.map (fun w => (w.1, bit h (12 + w.2)))
      if 256 < x.tx.length + data.length then s
      else s.modLane i (fun x => { x with tx := x.tx ++ data, idle := false })

/-- The transmit buffer has run empty: each run of idle words counts once (R321). -/
def Lane.underrun (l : Lane) : Lane := { l with tx := [], idle := true, under := if l.idle then l.under else satInc l.under }

/-- TRANSMIT_UNDERRUN (R321). -/
def transmitUnderrun (m l : Nat) (s : State) : State :=
  let i := 48 * m + l
  let x := s.lane i
  if !x.en || 2 ≤ x.mode || x.state ≠ 2 || x.prbs ≠ 0 || x.loopMode = 3 then s else s.modLane i Lane.underrun

/-! ## One word time of the transmitters (R320 to R325; log entry 99) -/

/-- The self-synchronous scrambler x^58 + x^39 + 1 (R320). -/
def scramble (past w : Word) : Word :=
  BitVec.ofNat 64 (((List.range 64).foldl (fun n k =>
    n + b2n (bit w k != (n.testBit (k + 25) != n.testBit (k + 6))) * 2 ^ (64 + k)) past.toNat) / 2 ^ 64)

/-- One bit of the PRBS31 generator (R322). -/
def Lane.genBit (l : Lane) : Lane × Bool :=
  let b := bit l.gen 30 != bit l.gen 27
  ({ l with gen := BitVec.ofNat 31 (l.gen.toNat * 2 + b2n b) }, b)

/-- One test word, its first bit lowest. -/
def Lane.genWord (l : Lane) : Lane × Word :=
  let r := (List.range 64).foldl (fun (a : Lane × Nat) k =>
    let g := a.1.genBit
    (g.1, a.2 + b2n g.2 * 2 ^ k)) (l, 0)
  (r.1, BitVec.ofNat 64 r.2)

/-- Put one block on the lane, scrambled. -/
def Lane.sendBlock (l : Lane) (b : BitVec 2 × Word) : Lane :=
  let w := scramble l.txPast b.2
  { l with txPast := w, sent := l.sent ++ [(b.1, w)] }

def alternating : Word := 0x5555555555555555

/-- One word time of a raw or PCS lane: words of its transmit buffer, or idle ones; the test generator replaces them. -/
def Lane.sendWord (l : Lane) : Lane :=
  if !l.en || l.state = 0 || l.state = 3 || l.loopMode = 3 then l
  else if l.prbs % 2 = 1 then
    (List.range (if l.mode = 0 then rawWords l.rate else 1)).foldl (fun (l : Lane) _ =>
      let g := l.genWord
      { g.1 with sent := g.1.sent ++ [(0, g.2)] }) { l with sent := [] }
  else if l.prbs ≠ 0 || 2 ≤ l.mode then { l with sent := [] }
  else
    let n := if l.mode = 0 then rawWords l.rate else 1
    let have_ := n ≤ l.tx.length
    let x := if have_ then { l with tx := l.tx.drop n } else if l.state = 2 then l.underrun else l
    if l.mode = 0 then
      { x with sent := if have_ then (l.tx.take n).map (fun w => ((0 : BitVec 2), w.1)) else List.replicate n (0, alternating) }
    else
      ({ x with sent := [] } : Lane).sendBlock (match l.tx.head? with
        | some w => if have_ then (if w.2 then 2 else 1, w.1) else idleBlock
        | none => idleBlock)

/-- Bit k is the parity of byte k of a block (R325; log entry 99). -/
def blockParity (w : Word) : Byte :=
  BitVec.ofNat 8 ((List.range 8).foldl (fun a k => a + (popcount (BitVec.ofNat 8 (w.toNat / 256 ^ k))) % 2 * 2 ^ k) 0)

/-- A marker (R325). -/
def markerBlock (lip v : Nat) (count : BitVec 16) (par : Byte) : BitVec 2 × Word :=
  (2, packF [(0, 8, 0x4B), (8, 3, lip), (11, 4, v), (15, 16, count.toNat), (31, 8, par.toNat)])

/-- A lane of a port sends one block; a marker starts its parity anew. -/
def Lane.portBlock (l : Lane) (b : BitVec 2 × Word) (mark : Bool) : Lane :=
  { ({ l with sent := [] } : Lane).sendBlock b with par := if mark then 0 else l.par ^^^ blockParity b.2 }

/-- One block time of a port (R324, R325): a marker on every lane in each 16,384 of its blocks, an IDLE on every lane in each
1,024, and else the next eight blocks of its stream, with IDLE where there are none. -/
def State.portWord (s : State) (v : Nat) : State :=
  let x := s.port v
  if x.state = 0 then s
  else
    let k := x.slot % 16384
    let mark := decide (k = 0)
    let idle := decide (k % 1024 = 1)
    let s := (List.range 8).foldl (fun s j => s.modLane (portLane v j) (fun l => l.portBlock
      (if mark then markerBlock j v x.markNo l.par else if idle then idleBlock else (x.blocks[j]?).getD idleBlock) mark)) s
    s.modPort v (fun x => { x with
      slot := x.slot + 1, markNo := if mark then x.markNo + 1 else x.markNo
      blocks := if mark || idle then x.blocks else x.blocks.drop 8 })

/-- One word time of every lane that is listed and of every port. -/
def State.laneTime (s : State) : State :=
  let s := { s with ser := { s.ser with lanes := s.ser.lanes.map (fun l => (l.1, l.2.sendWord)) } }
  (List.range 12).foldl (fun s v => s.portWord v) s

/-- What a lane drives onto its transmit pins (R315, R323): nothing in the near-end parallel loop. -/
def Lane.pins (l : Lane) : LaneRx :=
  if l.loopMode = 2 then .raw []
  else if bit l.cfg 10 then invertRx l.looped else l.looped

/-! ## Configuration (R315, R318, R319) -/

/-- A written `LNCFG` while the lane is disabled: reserved values leave their fields (R9). -/
def laneMerge (old v : Word) : Word :=
  let mode := if bits v 2 1 = 3 then bits old 2 1 else bits v 2 1
  let rate := if 5 ≤ bits v 5 3 then bits old 5 3 else bits v 5 3
  packF [(0, 1, bits v 0 0), (1, 2, mode), (3, 3, rate), (6, 13, bits v 18 6)]

/-- Take the entry and begin to acquire (R318, R319). -/
def State.laneEnable (s : State) (i : Nat) : State :=
  let l := s.lane i
  let e := match s.ldr.eqtab with
    | some t => eqEntry t i
    | none => ({} : Lane).eq0 |> fun w => (w, 0)
  let src := s.ldr.eqtab.isSome
  let miss := src && decide (bits e.1 2 0 ≠ l.rate)
  let s := s.modLane i (fun l => { l with
    eq0 := e.1, eq1 := e.2, eqsrc := src, eqmiss := miss, state := if miss then 3 else 1
    cdr := false, block := false, syncRun := 0, syncSeen := 0, syncBad := 0, past := 0, held := [], tx := [], idle := false
    sent := [], par := 0, marker := none })
  if miss then s.laneFailed i else s

/-- Disable a lane. -/
def State.laneDisable (s : State) (i : Nat) : State :=
  let s := s.laneFlush i
  s.modLane i (fun l => { l with
    cfg := setBits l.cfg 0 0 0, state := 0, cdr := false, block := false, eqmiss := false, tx := [], sent := [], marker := none })

/-- The checker starts anew when it is enabled (R322). -/
def Lane.prbsSet (l : Lane) (old : Nat) : Lane :=
  if 2 ≤ l.prbs && old < 2 then { l with prbserr := 0, chkPast := 0, chkSeen := 0, chkRun := 0, chkLock := false } else l

/-- Write a lane's configuration (R315, R318, R319, R321, R322). -/
def State.laneCfg (s : State) (i : Nat) (v : Word) : State :=
  let x := s.lane i
  let new := if x.en then setBits (setBits x.cfg 0 0 (bits v 0 0)) 9 8 (bits v 9 8) else laneMerge x.cfg v
  let mode := bits new 2 1
  let bad := bit new 0 && !modeOk mode (bits new 5 3)
  let other := bit new 0 && !x.en && mode ≤ 1 && ((s.region (bits new 18 12)).world != s.wlane (lanePort i))
  if bad || other then s
  else
    let old := x.prbs
    let s := if x.en && !bit new 0 then (s.laneDisable i).modLane i (fun l => { l with cfg := new })
      else s.modLane i (fun l => { l with cfg := new })
    let s := s.modLane i (fun l => l.prbsSet old)
    let s := if !x.en && bit new 0 then s.laneEnable i else s
    s.portLanes (lanePort i)

/-- LNCFG_WRITE (R315). -/
def lncfgWrite (w : World) (m l : Nat) (v : Word) (s : State) : State := if w then s.laneCfg (48 * m + l) v else s

/-- LANE_GROUP_REENABLE (R463, R466): the port's group moves to the rate that its eight entries name, once its frames are
acknowledged. -/
def laneGroupReenable (g : Nat) (s : State) : State :=
  if s.ser.pel.again.head? ≠ some g || !(s.port g).unacked.isEmpty then s
  else
    let s := s.modPel (fun x => { x with again := x.again.drop 1 })
    let tab := s.ldr.eqtab.getD []
    let rate (j : Nat) := bits (eqEntry tab (portLane g j)).1 2 0
    let same := (List.range 8).all (fun j => rate j = rate 0) && rate 0 ≠ 0
    let s := (List.range 8).foldl (fun s j => s.laneCfg (portLane g j) 0) s
    if same then (List.range 8).foldl (fun s j => s.laneCfg (portLane g j) (packF [(0, 1, 1), (1, 2, 2), (3, 3, rate 0)])) s
    else s.modPort g (fun x => { x with cause := 8 })

/-! ## Alignment (R325, R329) -/

/-- MARKER (R325): a nonzero `parity` is the difference between the parity carried and the parity received. -/
def marker (m l lip sport count parity skewNs : Nat) (s : State) : State :=
  let i := 48 * m + l
  let v := lanePort i
  let x := s.lane i
  if x.mode ≠ 2 || x.state ≠ 2 || (s.port v).state = 0 then s
  else
    let gap := match x.marker with
      | some (_, _, c) => decide (count ≠ (c + 1) % 65536)
      | none => false
    let s := s.modLane i (fun x => { x with
      marker := some (lip, sport, count), biperr := if parity ≠ 0 then satInc x.biperr else x.biperr })
    let ms := (List.range 8).map (fun j => (s.lane (portLane v j)).marker)
    let apart := gap || ms.any (fun q => match q with
      | some (_, _, c) => decide (c ≠ count) && decide ((c + 1) % 65536 ≠ count)
      | none => false)
    if 64 < skewNs then s.portDown v 3
    else if apart then s.portDown v 4
    else
      let whole := ms.all (fun q => match q with
        | some (_, _, c) => c = count
        | none => false)
      let lips := (List.range 8).all (fun k => ms.any (fun q => match q with
        | some (p, _, _) => p = k
        | none => false))
      if whole && lips then
        let s := s.modPort v (fun p => { p with aligned := p.aligned + 1 })
        if 2 ≤ (s.port v).aligned && (s.port v).state = 1 then s.sendInit v else s
      else s

end Sys2Proof.Machine
end

