-- ==== Sys2Proof/Machine/Timing.lean ====
section
/-!
DEFINITION. Handshakes, pace, the reference, the supply and temperature (02: R36 to R59).
-/
set_option autoImplicit false
namespace Sys2Proof.Machine

def State.modTim (s : State) (f : Timing → Timing) : State := { s with tim := f s.tim }

/-! ## Fabric to hard-block boundaries (R36, R38) -/

/-- Steps 1 and 2 (R36): the sender drives new data and raises request; while a request stands the data lines are stable. -/
def Boundary.raise (x : Boundary) (data : Word) : Boundary := if x.req then x else { x with data := data, req := true, early := false }

/-- Step 3 (R36, R38): the receiver holds the data in its own storage and raises acknowledge; steps 4 and 5 follow at once where
the sender has lowered request already. -/
def Boundary.capture (x : Boundary) : Boundary :=
  { x with captured := some x.data, req := !x.early, ack := !x.early, early := false }

def State.modBoundary (s : State) (b : Nat) (f : Boundary → Boundary) : State :=
  s.modTim (fun t => { t with boundaries := tmod {} b f t.boundaries })

/-- HANDSHAKE_REQUEST (R36, R38, R41): steps 1 and 2 while acknowledge is low, and step 3 once the receiver has stored the data;
until then it withholds acknowledge, and the next request of the sender's changes nothing but that. -/
def handshakeRequest (b : Nat) (data : Word) (stored : Bool) (s : State) : State :=
  let x : Boundary := tget {} s.tim.boundaries b
  if x.ack then s
  else s.modBoundary b (fun x => if stored then (x.raise data).capture else x.raise data)

/-- HANDSHAKE_ACKNOWLEDGE (R36, R38): steps 4 and 5, once acknowledge is high; a sender that lowers request before leaves the
boundary in step 2. -/
def handshakeAcknowledge (b : Nat) (s : State) : State :=
  let x : Boundary := tget {} s.tim.boundaries b
  if !x.req then s
  else if x.ack then s.modBoundary b (fun x => { x with req := false, ack := false })
  else s.modBoundary b (fun x => { x with early := true })

/-! ## Temperature and pace words (R45, R46, R58) -/

def TempWord.word (x : TempWord) : Word :=
  packF [(0, 12, x.tj.toNat), (12, 1, b2n x.valid), (13, 1, b2n x.alarm), (14, 1, b2n x.trip)]

def State.dieState (s : State) (n : Nat) : BitVec 2 := (tget ({} : FieldDie) s.flt.dies n).state

/-- `PACE` of a field die (R45). -/
def State.paceWord (s : State) (n : Nat) : Word :=
  let x : PaceWord := tget {} s.tim.pace n
  let st := if !s.tim.refclk then 2 else if s.dieState n = 3 then 1 else 0
  packF [(0, 16, x.cur.toNat), (16, 16, x.min.toNat), (32, 8, x.seq.toNat), (40, 1, b2n (x.valid && s.tim.refclk)), (41, 2, st)]

/-- `DPACE` (R46). -/
def State.dpaceWord (s : State) : Word :=
  let x := s.tim.dpace
  packF [(0, 16, x.cur.toNat), (16, 16, x.min.toNat), (32, 8, x.seq.toNat), (40, 1, b2n (x.valid && s.tim.refclk)),
    (43, 5, s.tim.slow.toNat)]

/-- A pace word after a window (R45, R48). -/
def PaceWord.close (x : PaceWord) (cur : BitVec 16) (clr : Bool) : PaceWord :=
  { cur := cur, min := if clr || cur.toNat < x.min.toNat then cur else x.min, seq := x.seq + 1, valid := true }

/-- A window that measured nothing for this word still counts, and a clear loads `MIN` with `CUR` as it stands (R48). -/
def PaceWord.skip (x : PaceWord) (clr : Bool) : PaceWord := { x with seq := x.seq + 1, min := if clr then x.cur else x.min }

/-- What a window makes of the clock generators and the forwarded lines (R225, R226; log entry 100): the rising edges counted, and
lines whose sources have shown no edge since the window before. -/
def State.measureClocks (s : State) (edges : List (Nat × Nat)) : State :=
  { s with fab := { s.fab with
    edges := s.fab.edges.map (fun e => (e.1, e.2 - 1))
    regions := s.fab.regions.map (fun r => (r.1, { r.2 with gens := r.2.gens.map (fun g =>
      let e := match edges.find? (fun x => decide (x.1 = 4 * r.1 + g.1)) with
        | some x => x.2
        | none => 0
      (g.1, { g.2 with meas := BitVec.ofNat 16 (min e 65535) })) })) } }

/-- PACE_WINDOW_CLOSE (R43 to R49, R226): `counts` are the replica steps by die, `edges` those of the clock generators 4r + g. -/
def paceWindowClose (counts : List (BitVec 16)) (edges : List (Nat × Nat)) (s : State) : State :=
  if !s.tim.refclk || s.boot.phase = .held then s
  else if !s.tim.windowOpen then s.modTim (fun t => { t with windowOpen := true })
  else
    let clr := s.tim.clrReq
    let on := (List.range 16).filter (fun n => s.dieState n ≠ 3)
    let pace := (List.range 16).map (fun n =>
      let x : PaceWord := tget {} s.tim.pace n
      (n, if on.contains n then x.close (counts.getD n 0) clr else x.skip clr))
    let slow := on.foldl (fun (a : Option Nat) n => match a with
      | none => some n
      | some m => if (counts.getD n 0).toNat < (counts.getD m 0).toNat then some n else some m) none
    let t := s.tim
    let dp := match slow with
      | some n => t.dpace.close (counts.getD n 0) clr
      | none => t.dpace.skip clr
    let s := s.modTim (fun t => { t with
      pace := pace, dpace := dp, clrReq := false
      slow := match slow with
        | some n => BitVec.ofNat 5 n
        | none => t.slow })
    let s := s.measureClocks edges
    let low := t.floor ≠ 0 && dp.valid && decide (dp.cur.toNat < t.floor.toNat)
    if low && t.floorArmed then
      (s.modTim (fun t => { t with floorArmed := false })).emit 1 false s.dpaceWord
        (tget ({} : TempWord) s.tim.temps s.tim.slow.toNat).word 0
    else if low then s
    else s.modTim (fun t => { t with floorArmed := true })

/-- CLRMIN (R47, R48). -/
def clrmin (w : World) (s : State) : State := if w then s.modTim (fun t => { t with clrReq := true }) else s

/-- The framing of the serial slave port is reset: the transaction ends, a partial packet is gone (R480). -/
def Ssp.reset (x : Ssp) : Ssp := { x with active := false, reading := false, complete := false, rx := [], driven := 0 }

/-- A path is lost (R408). -/
def State.losePath (s : State) (p : PathId) : State :=
  let s := if p = .ssp then { s with ssp := s.ssp.reset } else s
  if s.keel.lostPaths.contains p then s else { s with keel := { s.keel with lostPaths := p :: s.keel.lostPaths } }

/-- REFCLK_LOST (R50, R408, R480): every `VALID` reads 0 while the reference is missing. -/
def refclkLost (s : State) : State := (s.modTim (fun t => { t with refclk := false, windowOpen := false })).losePath .ssp

/-- REFCLK_RETURN (R50). -/
def refclkReturn (s : State) : State := s.modTim (fun t => { t with refclk := true })

/-- VDDF takes a new value at or below 0.88 V (R52 to R56). -/
def vddfSet (mv : Nat) (s : State) : State :=
  s.modTim (fun t => { t with vddf := mv, supplyHold := t.supplyHold && decide (mv ≤ 520) })

/-! ## Conversions (R58, R59) -/

/-- Top of the grade in units of 1/8 °C (R3, R4). -/
def State.gradeTop (s : State) : Int := if s.xPart then 840 else 760

/-- CONVERSION (R58, R59): the hottest sensor of die `n`. -/
def conversion (n : Nat) (tj : BitVec 12) (s : State) : State :=
  if s.boot.phase = .held && !s.tim.thermTrip then s
  else
    let top := s.gradeTop
    let v := tj.toInt
    let old : TempWord := tget {} s.tim.temps n
    let above := decide (top < v)
    let trip := decide (top + 120 ≤ v)
    let new : TempWord := { old with
      tj := tj, valid := true, alarm := above, trip := old.trip || trip
      armed := if above then false else old.armed || decide (v ≤ top - 40) }
    let s := s.modTim (fun t => { t with temps := tput n new t.temps, thermTrip := t.thermTrip || trip })
    if above && old.armed then
      s.emit 2 false new.word (packF [(0, 16, s.tim.dpace.cur.toNat), (16, 5, n)]) 0
    else s

end Sys2Proof.Machine
end

