-- ==== Sys2Proof/Machine/Loader.lean ====
section
/-!
DEFINITION. The configuration loader (09: R252 to R271): image checks, records, region loads, the golden fallback, the firmware
handover (R460, R461) and the end of a region's close (R242).
-/
set_option autoImplicit false
namespace Sys2Proof.Machine

/-! ## Slots (R252, R257) -/

def State.slot (s : State) (i : Nat) : ImgSlot := tget {} s.ldr.slots i
def State.modSlot (s : State) (i : Nat) (f : ImgSlot → ImgSlot) : State :=
  { s with ldr := { s.ldr with slots := tmod {} i f s.ldr.slots } }
def State.modLdr (s : State) (f : Loader → Loader) : State := { s with ldr := f s.ldr }

def slotSize : Nat := 0x80000000
def slotBase (i : Nat) : Nat := 0xF000000000 + slotSize * i
/-- The slot whose base an address is. -/
def slotOfBase (a : Nat) : Option Nat := lowest 8 (fun i => slotBase i = a)
/-- Slots 0 to 3 are secure (R252). -/
def slotWorld (i : Nat) : World := decide (i < 4)

/-- `IMGSLOT` (R257). -/
def State.slotWord (s : State) (i : Nat) : Word :=
  let x := s.slot i
  packF [(0, 1, b2n (slotWorld i)), (1, 1, b2n x.busy), (2, 1, b2n (decide (i = 0) && s.ldr.prot)), (3, 1, b2n x.good),
    (8, 32, x.imgid.toNat), (40, 16, x.writes.toNat)]

/-- `LDSTAT` (R271). -/
def State.ldstat (s : State) : Word :=
  let st := match s.ldr.job with
    | none => 0
    | some j => if j.golden.isSome then 5 else 2
  packF [(0, 3, st), (3, 3, s.ldr.slot.toNat), (8, 7, s.ldr.region.toNat), (16, 16, s.ldr.loads.toNat),
    (32, 16, s.ldr.fallbacks.toNat), (48, 16, s.ldr.rejects.toNat)]

/-- Bytes of the store; none when a code word is uncorrectable in both mirrors. -/
def State.storeRead (s : State) (a n : Nat) : Option (List Byte) :=
  match s.memRead a n with
  | (0, bs) => some bs
  | _ => none

/-! ## Records (R259 to R262, R266) -/

/-- A failure of R266: cause, record, and the region at which it occurs; none before step 2 of R265. -/
structure ScanFail where
  cause : Nat
  num   : Nat
  reg   : Option Nat

/-- Does an entry of an EQTAB record break R317? -/
def eqEntryBad (e : Word × Word) : Bool :=
  let w := e.1
  let pre := (sext 6 (bits w 13 8)).natAbs
  let main := bits w 21 16
  let post := (sext 6 (bits w 29 24)).natAbs
  5 ≤ bits w 2 0 || bits w 7 3 ≠ 0 || bits w 15 14 ≠ 0 || bits w 23 22 ≠ 0 || bits w 31 30 ≠ 0 || bits w 39 37 ≠ 0 ||
  bits w 63 50 ≠ 0 || bits e.2 63 48 ≠ 0 || pre = 32 || post = 32 || main < pre + post || 63 < pre + main + post

def eqtabBad (ws : List Word) : Bool :=
  bits (ws.getD 0 0) 63 32 ≠ 0 || ws.getD 1 0 ≠ 0 || (List.range 96).any (fun i => eqEntryBad (eqEntry ws i))

/-- The eight words of a channel's record (R308). -/
def trainEntry (ws : List Word) (ch : Nat) : List Word := (ws.drop (2 + 8 * ch)).take 8

def trainBad (rate : Nat) (ws : List Word) : Bool :=
  bits (ws.getD 0 0) 39 32 ≠ rate || bits (ws.getD 0 0) 63 40 ≠ 0 || ws.getD 1 0 ≠ 0 ||
  (List.range 80).any (fun ch =>
    let e := trainEntry ws ch
    bits (e.getD 6 0) 63 40 ≠ 0 || e.getD 7 0 ≠ 0)

/-- Does the data of a REGHDR record hold a nonzero reserved bit (R261)? -/
def reghdrBad (ws : List Word) : Bool := bits (ws.getD 0 0) 63 34 ≠ 0 || bits (ws.getD 1 0) 63 32 ≠ 0

/-- Is the form of a record wrong (R259 to R261, R317, R308, R459)? -/
def recBad (full : Bool) (rate : Nat) (sc : Scan) (w0 w1 : Word) (data : List Byte) : Bool :=
  let typ := bits w0 7 0
  let ix := bits w0 47 32
  let len := bits w1 23 0
  let again := sc.seen.contains (typ, ix) || sc.reg.isNone
  bits w0 15 8 ≠ 0 || bits w0 63 48 ≠ 0 || bits w1 31 24 ≠ 0 || len % 8 ≠ 0 ||
  (if typ = 1 then !full || sc.eq || sc.tr || sc.reg.isSome || ix ≠ sc.fw || 31 < ix || len = 0 || 65536 < len
   else if typ = 2 then !full || sc.eq || sc.reg.isSome || ix ≠ 0 || len ≠ 1552 || eqtabBad (wordsOfBytes data)
   else if typ = 3 then !full || sc.tr || sc.reg.isSome || ix ≠ 0 || len ≠ 5136 || trainBad rate (wordsOfBytes data)
   else if typ = 0x10 then
     127 < ix || len ≠ 16 || reghdrBad (wordsOfBytes data) || (!full && sc.num ≠ 0) ||
     (match sc.reg with
       | some q => decide (ix ≤ q)
       | none => false)
   else if typ = 0x11 then again || 299 < ix || len ≠ 24000
   else if typ = 0x12 then again || 255 < ix || len ≠ 9216
   else if typ = 0x13 then again || ix ≠ 0 || len ≠ 4096
   else true)

def Scan.take (sc : Scan) (typ ix : Nat) (data : List Byte) : Scan :=
  { sc with
    num := sc.num + 1, pos := sc.pos + 16 + data.length
    fw := if typ = 1 then sc.fw + 1 else sc.fw
    code := if typ = 1 then sc.code ++ data else sc.code
    eq := sc.eq || decide (typ = 2), tr := sc.tr || decide (typ = 3)
    reg := if typ = 0x10 then some ix else sc.reg
    seen := if typ = 0x10 then [] else (typ, ix) :: sc.seen }

/-- The region at which a record that opens a section is met. -/
def Scan.nextReg (sc : Scan) (ix : Nat) : Option Nat :=
  match sc.reg with
  | some q => some (if q < ix && ix < 128 then ix else min 127 (q + 1))
  | none => some (if ix < 128 then ix else 0)

/-- What a reading of records has come to: the state after its reads, the records, how far it is, and the failure met. -/
structure Scanned where
  s    : State
  recs : List Rec
  scan : Scan
  fail : Option ScanFail

/-- Read the next record of an image (R266): the reading ends with it, or goes on from the state, the record and the place after. -/
def scanRec (base : Nat) (full : Bool) (h : Header) (ecc : List CodeWordError) (stays : Option Nat → Bool) (s : State) (sc : Scan) :
    Except Scanned (State × Rec × Scan) :=
  if h.paylen < sc.pos + 16 then .error ⟨s, [], sc, some ⟨0x10, sc.num, sc.reg⟩⟩
  else
    let a := base + 256 + sc.pos
    let s1 := s.eccRange a 16 ecc
    match s1.storeRead a 16 with
    | none => .error ⟨s1, [], sc, some ⟨0x13, sc.num, sc.reg⟩⟩
    | some hb =>
      let w0 := wordOfBytes hb
      let w1 := wordOfBytes (hb.drop 8)
      let typ := bits w0 7 0
      let ix := bits w0 47 32
      let len := bits w1 23 0
      let reg := if typ = 0x10 then sc.nextReg ix else sc.reg
      if !stays reg then .error ⟨s, [], sc, none⟩
      else if h.paylen < sc.pos + 16 + len then .error ⟨s1, [], sc, some ⟨0x10, sc.num, reg⟩⟩
      else
        let s2 := s1.eccRange (a + 16) len ecc
        match s2.storeRead (a + 16) len with
        | none => .error ⟨s2, [], sc, some ⟨0x13, sc.num, reg⟩⟩
        | some data =>
          if recBad full s2.boot.rate.toNat sc w0 w1 data then .error ⟨s2, [], sc, some ⟨0x12, sc.num, reg⟩⟩
          else if bits w0 31 16 ≠ sc.num % 65536 || crc32c (hb.take 12 ++ data) ≠ BitVec.ofNat 32 (bits w1 63 32) then
            .error ⟨s2, [], sc, some ⟨0x11, sc.num, reg⟩⟩
          else .ok (s2, { typ := typ, index := ix, data := data, num := sc.num }, sc.take typ ix data)

/-- Read the records of an image in order, from where the reading stands to the first that `stays` puts off or to the first failure
(R266). -/
def scanRecs (base : Nat) (full : Bool) (h : Header) (ecc : List CodeWordError) (stays : Option Nat → Bool) :
    Nat → State → Scan → Scanned
  | 0, s, sc => ⟨s, [], sc, if sc.pos < h.paylen then some ⟨0x12, 0, sc.reg⟩ else none⟩
  | k + 1, s, sc => match scanRec base full h ecc stays s sc with
    | .error r => r
    | .ok (s, x, sc) =>
      let r := scanRecs base full h ecc stays k s sc
      { r with recs := x :: r.recs }

/-! ## Regions (R262, R265) -/

/-- Bytes of frame `k`: CELL column k, HARD at 300, BMEM b at 301 + b. -/
def frameLen (k : Nat) : Nat := if k < 300 then 24000 else if k = 300 then 4096 else 9216
def frameKey (r : Rec) : Nat := if r.typ = 0x11 then r.index else if r.typ = 0x13 then 300 else 301 + r.index

/-- Frames `lo` to `hi − 1` of a configuration memory, in order. -/
def frameBytes (t : Table (List Byte)) (lo hi : Nat) : List Byte :=
  (List.range (hi - lo)).flatMap (fun i => tget (List.replicate (frameLen (lo + i)) 0) t (lo + i))

/-- A block memory as its frame initialises it. -/
def bmemOf (bs : List Byte) : BlockMem :=
  { rows := ((chunks 9 1024 bs).zipIdx.map (fun r => (r.2, BitVec.ofNat 72 (natOfBytes r.1)))).filter (fun r => r.2 ≠ 0) }

/-- The storage elements of a region at their initial values (R241), which its frames hold. -/
def Region.initial (x : Region) : Region :=
  { x with
    bms := (x.frames.filter (fun (f : Nat × List Byte) => decide (301 ≤ f.1))).map (fun (f : Nat × List Byte) => (f.1 - 301, bmemOf f.2))
    se := [], hcs := [], crossLast := [], served := 48
    reqs := [], given := [], arriving := [], inbound := [], ioVal := 0, ioOe := 0, ioPend := false
    closing := none, reopen := false, state := 0 }.applyHard

/-- A region left closed and empty. -/
def Region.emptied (x : Region) : Region :=
  { x with state := 1, empty := true, imgid := 0, frames := [], schk := 0, se := [], hcs := [], bms := [], gens := [], qcs := []
           crossLast := [], closing := none, reopen := false }

/-- Steps 3 to 6 of R265 for the section of region `r`: whether it opened. -/
def State.loadSection (s : State) (r : Nat) (recs : List Rec) (bad : Bool) : State × Bool :=
  let hdr := match recs.find? (fun (x : Rec) => x.typ = 0x10) with
    | some h => wordsOfBytes h.data
    | none => []
  let frames := (recs.filter (fun (x : Rec) => x.typ ≠ 0x10)).foldl (fun t (x : Rec) => tput (frameKey x) x.data t) []
  if crc32c (frameBytes frames 0 557) = BitVec.ofNat 32 (bits (hdr.getD 1 0) 31 0) && !bad then
    (s.modRegion r (fun x => { x with
      frames := frames, schk := crc32c (frameBytes frames 0 301), empty := false, loads := satInc x.loads
      world := bit (hdr.getD 0 0) 32, imgid := BitVec.ofNat 32 (bits (hdr.getD 0 0) 31 0) }.initial), true)
  else (s.modRegion r Region.emptied, false)

/-- Does the die of a region take part: is it not isolated or being isolated (R441)? -/
def State.dieUp (s : State) (r : Nat) : Bool := (s.dieState (r / 8)).toNat < 2

/-! ## Image checks (R258, R264, R417) -/

def rootBytes (s : State) (owner : Bool) : List Byte :=
  if owner then s.sec.ownerRoot else (List.range 64).map Config.vendorRoot

/-- The fields of a header, whatever their values. -/
def headerOf (ws : List Word) : Header :=
  { full := bits (ws.getD 0 0) 43 40 = 1, signer := bit (ws.getD 0 0) 44, imgid := BitVec.ofNat 32 (bits (ws.getD 1 0) 63 32)
    paylen := bits (ws.getD 3 0) 39 0, nrec := bits (ws.getD 4 0) 31 0 }

def State.headerAt (s : State) (i : Nat) : Header := headerOf (wordsOfBytes ((s.storeRead (slotBase i) 256).getD []))

/-- Check 1 of R264. -/
def formCheck (full : Bool) (ws : List Word) : Bool :=
  let w (i : Nat) := ws.getD i 0
  bits (w 0) 31 0 = 0x41584931 && bits (w 0) 39 32 = 1 && bits (w 0) 43 40 = (if full then 1 else 2) && bits (w 0) 63 45 = 0 &&
  bits (w 1) 31 24 = 0 && bits (w 2) 63 40 = 0 && bits (w 3) 63 40 = 0 && bits (w 4) 63 32 = 0 &&
  (List.range 27).all (fun i => w (5 + i) = 0)

/-- Check 5 (R417). -/
def State.signed (s : State) (i : Nat) (h : Header) : Bool :=
  if h.signer then s.sec.owner && verify s i h else !s.sec.voff && verify s i h
where
  verify (s : State) (i : Nat) (h : Header) : Bool :=
    match s.storeRead (slotBase i) (256 + h.paylen), s.storeRead (slotBase i + 256 + h.paylen) 2820 with
    | some m, some g => Config.xmssVerify (rootBytes s h.signer) m g
    | _, _ => false

/-- The REGHDR record at byte 256 of a region image: its header word and its data. -/
def State.firstReghdr (s : State) (i : Nat) : Option (Word × List Word) :=
  match s.storeRead (slotBase i + 256) 32 with
  | some bs => some (wordOfBytes bs, wordsOfBytes (bs.drop 16))
  | none => none

/-- The target of a region image (R263). -/
def regionTarget (h : Word × List Word) (cmd : Nat) : Nat := if bit (h.2.getD 0 0) 33 then cmd else bits h.1 47 32

/-- R264, over what the hash pass reads: the slot's words after check 5 with the header, or the cause and status of the first failed
check. -/
def State.loadChecks (s : State) (i : Nat) (stated : Nat) (full : Bool) (w : World) (cmd : Nat) :
    State × Except (Nat × BitVec 8) Header :=
  match s.storeRead (slotBase i) 256 with
  | none => (s, .error (1, stREJECT))
  | some hb =>
    let ws := wordsOfBytes hb
    let h := headerOf ws
    let rh := s.firstReghdr i
    let rhOk := full || (match rh with
      | some r => bits r.1 7 0 = 0x10 && bits r.1 47 32 ≤ 127
      | none => false)
    let len := bits (ws.getD 2 0) 39 0
    if !formCheck full ws || !rhOk then (s, .error (1, stREJECT))
    else if bits (ws.getD 1 0) 15 0 ≠ kidDevice then (s, .error (2, stREJECT))
    else if bits (ws.getD 1 0) 23 16 ≠ kidStep then (s, .error (3, stREJECT))
    else if h.paylen % 8 ≠ 0 || len ≠ stated || len ≠ h.paylen + 3076 || slotSize < len then (s, .error (4, stREJECT))
    else
      let ok := s.signed i h
      let s := s.modSlot i (fun x =>
        if ok then { x with good := true, imgid := h.imgid, signer := some h.signer } else { x with good := false })
      if !ok then (s, .error (5, stREJECT))
      else if full then (s, .ok h)
      else
        let r := rh.getD (0, [])
        let target := s.region (regionTarget r cmd)
        if (bit (r.2.getD 0 0) 32 != target.world) || (!w && target.world) then (s, .error (6, stWORLD)) else (s, .ok h)

/-! ## The end of a load (R268, R460, R461) -/

/-- `LDDET` (R268). -/
def lddet (cause outcome region num : Nat) : Word := packF [(0, 8, cause), (8, 3, outcome), (16, 7, region), (32, 32, num)]

def State.setDstate (s : State) (d : DevState) : State := { s with keel := { s.keel with prev := s.keel.dstate, dstate := d } }

/-- New firmware takes over (R460), or the active pair restarts on it (R461). -/
def State.handover (s : State) (fw : List Byte) (imgid : BitVec 32) (pass : Bool) : State :=
  let s := { s with sec := { s.sec with fwBytes := fw }, boot := { s.boot with fw := true, fwimg := imgid } }
  if pass && s.flt.standby ≠ 2 then { s with flt := { s.flt with pair := !s.flt.pair, standby := 1 } }
  else { s with flt := { s.flt with standby := 2 } }

/-- The slot that a job now reads (R257). -/
def LoadJob.src (j : LoadJob) : Nat := if j.golden.isSome then 0 else j.slot

/-- The load ends with its reply (R265 step 7, R267, R271, R387). -/
def State.endLoad (s : State) (j : LoadJob) (st : BitVec 8) (det : Word) : State :=
  let s := s.modSlot j.src (fun x => { x with busy := false })
  let s := s.modLdr (fun l => { l with
    job := none
    loads := if st = stOK then satInc l.loads else l.loads
    fallbacks := if st = stFALLBACK then satInc l.fallbacks else l.fallbacks
    rejects := if st = stREJECT || st = stWORLD then satInc l.rejects else l.rejects
    prot := l.prot || (j.full && decide (j.slot = 0) && decide (st = stOK)) })
  let s := if j.full && (st = stOK || st = stFALLBACK) && (s.keel.dstate = .sealed || s.keel.dstate = .quiesced) then
      s.setDstate .safe
    else s
  s.complete j.entry { status := st, det0 := det }

/-- Read the records that a job comes to next, up to the first that `stays` puts off. -/
def State.scanJob (s : State) (j : LoadJob) (stays : Option Nat → Bool) : Scanned :=
  scanRecs (slotBase j.src) j.full j.hdr (if j.golden.isSome then j.env.goldenEcc else j.env.recEcc) stays (j.hdr.nrec - j.scan.num)
    s j.scan

/-- The last region of a full load is done. -/
def State.endFull (s : State) (j : LoadJob) : State :=
  let s := if j.scan.fw ≠ 0 then s.handover j.scan.code j.hdr.imgid j.env.firmwareOk else s
  let s := if s.boot.follower && j.scan.eq then s.modPel (fun p => { p with again := List.range 12 }) else s
  match j.golden with
  | none => s.endLoad j stOK 0
  | some (cause, region, num) => s.endLoad j stFALLBACK (lddet cause 1 region num)

/-! ## Records before the regions (R309, R317) -/

/-- Do a channel's results differ from its record (R309)? -/
def drifted (have_ rec_ : List Word) : Bool :=
  let tol := bits (rec_.getD 6 0) 39 32
  let far (a b : Nat) : Bool := decide (tol < (a - b) + (b - a))
  let f (i hi lo : Nat) (l : List Word) := bits (l.getD i 0) hi lo
  let delay (i hi lo : Nat) : Bool := far (f i hi lo have_) (f i hi lo rec_)
  (List.range 8).any (fun k => delay 0 (8 * k + 7) (8 * k)) || delay 1 7 0 || f 1 47 8 have_ ≠ f 1 47 8 rec_ || delay 1 63 48 ||
  [2, 3, 4, 5].any (fun i => (List.range 8).any (fun k => delay i (8 * k + 7) (8 * k))) ||
  (List.range 4).any (fun k => delay 6 (8 * k + 7) (8 * k))

/-- Compare one channel with its record, which becomes its starting values (R309). -/
def State.compareChan (s : State) (ws : List Word) (ch : Nat) : State :=
  let e := trainEntry ws ch
  let d := drifted (s.mchan ch).results e
  let s := s.modMchan ch (fun c => { c with drift := d, start := some e })
  if d then s.emit 7 false (packF [(0, 1, ch / 40), (1, 6, ch % 40)]) 0 0 else s

def State.applyRec (s : State) (r : Rec) : State :=
  if r.typ = 2 then s.modLdr (fun l => { l with eqtab := some (wordsOfBytes r.data) })
  else if r.typ = 3 then (List.range 80).foldl (fun s ch => s.compareChan (wordsOfBytes r.data) ch) s
  else s

/-! ## Running a load (R265 to R267) -/

/-- Close the region that a load has come to (step 2 of R265); a command that is closing it is answered. -/
def State.loadClose (s : State) (j : LoadJob) (r : Nat) : State :=
  let s := match (s.region r).closing with
    | some (.command e) => s.complete e { status := stOK }
    | _ => s
  let s := s.modLdr (fun l => { l with job := some { j with at_ := r }, region := BitVec.ofNat 7 r, slot := BitVec.ofNat 3 j.src })
  s.closeRegion r .load 2

/-- Apply the records that come before the regions, and close the first region; or the failure met there. -/
def State.startFull (s : State) (j : LoadJob) : State × Option ScanFail :=
  let r := s.scanJob j (fun reg => reg.isNone)
  match r.fail with
  | some f => (r.s, some f)
  | none => ((r.recs.foldl (fun s x => s.applyRec x) r.s).loadClose { j with scan := r.scan } 0, none)

/-- The golden image of slot 0 as a job's next image. -/
def State.goldenJob (s : State) (j : LoadJob) (was : Nat × Nat × Nat) : LoadJob :=
  { j with golden := some was, full := true, hdr := s.headerAt 0, scan := {} }

/-- The golden image's section for the region of a failed region load (R267): the outcome of R268. -/
def State.goldenRegion (s : State) (j : LoadJob) (r : Nat) : State × Nat :=
  let before := s.scanJob (s.goldenJob j (0, 0, 0)) (fun reg => match reg with
    | some q => decide (q < r)
    | none => true)
  let here := before.s.scanJob { s.goldenJob j (0, 0, 0) with scan := before.scan } (fun reg => decide (reg = some r))
  if before.fail.isSome || here.fail.isSome then (here.s, 4)
  else if here.recs.isEmpty then (here.s, 2)
  else
    let o := here.s.loadSection r here.recs (decide (j.env.goldenBad = some (Fin.ofNat 128 r)) || !s.dieUp r)
    (o.1, if o.2 then 1 else 4)

/-- A load has failed by R266 at region `r`, if any (R267). -/
def State.loadFailed (s : State) (j : LoadJob) (f : ScanFail) (r : Option Nat) : State :=
  let s := match r with
    | some r => s.modRegion r Region.emptied
    | none => s
  let reg := r.getD 0
  match j.golden with
  | some (cause, region, num) => s.endLoad j stFALLBACK (lddet cause 4 region num)
  | none =>
    if j.slot = 0 then s.endLoad j stREJECT (lddet f.cause 0 reg f.num)
    else if !s.ldr.prot then s.endLoad j stFALLBACK (lddet f.cause 3 reg f.num)
    else
      let s := (s.modSlot j.slot (fun x => { x with busy := false })).modSlot 0 (fun x => { x with busy := true })
      let g := s.goldenJob j (f.cause, reg, f.num)
      if j.full then
        let o := s.startFull g
        match o.2 with
        | some _ => o.1.endLoad g stFALLBACK (lddet f.cause 4 reg f.num)
        | none => o.1
      else
        let o := s.goldenRegion j reg
        o.1.endLoad { g with full := false } stFALLBACK (lddet f.cause o.2 reg f.num)

/-- Step 2 of region `r` is complete: steps 3 to 6, and on to the next region or to the reply. -/
def State.loadGo (s : State) (j : LoadJob) (r : Nat) : State :=
  let sc := s.scanJob j (fun reg => !j.full || decide (reg = some r))
  let j := { j with scan := sc.scan }
  let next (s : State) : State :=
    if !j.full then s.endLoad j stOK 0 else if 127 ≤ r then s.endFull j else s.loadClose j (r + 1)
  match sc.fail with
  | some f => sc.s.loadFailed j f (some r)
  | none =>
    if j.full && (sc.recs.isEmpty || !s.dieUp r) then next (sc.s.modRegion r Region.emptied)
    else
      let bad := decide ((if j.golden.isSome then j.env.goldenBad else j.env.readbackBad) = some (Fin.ofNat 128 r)) || !s.dieUp r
      let o := sc.s.loadSection r sc.recs bad
      if o.2 then next o.1 else o.1.loadFailed j ⟨0x14, 0, some r⟩ (some r)

/-- Is a channel being retrained, for whose data the loader waits (R310)? -/
def State.retraining (s : State) : Bool := s.mem.chans.any (fun c => decide (c.2.state = 2))

/-- The oldest load command that waits, when it is of channel `c` and opcode `opc` and the loader is free (R263, R460). -/
def State.loadNext (s : State) (c opc : Nat) : Option (Nat × LgEntry) :=
  match s.ldr.waiting with
  | [] => none
  | i :: _ => match s.entry i with
    | some e =>
      if decide (e.chan.toNat = c) && decide (e.opc.toNat = opc) && s.ldr.job.isNone && !s.retraining && (decide (opc = 0x12) || !s.keel.drain) then
        some (i, e)
      else none
    | none => none

/-- Take a load command (R263 to R265). -/
def State.loadCommand (s : State) (c opc : Nat) (env : LoadEnv) : State :=
  match s.loadNext c opc with
  | none => s
  | some (i, e) =>
    let s := s.modLdr (fun l => { l with waiting := l.waiting.drop 1 })
    let ws := wordsOfBytes (s.paramsOf i)
    let w (k : Nat) := ws.getD k 0
    let full := opc = 0x11
    let bad := bits (w 0) 63 40 ≠ 0 || bits (w 1) 63 40 ≠ 0 || (!full && bits (w 2) 63 7 ≠ 0)
    match slotOfBase (bits (w 0) 39 0) with
    | none => s.complete i { status := stPARAM }
    | some sl =>
      if bad then s.complete i { status := stPARAM }
      else
        let cmd := bits (w 2) 6 0
        let j : LoadJob := { entry := i, slot := sl, full := full, target := cmd, env := env, at_ := 0 }
        let s := (s.modSlot sl (fun x => { x with busy := true })).modLdr (fun l => { l with slot := BitVec.ofNat 3 sl })
        let s := s.eccRange (slotBase sl) (min slotSize ((s.headerAt sl).paylen + 3076)) env.hashEcc
        match s.loadChecks sl (bits (w 1) 39 0) full e.world cmd with
        | (s, .error (cause, st)) => s.endLoad j st (lddet cause 0 0 0)
        | (s, .ok h) =>
          let j := { j with hdr := h }
          if full then
            let o := s.startFull j
            match o.2 with
            | some f => o.1.loadFailed j f none
            | none => o.1
          else s.loadClose j (regionTarget ((s.firstReghdr sl).getD (0, [])) cmd)

/-- ISL_IMAGE_LOAD (R263 to R268, R460). -/
def islImageLoad (c : Nat) (env : LoadEnv) (s : State) : State := s.loadCommand c 0x11 env

/-- ISL_REGION_LOAD (R263 to R268). -/
def islRegionLoad (c : Nat) (env : LoadEnv) (s : State) : State := s.loadCommand c 0x12 env

/-- A reset or a failover interrupts the load (R269): the region being loaded is left closed and empty, and the command waits
to be run again. -/
def State.abortLoad (s : State) (again : Bool) : State :=
  match s.ldr.job with
  | none => s
  | some j =>
    let s := s.modSlot j.src (fun x => { x with busy := false })
    let s := s.modLdr (fun l => { l with job := none, waiting := if again then j.entry :: l.waiting else l.waiting })
    let s := { s with keel := { s.keel with rebuilt := if again then j.entry :: s.keel.rebuilt else s.keel.rebuilt } }
    if (s.region j.at_).closing = some .load then s.modRegion j.at_ Region.emptied else s

/-- REGION_CLOSE_COMPLETE (R242 step 7, R265, R273, R395, R447): steps 3 and 4 of a close are complete. -/
def regionCloseComplete (r : Nat) (s : State) : State :=
  let x := s.region r
  match x.closing with
  | none => s
  | some why =>
    if !x.quiet || (why = .load && s.retraining) then s
    else
      match why with
      | .command e => (s.modRegion r (fun x => { x with closing := none })).complete e { status := stOK }
      | .weevil => s.modRegion r (fun x => { x with closing := none })
      | .reset => s.modRegion r (fun x => { x with closing := none })
      | .load =>
        match s.ldr.job with
        | some j => if j.at_ = r then s.loadGo j r else s.modRegion r Region.emptied
        | none => s.modRegion r Region.emptied

end Sys2Proof.Machine
end

