-- ==== Sys2Proof/Machine/Weevil.lean ====
section
/-!
DEFINITION. Weevil scrubbing (09: R272 to R277).
-/
set_option autoImplicit false
namespace Sys2Proof.Machine

def State.weevil (s : State) (n : Nat) : Weevil := tget {} s.weevils n
def State.modWeevil (s : State) (n : Nat) (f : Weevil → Weevil) : State := { s with weevils := tmod {} n f s.weevils }

/-- The bitwise majority of the three latch copies. -/
def Weevil.used (w : Weevil) : Word :=
  let c (i : Nat) := w.copies.getD i 0
  (c 0 &&& c 1) ||| (c 0 &&& c 2) ||| (c 1 &&& c 2)

def wvEn (v : Word) : Bool := bit v 0
/-- The open regions of die `n` that a mask selects, ascending. -/
def State.wvRegions (s : State) (n : Nat) (v : Word) : List Nat :=
  (List.range 8).filter (fun r => bit v (8 + r) && (s.region (8 * n + r)).isOpen)

/-- Reads of a pass over a region (R277). -/
def passReads : Nat := 112564

/-- The Weevil goes on to the region after `r`; past the last one a round is complete. -/
def Weevil.onward (w : Weevil) (rs : List Nat) (r : Nat) : Weevil :=
  match rs.find? (fun q => decide (r < q)) with
  | some q => { w with region := BitVec.ofNat 3 q, pos := 0 }
  | none => { w with region := BitVec.ofNat 3 (rs.headD 0), pos := 0, rounds := w.rounds + 1 }

/-- An upset that the Weevil cannot mend (R273, R491). -/
def State.weevilUpset (s : State) (n r : Nat) (isCrc : Bool) (w2 : Nat) : State :=
  let x := s.region (8 * n + r)
  let s := s.emit 3 x.world (packF [(0, 4, n), (4, 3, r), (7, 1, b2n isCrc)]) (BitVec.ofNat 64 w2) (x.schk.setWidth 64)
  s.closeRegion (8 * n + r) .weevil 1

/-- WEEVIL_READ (R269, R272, R273, R276): one read of 64 bytes with what its eight words show; `crc` is what a pass that ends here finds, where it differs from
the content that the loader read back. -/
def weevilRead (n : Nat) (res : List EccResult) (crc : Option Word32) (s : State) : State :=
  let w := s.weevil n
  let v := w.used
  let rs := s.wvRegions n v
  if !wvEn v || rs.isEmpty || s.dieState n = 3 then s
  else
    let w := if rs.contains w.region.toNat then w else w.onward rs w.region.toNat
    let r := w.region.toNat
    let x := s.region (8 * n + r)
    let w := { w with corr := satInc w.corr ((res.take 8).filter (fun e => decide (e = EccResult.corrected))).length, readOne := true }
    match (res.take 8).findIdx? (fun e => decide (e = EccResult.uncorrectable)) with
    | some k => (s.modWeevil n (fun _ => w.onward rs r)).weevilUpset n r false (64 * w.pos + 8 * k)
    | none =>
      let w := { w with pos := w.pos + 1 }
      if w.pos < passReads then s.modWeevil n (fun _ => w)
      else
        let found := crc.getD x.schk
        let s := s.modWeevil n (fun _ => w.onward rs r)
        if found = x.schk then s else s.weevilUpset n r true found.toNat

/-- The ring of R274. -/
def wvRing : List Nat := [0, 1, 2, 3, 7, 11, 15, 14, 10, 6, 5, 9, 13, 12, 8, 4]

/-- The die that the Weevil of die `n` checks: the next of the ring that is not isolated. -/
def State.wvSuccessor (s : State) (n : Nat) : Option Nat :=
  let i := wvRing.idxOf n
  (((wvRing ++ wvRing).drop (i + 1)).take 15).find? (fun m => decide (s.dieState m ≠ 3))

/-- WEEVIL_CHECK (R274): the Weevil of die `n` checks its successor. -/
def weevilCheck (n : Nat) (s : State) : State :=
  if s.dieState n = 3 then s
  else match s.wvSuccessor n with
    | none => s
    | some m =>
      let w := s.weevil m
      let bad := (w.copies.filter (fun c => decide (c ≠ w.master))).length
      let w1 := { w with copies := [w.master, w.master, w.master], fixed := satInc w.fixed bad, readOne := false }
      if wvEn w.master && !(s.wvRegions m w.master).isEmpty && !w.readOne then
        s.modWeevil m (fun _ => { w1 with region := 0, pos := 0, restart := satInc w1.restart, fixed := satInc w1.fixed 3 })
      else s.modWeevil m (fun _ => w1)

/-- WVCTL_WRITE (R275). -/
def wvctlWrite (w : World) (n : Nat) (v : Word) (s : State) : State :=
  if !w then s
  else
    let m := packF [(0, 1, bits v 0 0), (8, 8, bits v 15 8), (16, 16, bits v 31 16)]
    s.modWeevil n (fun x => { x with master := m, copies := [m, m, m] })

/-- `WVSTAT` (R276). -/
def State.wvstat (s : State) (n : Nat) : Word :=
  let w := s.weevil n
  let st := if s.dieState n = 3 then 3 else if !wvEn w.used then 0 else if (s.wvRegions n w.used).isEmpty then 2 else 1
  packF [(0, 2, st), (2, 3, w.region.toNat), (8, 16, w.rounds.toNat), (24, 16, w.corr.toNat), (40, 8, w.fixed.toNat),
    (48, 8, w.restart.toNat)]

end Sys2Proof.Machine
end

