-- ==== Sys2Proof/Machine/Registers.lean ====
section
/-!
DEFINITION. The register map: every word of the keel-visible structures and of the tile, region and die windows, as it reads
(R8, R92) and as a write changes it (R9).
-/
set_option autoImplicit false
namespace Sys2Proof.Machine

/-- A register write while the block takes no command has no effect. -/
def State.whenUp (s : State) (f : State → State) : State := if s.up then f s else s

/-! ## Spokes, timing, counters (01, 02, 07) -/

/-- `PACECTL` (R47). -/
def State.pacectlWrite (s : State) (v : Word) : State :=
  s.modTim (fun t => { t with floor := BitVec.ofNat 16 (bits v 15 0), clrReq := t.clrReq || bit v 16 })

def State.wctr (s : State) (c : Nat) : Counter := tget {} s.ctrs.ctrs c

/-- `WCTR0`, `WCTR1` (R211). -/
def State.wctrWord (s : State) (c k : Nat) : Word :=
  if k = 0 then packF [(0, 48, (s.wctr c).value.toNat), (48, 14, (s.ctrs.pool.filter (fun e => decide (e.1 = c))).length)]
  else packF [(0, 48, (s.wctr c).limit.toNat)]

/-- `WCPOOL` (R214). -/
def State.wcpool (s : State) : Word := packF [(0, 14, s.ctrs.pool.length), (32, 16, s.ctrs.dropped.toNat)]

/-! ## Memory words (10) -/

/-- `MCTL` after a write (R305): reserved values leave their fields. -/
def Mctl.merge (c : Mctl) (v : Word) : Mctl :=
  { age := if bits v 9 0 = 0 then c.age else BitVec.ofNat 10 (bits v 9 0)
    rht := if bits v 30 16 < 512 then c.rht else BitVec.ofNat 15 (bits v 30 16)
    rad := if bits v 33 32 = 0 || bits v 33 32 = 3 then c.rad else BitVec.ofNat 2 (bits v 33 32)
    uelim := if bits v 47 40 = 0 then c.uelim else BitVec.ofNat 8 (bits v 47 40) }

def State.mctlWrite (s : State) (m : Nat) (v : Word) : State :=
  s.setMem (fun x => { x with mctl := tmod ({} : Mctl) m (fun c => c.merge v) x.mctl })

/-! ## Security words (14) -/

/-- `WTILE` (R411). -/
def State.wtileWord (s : State) (t : Nat) : Word :=
  packF [(0, 1, b2n (s.wtile t 0)), (1, 1, b2n (s.wtile t 1)), (2, 1, b2n (tget false s.sec.wtileClr t))]

/-- `FUSESTAT` (R418). -/
def Security.fusestat (x : Security) : Word :=
  packF [(0, 12, x.epoch.toNat), (12, 1, b2n x.epv), (13, 13, x.epUsed.toNat), (26, 1, b2n x.owner), (27, 1, b2n x.voff),
    (28, 2, x.fcmd.toNat)]

/-- `ATTSTAT` (R425). -/
def Security.attstat (x : Security) : Word := packF [(0, 1, b2n x.attReady), (1, 9, x.attNext.toNat)]

/-! ## Fault words (15) -/

/-- The routes by which the keel places tiles. -/
def State.keelRoutes (s : State) : Routes := s.routesOf 18

/-- `TROUTE` (R429). -/
def State.troute (s : State) (l : Nat) : Word :=
  let r := tlook l s.keelRoutes.tile
  packF [(0, 6, r.getD 0), (6, 1, b2n r.isSome), (7, 3, (tget 0 s.flt.subs l).toNat)]

def ptCode : PtState → Nat
  | .active => 0
  | .spare => 1
  | .retired => 2
  | .isolated => 3

/-- `PTSTAT` (R430). -/
def PTile.word (x : PTile) : Word :=
  packF [(0, 2, ptCode x.state), (2, 10, if x.state = .active then x.logical else 0), (12, 8, x.hwflt.toNat), (20, 1, b2n x.selftest)]

/-- Spares of a die, ascending, and the number of its unplaced logical tiles (R442). -/
def State.spares (s : State) (n : Nat) : List Nat :=
  (List.range 52).filter (fun t => (tget ({} : PTile) s.flt.ptiles (52 * n + t)).state = .spare)
def State.unplaced (s : State) (n : Nat) : Nat :=
  ((List.range 48).filter (fun j => (tlook (48 * n + j) s.keelRoutes.tile).isNone)).length

/-- `FDSTAT` (R442). -/
def State.fdstat (s : State) (n : Nat) : Word :=
  let x : FieldDie := tget {} s.flt.dies n
  packF [(0, 2, x.state.toNat), (2, 4, x.cause.toNat), (6, 3, (s.spares n).length), (9, 6, s.unplaced n)]

/-- `FLTSTAT` (R444). -/
def State.fltstat (s : State) : Word :=
  let f := s.flt
  packF [(0, 16, f.tgen.toNat), (16, 16, f.dgen.toNat), (32, 1, b2n f.pair), (33, 2, f.standby.toNat), (35, 3, f.fcause.toNat),
    (40, 8, f.failovers.toNat), (48, 6, ((List.range 34).filter (fun i => (s.side (2 * i)).state = 2)).length),
    (54, 5, ((List.range 16).filter (fun n => s.dieState n = 3)).length)]

/-! ## Keel words (13, 16) -/

/-- `CHSTAT`, `CHSEQ` (R379). -/
def ChanSt.word (c : ChanSt) : Word :=
  packF [(0, 1, b2n c.isOpen), (1, 1, b2n c.world), (2, 2, c.path.toNat), (8, 18, c.quotaE.toNat), (26, 20, c.quotaP.toNat),
    (46, 16, c.alivExp.toNat)]

def dstateCode : DevState → Nat
  | .sealed => 0
  | .safe => 1
  | .armed => 2
  | .running => 3
  | .freewheel => 4
  | .quiesced => 5

/-- `DSTATE` (R388). -/
def Keel.dstateWord (k : Keel) : Word :=
  packF [(0, 3, dstateCode k.dstate), (3, 1, b2n k.drain), (8, 3, dstateCode k.prev), (16, 16, k.warms.toNat)]

/-- `LGSTAT` (R405). -/
def Keel.lgstat (k : Keel) : Word :=
  packF [(0, 18, k.ledger.length), (32, 16, k.replayed.toNat), (48, 2, k.mirror.toNat), (50, 2, k.degraded.toNat)]

/-- `EVSTAT` (R400). -/
def Keel.evstat (k : Keel) : Word := packF [(0, 15, k.events.length), (32, 16, k.dropped.toNat)]

/-- `BOOTSTAT` (R458). -/
def Boot.word (b : Boot) : Word :=
  packF [(0, 2, b.rate.toNat), (2, 1, b2n b.leadsel), (3, 1, b2n b.fw), (8, 10, b.tfail.toNat), (18, 5, b.dfail.toNat),
    (32, 32, b.fwimg.toNat)]

/-! ## Tile windows (R92 to R94, R122, R124, R157) -/

/-- State of a plane as `TILESTAT` shows it (R94; log entry 9). -/
def CtxSt.planeCode (x : CtxSt) (q : Nat) : Nat :=
  let inUse := x.flight.any (fun v => decide (aiPlane v.ins.w0 = q)) ||
    (match x.strm with
      | some i => decide (aiPlane i.ins.w0 = q)
      | none => false)
  if inUse then 3
  else match (x.plane q).st with
    | .empty => 0
    | .loading => 1
    | .entered => 1
    | .complete => 2
    | .sums => Config.sumsPlaneCode.toNat

def CtxSt.code (x : CtxSt) : Nat := if x.task.isNone then 0 else if x.ending.isSome then 2 else 1

/-- `TILESTAT` (R94). -/
def State.tilestat (s : State) (p : Nat) : Word :=
  let t := s.tile p
  packF [(0, 1, b2n t.split), (1, 1, b2n (s.logicalOf p).isSome), (2, 2, t.c0.planeCode 0), (4, 2, t.c0.planeCode 1),
    (6, 2, if t.split then t.c1.planeCode 0 else 0), (8, 2, if t.split then t.c1.planeCode 1 else 0),
    (10, 2, t.c0.code), (12, 2, t.c1.code)]

/-- `TFLT`, `TFLOC` (R122). -/
def CtxSt.tflt (x : CtxSt) : Word :=
  packF [(0, 1, b2n x.fValid), (1, 2, x.fScope.toNat), (8, 8, x.fCode.toNat), (16, 16, x.fCount.toNat), (32, 32, x.fTask.toNat)]
def CtxSt.tfloc (x : CtxSt) : Word := packF [(0, 32, x.fLoc1.toNat), (32, 32, x.fLoc2.toNat)]

/-- `TECC` (R124). -/
def Tile.tecc (t : Tile) : Word := packF [(0, 16, t.eccA.toNat), (16, 16, t.eccB.toNat), (32, 16, t.eccAcc.toNat)]

/-- World of the words of context `c` of a physical tile, and of the whole tile. -/
def State.ctxWorld (s : State) (p c : Nat) : World := s.engineWorld p (arrEngine c)
def State.wholeWorld (s : State) (p : Nat) : World := s.ctxWorld p 0 || s.ctxWorld p 1

/-- The engine whose flag and capture words lie at an offset, and which of the four it is (R93, R157). -/
def flagOff (off : Nat) : Option (Engine × Nat) :=
  let k := off % 32 / 8
  if 0x100 ≤ off && off < 0x120 then some (.array, k)
  else if 0x140 ≤ off && off < 0x160 then some (.h1, k)
  else if 0x180 ≤ off && off < 0x1A0 then some (.mvp, k)
  else if 0x1C0 ≤ off && off < 0x1E0 then some (.tvu0, k)
  else if 0x1E0 ≤ off && off < 0x200 then some (.tvu1, k)
  else none

/-- A word of a tile's window as a world reads it, with the effect of the read (R83, R92). -/
def State.tileWordRead (s : State) (w : World) (p off : Nat) : State × Word :=
  let t := s.tile p
  let see (own : World) (v : Word) : State × Word := (s, if !w && own then 0 else v)
  if off = 0 then see (s.wholeWorld p) (s.tilestat p)
  else if off = 0x10 then see (s.ctxWorld p 0) t.c0.tflt
  else if off = 0x18 then see (s.ctxWorld p 0) t.c0.tfloc
  else if off = 0x20 then see (s.ctxWorld p 1) t.c1.tflt
  else if off = 0x28 then see (s.ctxWorld p 1) t.c1.tfloc
  else if off = 0x30 then see (s.wholeWorld p) t.tecc
  else match flagOff off with
    | none => (s, 0)
    | some (e, k) =>
      if !w && s.engineWorld p e then (s, 0)
      else if k = 0 then (s.modTile p (fun t => t.setFlag e (t.flag e).read), (t.flag e).toWord)
      else (s, (t.flag e).capt (k - 1))

/-- A word of a region's window (R226, R238, R243). -/
def State.regionWordRead (s : State) (w : World) (r off : Nat) : Word :=
  let x := s.region r
  if !w && x.world then 0
  else if off = 0 then x.word
  else if off < 0x28 then (tget ({} : ClockGen) x.gens ((off - 8) / 8)).word s.tim.dpace.seq
  else if 0x100 ≤ off && off < 0x280 then (x.qc ((off - 0x100) / 8)).word
  else 0

/-! ## Reading (R8, R92, R395) -/

/-- Is `a` one of `n` words that lie `step` apart from `base`? Which? -/
def atWord (a base n step : Nat) : Option Nat :=
  if base ≤ a && a < base + n * step && (a - base) % step = 0 then some ((a - base) / step) else none

/-- A word of 0xFC_0000_0000 to 0xFC_0013_FFFF, by its offset. -/
def State.keelWord (s : State) (w : World) (a : Nat) : Word :=
  let blk := a / 0x10000
  let o := a % 0x10000
  let sec (v : Word) : Word := if w then v else 0
  if 0x10 ≤ blk then
    let i := (a - 0x100000) / 16
    let e := s.act i
    if !w && e.world then 0 else if a % 16 = 0 then e.w0 else e.w1
  else match blk with
  | 0 => if o = 0 then s.kid else 0
  | 1 => if o < 8 * 68 then (s.side (o / 8)).word else 0
  | 2 =>
    if o < 0x80 then s.paceWord (o / 8)
    else if o = 0x80 then s.dpaceWord
    else if o = 0x88 then s.tim.floor.setWidth 64
    else if 0x100 ≤ o && o < 0x100 + 8 * 19 then (tget ({} : TempWord) s.tim.temps ((o - 0x100) / 8)).word
    else 0
  | 3 => if w == s.wcbank (o / 16 / 256) then s.wctrWord (o / 16) (o % 16 / 8) else 0
  | 4 => if o = 0 then sec s.wcpool else 0
  | 5 =>
    if o < 0x800 then s.gpioWord (o / 8)
    else if o < 0x900 then tget 0 s.fab.ffland ((o - 0x800) / 8)
    else if o < 0x980 then s.fwdckWord ((o - 0x900) / 8)
    else 0
  | 6 => if o = 0 then s.ldstat else if 0x100 ≤ o && o < 0x140 then s.slotWord ((o - 0x100) / 8) else 0
  | 7 =>
    if o < 0x1000 then (s.mrtE (o / 8)).word
    else if o < 0x1280 then (s.mchan ((o - 0x1000) / 8)).word
    else if o = 0x1400 || o = 0x1408 then (tget ({} : Mctl) s.mem.mctl ((o - 0x1400) / 8)).word
    else if 0x1800 ≤ o && o < 0x1900 then (tget ({} : RtPort) s.mem.rtport ((o - 0x1800) / 8)).word
    else if 0x2000 ≤ o && o < 0x3400 then sec ((s.mchan ((o - 0x2000) / 64)).results.getD (o % 64 / 8) 0)
    else 0
  | 8 =>
    if o < 0x300 then (s.lane (o / 8)).cfg
    else if 0x400 ≤ o && o < 0x700 then s.lnstat ((o - 0x400) / 8)
    else if 0x800 ≤ o && o < 0x860 then s.vpWord ((o - 0x800) / 8)
    else if o = 0x900 then s.pelcfgWord
    else if o = 0x908 then s.pelstatWord
    else if 0xA00 ≤ o && o < 0xC00 then s.plrouteWord ((o - 0xA00) / 8)
    else 0
  | 9 =>
    if o < 0x20 then (s.odo (o / 8)).cfgWord
    else if 0x40 ≤ o && o < 0x80 then s.odoPos ((o - 0x40) / 32) ((o - 0x40) / 8 % 4)
    else if 0x80 ≤ o && o < 0xA0 then (s.odo ((o - 0x80) / 8)).statWord
    else 0
  | 0xB =>
    if o < 0x1800 then s.wtileWord (o / 8)
    else if o < 0x1880 then packF [(0, 1, b2n (s.wcbank ((o - 0x1800) / 8)))]
    else if 0x1900 ≤ o && o < 0x1960 then packF [(0, 1, b2n (s.wlane ((o - 0x1900) / 8)))]
    else 0
  | 0xC =>
    if o = 0 then s.sec.fusestat
    else if o = 8 then s.sec.attstat
    else if 0x100 ≤ o && o < 0x140 then Config.devid ((o - 0x100) / 8)
    else 0
  | 0xD =>
    if o < 0x1800 then s.troute (o / 8)
    else if 0x2000 ≤ o && o < 0x2000 + 8 * 832 then (tget ({} : PTile) s.flt.ptiles ((o - 0x2000) / 8)).word
    else if 0x4000 ≤ o && o < 0x4080 then s.fdstat ((o - 0x4000) / 8)
    else if o = 0x4080 then s.fltstat
    else if o = 0x4088 then s.flt.tlim.setWidth 64
    else 0
  | 0xE => if o < 0x800 then (s.stream_ (o / 64)).word (o % 64 / 8) else 0
  | 0xF =>
    if o < 0x400 then (if o % 16 = 0 then (s.chan (o / 16)).word else (s.chan (o / 16)).next.setWidth 64)
    else if o = 0x1000 then s.keel.dstateWord
    else if o = 0x1008 then sec s.keel.lgstat
    else if o = 0x1010 then s.keel.evPath.setWidth 64
    else if o = 0x1018 then s.keel.evstat
    else if o = 0x1020 then s.boot.word
    else 0
  | _ => 0

/-- The word at an 8-byte address of 0xFC_0000_0000 to 0xFF_FFFF_FFFF as a world reads it. Where no word is defined it
reads as zero. -/
def State.readReg (s : State) (w : World) (a : Nat) : State × Word :=
  if a < 0xFC00140000 then (s, s.keelWord w (a - 0xFC00000000))
  else if 0xFC40000000 ≤ a && a < 0xFC41000000 then
    let n := (a - 0xFC40000000) / 0x100000
    let o := a % 0x100000
    if o < 0x34000 then s.tileWordRead w (52 * n + o / 0x1000) (o % 0x1000)
    else if 0x80000 ≤ o && o < 0x88000 then (s, s.regionWordRead w (8 * n + (o - 0x80000) / 0x1000) (o % 0x1000))
    else if 0x88000 ≤ o && o < 0x88080 then (s, tget 0 s.fab.ffsel (16 * n + (o - 0x88000) / 8))
    else if o = 0x89000 then (s, (s.weevil n).master)
    else if o = 0x89008 then (s, s.wvstat n)
    else (s, 0)
  else (s, 0)

/-! ## Fuse commands (R419) -/

/-- The staged owner root. -/
def Security.staged (x : Security) : List Byte :=
  (List.range 8).flatMap (fun w => bytesOf 8 (tget 0 x.stage w).toNat)

def State.modSec (s : State) (f : Security → Security) : State := { s with sec := f s.sec }

/-- The result of a fuse command; the staging words are cleared after it. -/
def State.fuseEnd (s : State) (res : BitVec 2) : State := s.modSec (fun x => { x with fcmd := res, stage := [] })

/-- OP 0x1 (R419). -/
def State.fuseOwner (s : State) (chk : Word32) (blown : Bool) : State :=
  let key := s.sec.staged
  if s.keel.dstate ≠ .safe || s.sec.owner || crc32c key ≠ chk || s.sec.blowBarred then s.fuseEnd 2
  else if blown then (s.modSec (fun x => { x with owner := true, ownerRoot := key })).fuseEnd 1
  else (s.modSec (fun x => { x with blowBarred := true })).fuseEnd 3

/-- OP 0x2 (R419). -/
def State.fuseVendor (s : State) (blown : Bool) : State :=
  if s.keel.dstate ≠ .safe || !s.sec.owner || (s.slot 0).signer = some false || s.sec.blowBarred then s.fuseEnd 2
  else if blown then (s.modSec (fun x => { x with voff := true })).fuseEnd 1
  else (s.modSec (fun x => { x with blowBarred := true })).fuseEnd 3

/-- FUSE_BLOW_OWNER_ROOT (R419): `blown` says whether the fuses read back as written. -/
def fuseBlowOwnerRoot (w : World) (chk : Word32) (blown : Bool) (s : State) : State :=
  if w then s.fuseOwner chk blown else s

/-- FUSE_DISABLE_VENDOR_ROOT (R419): `FUSECMD.CHK` is zero for this command. -/
def fuseDisableVendorRoot (w : World) (chk : Word32) (blown : Bool) (s : State) : State :=
  if !w then s else if chk ≠ 0 then s.fuseEnd 2 else s.fuseVendor blown

/-- A word written to `FUSECMD`: whether a blow reads back is a free value (log entry 27); an OP of 0 or 3 is no command. -/
def State.fusecmdWrite (s : State) (v : Word) : State :=
  let chk := BitVec.ofNat 32 (bits v 63 32)
  let blown := (Config.freeWord s.fresh 1).getLsbD 0
  if bits v 1 0 = 1 then (fuseBlowOwnerRoot true chk blown s).bump
  else if bits v 1 0 = 2 then (fuseDisableVendorRoot true chk blown s).bump
  else s

/-! ## Writing (R9) -/

/-- A secure write of a word of the keel-visible structures. -/
def State.keelWrite (s : State) (a : Nat) (v : Word) : State :=
  let o := a % 0x10000
  match a / 0x10000 with
  | 2 => if o = 0x88 then s.pacectlWrite v else s
  | 5 =>
    if o < 0x800 then gpiocfgWrite true (o / 0x400) (o % 0x400 / 8) v s
    else if o < 0x900 then
      let i := (o - 0x800) / 8
      { s with fab := { s.fab with ffland := tput i (fflandMerge (i / 16) (tget 0 s.fab.ffland i) v) s.fab.ffland } }
    else if o < 0x980 then s.fwdckWrite ((o - 0x900) / 8) v
    else s
  | 7 =>
    if o < 0x1000 then s.mrtSet (o / 8) v
    else if o = 0x1400 || o = 0x1408 then s.mctlWrite ((o - 0x1400) / 8) v
    else if 0x1800 ≤ o && o < 0x1900 then rtportWrite true ((o - 0x1800) / 128) ((o - 0x1800) / 8 % 16) v s
    else s
  | 8 =>
    if o < 0x300 then s.laneCfg (o / 8) v
    else if o = 0x900 then s.pelcfgWrite v
    else if 0xA00 ≤ o && o < 0xC00 then s.plrouteWrite ((o - 0xA00) / 8) v
    else s
  | 9 => if o < 0x20 then odocfgWrite true (o / 8) v s else s
  | 0xC =>
    if 0x200 ≤ o && o < 0x240 then s.modSec (fun x => { x with stage := tput ((o - 0x200) / 8) v x.stage })
    else if o = 0x240 then s.fusecmdWrite v
    else s
  | 0xD =>
    if o = 0x4088 && bits v 3 0 ≠ 0 then { s with flt := { s.flt with tlim := BitVec.ofNat 4 (bits v 3 0) } } else s
  | 0xE => if o < 0x800 then ingcfgWrite true (o / 0x400) (o % 0x400 / 64) (o % 64 / 8) v s else s
  | 0xF => if o = 0x1010 then { s with keel := { s.keel with evPath := BitVec.ofNat 2 (bits v 1 0) } } else s
  | _ => s

/-- A write of the word at an 8-byte address of 0xFC_0000_0000 to 0xFF_FFFF_FFFF. Every word that software writes is written
from the secure world only. -/
def State.writeReg (s : State) (w : World) (a : Nat) (v : Word) : State :=
  if !w || a % 8 ≠ 0 then s
  else if 0xFC00000000 ≤ a && a < 0xFC00140000 then s.keelWrite (a - 0xFC00000000) v
  else if 0xFC40000000 ≤ a && a < 0xFC41000000 then
    let n := (a - 0xFC40000000) / 0x100000
    let o := a % 0x100000
    if 0x88000 ≤ o && o < 0x88080 then
      let i := 16 * n + (o - 0x88000) / 8
      { s with fab := { s.fab with ffsel := tput i (ffselMerge (tget 0 s.fab.ffsel i) v) s.fab.ffsel } }
    else if o = 0x89000 then wvctlWrite true n v s
    else s
  else s

/-- REGISTER_WRITE (R9). -/
def registerWrite (w : World) (a : Nat) (v : Word) (s : State) : State := s.whenUp (fun s => s.writeReg w a v)

/-! ## Firefly probes (R248 to R250, R483) -/

/-- A hard-block status signal of die `n` (R249). -/
def State.statusCode (s : State) (n code : Nat) : Bool :=
  if code < 0x340 then
    let t := s.tile (52 * n + code / 16)
    let g := code % 16
    if g = 0 then t.c0.task.isSome
    else if g = 1 then t.c1.task.isSome
    else if g = 2 then t.rowTog
    else if g = 3 then t.planeTog
    else if g = 4 then t.prog.isSome
    else if g = 5 then (match t.prog with
      | some q => q.inHandler
      | none => false)
    else if g = 6 then (t.c0.xfers ++ t.c1.xfers).any (fun x => decide (x.inFlight ≠ 0))
    else if g = 7 then t.c0.waiting || t.c1.waiting
    else false
  else if code < 0x4C0 then !((s.region (8 * n + (code - 0x340) / 48)).qc ((code - 0x340) % 48)).fill.isEmpty
  else if code < 0x4E0 then (tget ({} : ClockGen) (s.region (8 * n + (code - 0x4C0) / 4)).gens ((code - 0x4C0) % 4)).level
  else if code < 0x524 then
    let d := code - 0x4E0
    (dirFrom d = n || dirTo d = n) && (s.side d).state = 1
  else false

/-- What probe `p` of die `n` drives (R242 step 6, R248, R249). -/
def State.probe (s : State) (n p : Nat) : Bool :=
  let v := tget 0 s.fab.ffsel (16 * n + p)
  if bits v 1 0 = 1 then
    let r := 8 * n + bits v 4 2
    (s.region r).isOpen && s.netOf r (.cell (bits v 22 5) (Fin.ofNat 4 (bits v 25 23)))
  else if bits v 1 0 = 2 then bits v 22 16 = 0 && s.statusCode n (bits v 15 5)
  else false

/-- The level of probe land `l` of rim `m` (R250, R483, R486): it shows only dies of its rim's columns. -/
def State.landLevel (s : State) (m l : Nat) : Bool :=
  let v := tget 0 s.fab.ffland (16 * m + l)
  bit v 8 && tget 0 s.fab.bankV (4 * m) ≠ 0 && s.boot.phase ≠ .held && bits v 3 0 % 4 / 2 = m && s.probe (bits v 3 0) (bits v 7 4)

/-- The level of RESET_n of the memory devices of channel `ch` (R451, R486): low until training begins, then as training and
JESD209-5 drive it, which the spec does not lay out: a free value. -/
def State.memResetN (s : State) (ch : Nat) : Bool := s.boot.phase ≠ .held && bit (Config.freeWord s.fresh ch) 4

end Sys2Proof.Machine
end

