-- ==== Sys2Proof/Machine/Intake.lean ====
section
/-!
DEFINITION. Packets, credits, the ledger and the start of commands (13: R369 to R393, R398 to R400, R402, R403).
-/
set_option autoImplicit false
namespace Sys2Proof.Machine

/-! ## Packets (R373, R380, R398) -/

def Packet.opc (p : Packet) : Nat := bits p.w0 15 0
def Packet.seq (p : Packet) : Nat := bits p.w0 63 16
def Packet.chan (p : Packet) : Nat := bits p.w1 7 0
def Packet.world (p : Packet) : World := bit p.w1 8
def Packet.fence (p : Packet) : Bool := bit p.w1 9
def Packet.plen (p : Packet) : Nat := bits p.w1 28 16
def Packet.alive (p : Packet) : Nat := bits p.w1 47 32
def Packet.member (p : Packet) : Nat := bits p.w1 54 48
def Packet.rack (p : Packet) : Nat := bits p.w2 47 0

/-- Parameter units of a length (R377). -/
def unitsOf (plen : Nat) : Nat := cdiv plen 256

/-- `IP.CHK` as it should be (R374). -/
def Packet.check (p : Packet) : Word32 := crc32c (bytesOfWords [p.w0, p.w1, p.w2] ++ p.params)

/-- Does a reserved field or value break the header (R375, reason 0x6)? -/
def Packet.badForm (p : Packet) : Bool :=
  63 < p.chan || bits p.w1 15 10 ≠ 0 || bits p.w1 31 29 ≠ 0 || bits p.w1 63 55 ≠ 0 || bits p.w2 63 48 ≠ 0 || bits p.w3 63 32 ≠ 0 ||
  4096 < p.plen || (64 ≤ p.member && p.member ≤ 126)

/-- The packet that begins at a 64-byte boundary of a module's stream, once its bytes are there (R371). -/
def packetOfBytes (bs : List Byte) : Option Packet :=
  let w (i : Nat) := wordOfBytes (bs.drop (8 * i))
  let n := bits (w 1) 28 16
  if bs.length < 32 + n then none
  else some { w0 := w 0, w1 := w 1, w2 := w 2, w3 := w 3, params := (bs.drop 32).take n }

/-! ## Replies and credit (R375, R378, R386) -/

/-- Does a path carry nothing now: a lost path (R408), or a host site that is idle (R2, R11)? -/
def State.lostPath (s : State) (path : OutPath) : Bool :=
  match path with
  | .host m => !s.hPart || s.boot.follower || s.keel.lostPaths.contains (if m then .host1 else .host0)
  | .ssp => s.keel.lostPaths.contains .ssp
  | .vorot => false

/-- The entry of a command by its channel and sequence number. -/
def State.findSeq (s : State) (c seq : Nat) : Option (Nat × LgEntry) :=
  s.keel.ledger.find? (fun (x : Nat × LgEntry) => decide (x.2.chan.toNat = c) && decide (x.2.seq.toNat = seq))

/-- Send the recorded reply of an entry, with the credit freed since the last (R378, R380). -/
def State.sendReply (s : State) (e : LgEntry) (r : Reply) (replay : Bool) : State :=
  let c := e.chan.toNat
  let x := s.chan c
  let ce := min x.freedE 65535
  let cp := min x.freedP 65535
  let s := s.modChan c (fun y => { y with
    freedE := y.freedE - ce, freedP := y.freedP - cp, heldE := y.heldE + ce, heldP := y.heldP + cp, devAlive := y.devAlive + 1 })
  s.sendOut (s.pathOf c) (rpPacket 1 false replay x.world r.status e.seq.toNat c s.pelNum ce cp x.devAlive.toNat r.det0 r.det1)

/-- Does a reply of the channel wait to be sent (R378)? -/
def State.replyWaits (s : State) (c : Nat) : Bool :=
  s.keel.ledger.any (fun x => decide (x.2.chan.toNat = c) && decide (x.2.state = .complete) &&
    decide ((s.chan c).replyNext ≤ x.2.seq.toNat))

/-- One credit notice with the freed credit (R378, R380). -/
def State.creditNotice (s : State) (c : Nat) : State :=
  let x := s.chan c
  if x.freedE = 0 && x.freedP = 0 then s
  else
    let ce := min x.freedE 65535
    let cp := min x.freedP 65535
    let s := s.modChan c (fun y => { y with
      freedE := y.freedE - ce, freedP := y.freedP - cp, heldE := y.heldE + ce, heldP := y.heldP + cp, devAlive := y.devAlive + 1 })
    s.sendOut (s.pathOf c) (rpPacket 4 false false x.world stOK 0 c s.pelNum ce cp x.devAlive.toNat 0 0)

/-- Credit notices until nothing freed is left: each carries at most 65,535 of a kind, a channel at most 524,288. -/
def State.creditNow (s : State) (c : Nat) : State := (List.range 9).foldl (fun s _ => s.creditNotice c) s

/-- Deliver an `IP.RACK`: free every entry whose reply has been sent and is covered, and return its cost (R377, R378, R390). -/
def State.deliverRack (s : State) (c rack : Nat) : State :=
  let done := s.keel.ledger.filter (fun (x : Nat × LgEntry) => decide (x.2.chan.toNat = c) && decide (x.2.state = .complete) &&
    decide (x.2.seq.toNat ≤ rack) && decide (x.2.seq.toNat < (s.chan c).replyNext))
  let units := done.foldl (fun a x => a + unitsOf x.2.plen.toNat) 0
  let s := done.foldl (fun (s : State) x =>
    let k := s.keel
    let drop (t : Table (List Byte)) := if x.2.plen = 0 then t else tdel x.2.punit.toNat t
    ({ s with keel := { k with
      pstoreW := drop k.pstoreW, pstoreE := drop k.pstoreE, rebuilt := k.rebuilt.filter (· ≠ x.1) } } : State).lgFree x.1) s
  let s := s.modChan c (fun y => { y with
    freedE := y.freedE + done.length, freedP := y.freedP + units, racked := max y.racked (rack + 1) })
  if s.replyWaits c then s else s.creditNow c

/-- A check notice (R375, R381) on the path that the packet came by. -/
def State.notice (s : State) (path : OutPath) (p : Packet) (member reason : Nat) : State :=
  let x := s.chan p.chan
  let s := if x.isOpen then s.modChan p.chan (fun y => { y with devAlive := y.devAlive + 1 }) else s
  s.sendOut path (rpPacket 1 true false x.world stCHECK p.seq p.chan member 0 0 (if x.isOpen then x.devAlive.toNat else 0)
    (BitVec.ofNat 64 reason) (x.next.setWidth 64))

/-- Credit that the host holds on a channel: charged at acceptance, given back when it is sent (R377, R395, R399). -/
def ChanSt.holds (c : ChanSt) (plen : Nat) : Bool := decide (1 ≤ c.heldE) && decide ((unitsOf plen : Int) ≤ c.heldP)

/-! ## Intake (R375, R376, R464) -/

/-- `CHSTAT.PATH` of an arrival. -/
def pathCode : OutPath → BitVec 2
  | .host _ => 0
  | .ssp => 2
  | .vorot => 3

/-- Reasons 0x1, 0x6 and 0x4 of R375. -/
def State.early (s : State) (path : OutPath) (p : Packet) : Option Nat :=
  let x := s.chan p.chan
  let onPath := x.path = pathCode path && (match path with
    | .host m => m == decide (p.chan % 2 = 1)
    | _ => true)
  if BitVec.ofNat 32 (bits p.w3 31 0) ≠ p.check then some 1
  else if p.badForm then some 6
  else if !x.isOpen || !onPath || x.world != p.world then some 4
  else none

/-- Reasons 0x7, 0x2, 0x3 and 0x5. -/
def State.late (s : State) (p : Packet) : Option Nat :=
  let x := s.chan p.chan
  let mine := p.member = 127 || p.member = s.pelNum || (s.boot.follower && s.pelNum = 127 && p.member ≤ 63)
  if !mine then some 7
  else if p.alive ≠ x.alivExp.toNat then some 2
  else if p.opc ≠ 0 && x.next.toNat < p.seq then some 3
  else if p.opc ≠ 0 && p.seq = x.next.toNat && !x.holds p.plen then some 5
  else none

/-- A resend (R375): the stored reply goes out again, unless it still waits for its turn or `IP.RACK` covers it. -/
def State.resend (s : State) (c seq rack : Nat) : State :=
  match s.findSeq c seq with
  | some (_, e) =>
    match e.reply with
    | some r => if e.state = .complete && seq < (s.chan c).replyNext && rack < seq then s.sendReply e r true else s
    | none => s
  | none => s

/-- A packet that passed (R375): the alive count advances, `IP.RACK` is delivered, and a command goes on. -/
def State.passed (s : State) (p : Packet) : State :=
  let c := p.chan
  let s := s.modChan c (fun y => { y with alivExp := y.alivExp + 1 })
  let s := s.deliverRack c p.rack
  if p.opc = 0 then s
  else if p.seq = (s.chan c).next.toNat then
    { s with keel := { s.keel with accepting := s.keel.accepting ++ [{ pkt := p, chan := c }] } }
  else s.resend c p.seq p.rack

/-- A lead takes a packet for another member (R376). -/
def State.forMember (s : State) (path : OutPath) (p : Packet) : State :=
  match s.early path p with
  | some r => s.notice path p 0 r
  | none =>
    if !(s.chan p.chan).world then s.notice path p 0 4
    else match tlook p.member s.ser.pel.routes with
      | some (_, true) =>
        s.relay { kind := 3, vc := 2, world := true, dest := p.member, src := 0
                  data := [p.w0, p.w1, p.w2, p.w3] ++ (chunks 8 p.params.length p.params).map wordOfBytes } false
      | _ => s.notice path p 0 7

/-- A packet at the keel. -/
def State.packetIn (s : State) (path : OutPath) (p : Packet) : State :=
  if s.lead && decide (path ≠ .vorot) && 1 ≤ p.member && p.member ≤ 63 && p.member ≠ s.pelNum then s.forMember path p
  else match s.early path p with
    | some r => s.notice path p s.pelNum r
    | none => match s.late p with
      | some r => s.notice path p s.pelNum r
      | none => s.passed p

/-- The path of an arrival by its code. -/
def pathOfCode (c : BitVec 2) : OutPath := if c = 2 then .ssp else .vorot

/-- Does the keel take this packet now: a packet of its kind, with no earlier one of its channel at step 1 or 2 of R390? -/
def State.takes (s : State) (ack : Bool) (p : Packet) : Bool :=
  s.up && ((p.opc = 0) == ack) && !s.keel.accepting.any (fun a => decide (a.chan = p.chan))

/-- The next packet of a source (R369, R371, R372). -/
def State.intake (s : State) (ack : Bool) (src : IntakeSrc) : State :=
  match src with
  | .host m bs =>
    if s.lostPath (.host m) then s
    else match packetOfBytes bs with
      | some p => if s.takes ack p then s.packetIn (.host m) p else s
      | none => s
  | .arrived =>
    match s.keel.arrived with
    | [] => s
    | (code, p) :: rest =>
      if s.takes ack p then ({ s with keel := { s.keel with arrived := rest } } : State).packetIn (pathOfCode code) p else s

/-- PACKET_INTAKE (R375, R376). -/
def packetIntake (src : IntakeSrc) (s : State) : State := s.intake false src

/-- ISL_ACK (R378). -/
def islAck (src : IntakeSrc) (s : State) : State := s.intake true src

/-! ## Acceptance (R390) -/

/-- Does a run of `n` units from `u` meet one of `k` from `v`, wrapping (R389)? -/
def unitsMeet (u n v k : Nat) : Bool := (v + 524288 - u) % 524288 < n || (u + 524288 - v) % 524288 < k

/-- The lowest unit from which `n` consecutive ones are free: 0 or just past a run in use. -/
def State.freeUnits (s : State) (n : Nat) : Option Nat :=
  let runs := (s.keel.ledger.map (fun (x : Nat × LgEntry) => (x.2.punit.toNat, unitsOf x.2.plen.toNat))).filter (fun r => r.2 ≠ 0)
  let ok (u : Nat) : Bool := n = 0 || !runs.any (fun r => unitsMeet u n r.1 r.2)
  (0 :: runs.map (fun r => (r.1 + r.2) % 524288)).foldl (fun (a : Option Nat) u =>
    if !ok u then a else match a with
      | some b => some (min b u)
      | none => some u) none

/-- The lowest free index of the ledger. -/
def freeIndex : Nat → Table LgEntry → Nat
  | i, [] => i
  | i, (j, _) :: r => if i < j then i else freeIndex (j + 1) r

/-- Replay class (R393): is the opcode marked? -/
def opMarked (o : Nat) : Bool :=
  o = 2 || (0x20 ≤ o && o ≤ 0x24) || o = 0x28 || o = 0x31 || o = 0x32 || o = 0x38 || (0x40 ≤ o && o ≤ 0x42)

/-- ACCEPTANCE (R377, R390, R391): both windows in service, an entry and units free. -/
def acceptance (c : Nat) (s : State) : State :=
  match s.keel.accepting.find? (fun (a : Accepting) => decide (a.chan = c)) with
  | none => s
  | some a =>
    let p := a.pkt
    let i := freeIndex 0 s.keel.ledger
    match s.freeUnits (unitsOf p.plen) with
    | none => s
    | some u =>
      if s.keel.mirror ≠ 3 || 131072 ≤ i then s
      else
        let e : LgEntry := {
          seq := BitVec.ofNat 48 p.seq, chan := BitVec.ofNat 8 c, state := .accepted, world := (s.chan c).world, fence := p.fence
          marked := opMarked p.opc, opc := BitVec.ofNat 16 p.opc, plen := BitVec.ofNat 13 p.plen, punit := BitVec.ofNat 19 u
          pchk := crc32c p.params, order := s.keel.order, alive := 0 }
        let k := s.keel
        let put (t : Table (List Byte)) := if p.plen = 0 then t else tput u p.params t
        let s := ({ s with keel := { k with
          accepting := k.accepting.erase a, order := k.order + 1, pstoreW := put k.pstoreW, pstoreE := put k.pstoreE } } : State).lgPut i e
        s.modChan c (fun y => { y with
          next := y.next + 1, heldE := y.heldE - 1, heldP := y.heldP - unitsOf p.plen })

/-! ## Opcodes (R384, R393, R394, R407) -/

structure OpInfo where
  secure : Bool
  /-- Codes of the states in which the opcode is legal. -/
  states : List Nat
  len : Nat → Bool

/-- The opcodes (R393) with the lengths of R394, R413 and R423. -/
def opInfo (o : Nat) : Option OpInfo :=
  let all : List Nat := [0, 1, 2, 3, 4, 5]
  let past : List Nat := [1, 2, 3, 4, 5]
  let at_ (n : Nat) : Nat → Bool := fun k => k = n
  match o with
  | 0x01 => some ⟨false, all, at_ 0⟩
  | 0x02 => some ⟨true, all, at_ 24⟩
  | 0x03 => some ⟨false, all, at_ 8⟩
  | 0x04 => some ⟨false, all, fun k => decide (16 ≤ k) && decide (k ≤ 4096) && decide (k % 8 = 0)⟩
  | 0x10 => some ⟨false, all, fun k => decide (9 ≤ k) && decide (k ≤ 4096)⟩
  | 0x11 => some ⟨true, [0, 5], at_ 16⟩
  | 0x12 => some ⟨false, [1, 2, 4], at_ 24⟩
  | 0x13 => some ⟨false, past, at_ 8⟩
  | 0x18 => some ⟨true, [0, 1, 2, 4, 5], at_ 16⟩
  | 0x20 => some ⟨true, [1, 5], at_ 0⟩
  | 0x21 => some ⟨true, [2], at_ 0⟩
  | 0x22 => some ⟨true, [3], at_ 0⟩
  | 0x23 => some ⟨true, [4], at_ 0⟩
  | 0x24 => some ⟨true, [1, 2, 3, 4], at_ 0⟩
  | 0x28 => some ⟨true, all, at_ 8⟩
  | 0x30 => some ⟨false, [1, 2, 3, 4], at_ 1744⟩
  | 0x31 => some ⟨false, past, at_ 16⟩
  | 0x32 => some ⟨false, past, at_ 8⟩
  | 0x38 => some ⟨false, past, at_ 24⟩
  | 0x40 => some ⟨true, past, at_ 24⟩
  | 0x41 => some ⟨false, [2, 3, 4], at_ 24⟩
  | 0x42 => some ⟨false, [2, 3, 4, 5], at_ 8⟩
  | 0x48 => some ⟨false, [2, 3, 4, 5], at_ 16⟩
  | 0x50 => some ⟨true, [1, 2, 5], at_ 8⟩
  | 0x51 => some ⟨false, past, at_ 40⟩
  | _ => none

/-- The flag word that an address of a tile window names: physical tile and engine (R92, R93, R157). -/
def flagAt (a : Nat) : Option (Nat × Engine) :=
  let n := (a - 0xFC40000000) / 0x100000
  let o := a % 0x100000
  if a < 0xFC40000000 || 0xFC41000000 ≤ a || 0x34000 ≤ o then none
  else match flagOff (o % 0x1000) with
    | some (e, 0) => if o % 8 = 0 then some (52 * n + o / 0x1000, e) else none
    | _ => none

/-- Parameter words of an entry. -/
def State.pw (s : State) (i k : Nat) : Word := (wordsOfBytes (s.paramsOf i)).getD k 0

/-- The task that a cancel names. -/
def State.cancelTarget (s : State) (i : Nat) : Option (Nat × LgEntry) :=
  match s.findSeq (bits (s.pw i 0) 7 0) (bits (s.pw i 1) 47 0) with
  | some x => if x.2.opc = 0x30 then some x else none
  | none => none

/-- Do bytes lie in one secure slot of the image store (R254)? -/
def State.storeSecure (_s : State) (a n : Nat) : Bool :=
  let sl := (a - slotBase 0) / slotSize
  decide (slotBase 0 ≤ a) && decide (a < 0xF400000000) && decide (a + n ≤ slotBase sl + slotSize) && slotWorld sl

/-- Does `ISL_READ` or `ISL_WRITE` reach, within a range that it may name, what the non-secure world may not (R395)? -/
def State.rangeSecure (s : State) (o a n : Nat) : Bool :=
  if o = 0x03 && slotBase 0 ≤ a && a + n ≤ 0xF400000000 then slotWorld ((a - slotBase 0) / slotSize)
  else if o = 0x03 && ledgerBase ≤ a && a + n ≤ ledgerEnd then true
  else decide (s.memCheck false a n = 3)

/-- Does a command fail the world checks (R384 order 2, R372, R407)? -/
def State.worldBad (s : State) (i : Nat) (e : LgEntry) (secure : Bool) : Bool :=
  let w := e.world
  let w0 := s.pw i 0
  let o := e.opc.toNat
  (secure && !w) ||
  (s.boot.follower && (s.chan e.chan.toNat).path = 2 && o ≠ 1 && o ≠ 3 && o ≠ 0x10) ||
  (if o = 0x30 then
     let l := bits w0 41 32
     let x := bits w0 43 42
     if 767 < l || x = 3 then false
     else if x = 0 then s.wtile l 0 != w || s.wtile l 1 != w
     else s.wtile l (x - 1) != w
   else if o = 0x31 then (match s.cancelTarget i with
     | some t => t.2.world != w
     | none => false)
   else if w then false
   else if o = 0x03 || o = 0x04 then s.rangeSecure o (bits w0 39 0) (if o = 0x03 then bits w0 52 40 else e.plen.toNat - 8)
   else if o = 0x10 then s.storeSecure (bits w0 39 0) (e.plen.toNat - 8)
   else if o = 0x12 then (match slotOfBase (bits w0 39 0) with
     | some sl => decide (sl < 4)
     | none => false)
   else if o = 0x13 then (s.region (bits w0 6 0)).world
   else if o = 0x32 then (match flagAt (bits w0 39 0) with
     | some (p, g) => s.engineWorld p g
     | none => false)
   else if o = 0x38 then s.wcbank (bits w0 11 0 / 256)
   else if o = 0x41 || o = 0x42 then (s.act (bits w0 13 0)).world
   else if o = 0x48 then (s.stream_ (bits w0 4 0)).world
   else false)

/-- Is the opcode illegal in the present state (R384 order 3, R255, R459)? -/
def State.stateBad (s : State) (i : Nat) (e : LgEntry) (states : List Nat) : Bool :=
  !states.contains (dstateCode s.keel.dstate) ||
  (e.opc = 0x11 && s.keel.dstate = .sealed && !s.ldr.prot && (match slotOfBase (bits (s.pw i 0) 39 0) with
    | some sl => decide (sl ≠ 0)
    | none => false)) ||
  (e.opc = 0x20 && !s.boot.fw)

/-- The first failed check of R384, orders 1 to 3. -/
def State.startCheck (s : State) (i : Nat) (e : LgEntry) : Option (BitVec 8) :=
  match opInfo e.opc.toNat with
  | none => some stPARAM
  | some o =>
    if !o.len e.plen.toNat then some stPARAM
    else if s.worldBad i e o.secure then some stWORLD
    else if s.stateBad i e o.states then some stSTATE
    else none

/-! ## Start (R384, R385, R402, R403) -/

/-- The marks that the target of a marked command holds (R403). -/
def State.marksOf (s : State) (i : Nat) (e : LgEntry) : List Mark :=
  let w0 := s.pw i 0
  let o := e.opc.toNat
  let one (m : Option Mark) : List Mark := m.toList
  if o = 2 then one (s.chan (bits w0 7 0)).mark
  else if 0x20 ≤ o && o ≤ 0x24 then one s.keel.stateMark
  else if o = 0x28 then one s.keel.resetMark
  else if o = 0x31 then (match s.cancelTarget i with
    | some t => one t.2.mark
    | none => [])
  else if o = 0x32 then (match flagAt (bits w0 39 0) with
    | some (p, g) => one ((s.tile p).flag g).mark
    | none => [])
  else if o = 0x38 then one (s.wctr (bits w0 11 0)).mark
  else if o = 0x40 then one (s.odo (bits w0 1 0)).markW ++ one (s.odo (bits w0 1 0)).markE
  else if o = 0x41 || o = 0x42 then one (s.act (bits w0 13 0)).mark
  else []

/-- The mark that an entry's command left before a reset, if it is still there. -/
def State.markFor (s : State) (i : Nat) (e : LgEntry) : Option Mark :=
  if e.state = .started && e.marked then
    (s.marksOf i e).find? (fun (m : Mark) => decide (m.chan = e.chan.toNat) && decide (m.seq = e.seq.toNat))
  else none

/-- May entry `i` start now by the order of its channel (R385)? `wait` are the entries still to be started. -/
def State.inOrder (s : State) (wait : List Nat) (e : LgEntry) : Bool :=
  s.keel.ledger.all (fun x => decide (x.2.chan ≠ e.chan) || decide (e.seq.toNat ≤ x.2.seq.toNat) ||
    (!wait.contains x.1 && (!e.fence || decide (x.2.state = .complete))))

/-- The entries that R402 has not named and that have not started. -/
def State.unstarted (s : State) : List Nat :=
  (s.keel.ledger.filter (fun (x : Nat × LgEntry) => decide (x.2.state = .accepted))).map (·.1)

/-- The entry of channel `c` that starts next: of those of R402 the first that may start, else the oldest of the channel
(R269, R385, R402). -/
def State.nextStart (s : State) (c : Nat) : Option (Nat × LgEntry) :=
  let wait := s.unstarted ++ s.keel.replayQ
  let ready (i : Nat) : Option (Nat × LgEntry) := match s.entry i with
    | some e => if s.inOrder wait e then some (i, e) else none
    | none => none
  let isLoad (i : Nat) : Bool := match s.entry i with
    | some e => e.opc = 0x11 || e.opc = 0x12
    | none => false
  let ofC (x : Nat × LgEntry) : Option (Nat × LgEntry) := if x.2.chan.toNat = c then some x else none
  match s.keel.replayQ.findSome? ready with
  | some x => ofC x
  | none =>
    if s.keel.replayQ.any isLoad || s.ldr.waiting.any (fun i => s.keel.rebuilt.contains i) then none
    else (s.unstarted.filter (fun i => !s.keel.replayQ.contains i)).findSome? (fun i => (ready i).bind ofC)

/-- COMMAND_START (R384, R385, R402, R403): one command at a time; a load goes on to the loader (R263). -/
def commandStart (c : Nat) (s : State) : State :=
  if !s.up || s.keel.current.isSome then s
  else match s.nextStart c with
    | none => s
    | some (i, e) =>
      let again := s.keel.replayQ.contains i
      let s : State := { s with keel := { s.keel with replayQ := s.keel.replayQ.filter (· ≠ i) } }
      match s.markFor i e with
      | some m =>
        let s1 := s.complete i { status := m.status, det0 := m.det0, det1 := m.det1 }
        if s.boot.warmCmds.contains i then
          ({ s1 with boot := { s1.boot with warmCmds := s1.boot.warmCmds.filter (· ≠ i) } } : State).emit 0x18 false 1 0 0
        else s1
      | none =>
        let s : State := if again then { s with keel := { s.keel with replayed := satInc s.keel.replayed } } else s
        match s.startCheck i e with
        | some st => s.complete i { status := st }
        | none =>
          let s := s.lgPut i { e with state := .started }
          if e.opc = 0x11 || e.opc = 0x12 then s.modLdr (fun l => { l with waiting := l.waiting ++ [i] })
          else { s with keel := { s.keel with current := some i } }

/-! ## Replies and event records leave (R386, R398, R400) -/

/-- The entry of channel `c` whose reply leaves next: the lowest sequence number not yet answered (R386). A lost entry
(R401) is passed over. -/
def State.nextReply (s : State) (c : Nat) : Option (Nat × LgEntry) :=
  s.keel.ledger.foldl (fun (a : Option (Nat × LgEntry)) (x : Nat × LgEntry) =>
    if x.2.chan.toNat = c && decide ((s.chan c).replyNext ≤ x.2.seq.toNat) then
      match a with
      | some b => if x.2.seq.toNat < b.2.seq.toNat then some x else a
      | none => some x
    else a) none

/-- REPLY_SEND (R386, R402): the next reply of the channel, once it is recorded. -/
def replySend (c : Nat) (s : State) : State :=
  if !s.up || s.lostPath (s.pathOf c) then s
  else match s.nextReply c with
    | some (i, e) =>
      match e.reply with
      | some r =>
        if e.state = .complete then
          (s.sendReply e r (s.keel.rebuilt.contains i)).modChan c (fun y => { y with replyNext := e.seq.toNat + 1 })
        else s
      | none => s
    | none => s

/-- EVENT_RECORD_SEND (R398, R400). -/
def eventRecordSend (s : State) : State :=
  match s.keel.events with
  | [] => s
  | e :: rest =>
    if !s.up || s.lostPath s.eventPath then s
    else ({ s with keel := { s.keel with events := rest } } : State).sendOut s.eventPath {
      w0 := packF [(0, 4, 3), (4, 1, b2n e.world), (8, 8, e.src.toNat), (16, 32, e.eseq.toNat), (48, 16, e.lost.toNat)]
      w1 := e.w1, w2 := e.w2, w3 := e.w3 }

end Sys2Proof.Machine
end

