-- ==== Sys2Proof/Machine/Islamon.lean ====
section
/-!
DEFINITION. The effects of the Islamon opcodes (13: R387, R393 to R397; 14: R413 to R415, R420 to R424), resets apart.
-/
set_option autoImplicit false
namespace Sys2Proof.Machine

/-! ## The started command -/

/-- Run the started command when it is of channel `c` and opcode `opc`. A command that waits for a retraining channel puts its entry
back as the started one. -/
def State.islRun (s : State) (c opc : Nat) (f : Nat → LgEntry → State → State) : State :=
  match s.keel.current with
  | none => s
  | some i =>
    match s.entry i with
    | none => s
    | some e =>
      if e.chan.toNat = c && e.opc.toNat = opc then f i e { s with keel := { s.keel with current := none } } else s

/-- Reply with a status and zero detail words. -/
def State.done (s : State) (i : Nat) (st : BitVec 8) : State := s.complete i { status := st }

/-- Is a bit set that R394 does not name: fields as word, high bit, low bit? -/
def State.rsvd (s : State) (i : Nat) (fs : List (Nat × Nat × Nat)) : Bool :=
  fs.any (fun f => bits (s.pw i f.1) f.2.1 f.2.2 ≠ 0)

/-- The mark of a marked command with its outcome (R403). -/
def LgEntry.markOf (e : LgEntry) (st : BitVec 8) (d0 : Word := 0) : Mark :=
  { chan := e.chan.toNat, seq := e.seq.toNat, status := st, det0 := d0 }

/-- ISL_NOP (R393). -/
def islNop (c : Nat) (s : State) : State := s.islRun c 0x01 (fun i _ s => s.done i stOK)

/-! ## Channels (R377, R394, R395) -/

/-- Do the quotas of the open channels, with a new one for `ch`, break the sums of R379? -/
def State.quotaBad (s : State) (ch qe qp : Nat) : Bool :=
  let o := s.keel.chans.filter (fun (x : Nat × ChanSt) => x.2.isOpen && decide (x.1 ≠ ch))
  131072 < o.foldl (fun a x => a + x.2.quotaE.toNat) qe || 524288 < o.foldl (fun a x => a + x.2.quotaP.toNat) qp

/-- Does the channel hold an entry that is not free, or a packet on its way into one? -/
def State.chanBusy (s : State) (ch : Nat) : Bool :=
  s.keel.ledger.any (fun (x : Nat × LgEntry) => decide (x.2.chan.toNat = ch)) ||
  s.keel.accepting.any (fun (a : Accepting) => decide (a.chan = ch))

/-- The channel as the command sets it (R395). -/
def ChanSt.set (y : ChanSt) (open_ w : Bool) (path : BitVec 2) (qe qp nxt : Nat) (m : Mark) : ChanSt :=
  let z : ChanSt := { y with
    isOpen := open_, world := w, path := path, quotaE := BitVec.ofNat 18 qe, quotaP := BitVec.ofNat 20 qp
    next := BitVec.ofNat 48 nxt, replyNext := nxt, racked := 0, mark := some m }
  if open_ && y.isOpen then { z with
      heldE := y.heldE + qe - y.quotaE.toNat, heldP := y.heldP + qp - y.quotaP.toNat }
  else if open_ then { z with heldE := qe, heldP := qp, freedE := 0, freedP := 0, alivExp := 0, devAlive := 0 }
  else { z with heldE := 0, heldP := 0, freedE := 0, freedP := 0 }

/-- ISL_CHANNEL_SET (R379, R394, R395, R403). -/
def islChannelSet (c : Nat) (s : State) : State := s.islRun c 0x02 (fun i e s =>
  let w0 := s.pw i 0
  let ch := bits w0 7 0
  let open_ := bit w0 8
  let qe := bits (s.pw i 1) 17 0
  let qp := bits (s.pw i 1) 51 32
  let nxt := bits (s.pw i 2) 47 0
  let path : BitVec 2 := BitVec.ofNat 2 (bits w0 11 10)
  let y := s.chan ch
  let same := y.isOpen && open_ && y.world == bit w0 9 && y.path = path && y.quotaE.toNat = qe && y.quotaP.toNat = qp &&
    y.next.toNat = nxt
  if s.rsvd i [(0, 63, 12), (1, 31, 18), (1, 63, 52), (2, 63, 48)] || 63 < ch || path = 1 || ch = c ||
      (open_ && s.quotaBad ch qe qp) then s.done i stPARAM
  else if same then (s.modChan ch (fun y => { y with mark := some (e.markOf stOK) })).done i stOK
  else if y.isOpen && s.chanBusy ch then s.done i stSTATE
  else (s.modChan ch (fun y => y.set open_ (bit w0 9) path qe qp nxt (e.markOf stOK))).done i stOK)

/-! ## Reads and writes (R254, R381, R382, R395) -/

def keelBase : Nat := 0xFC00000000
def addrEnd : Nat := 0x10000000000
def storeEnd : Nat := 0xF400000000

/-- Words of the register space in ascending order, each read with its effect. -/
def readWords (w : World) : Nat → Nat → State → State × List Word
  | 0, _, s => (s, [])
  | n + 1, a, s =>
    let r := s.readReg w a
    let t := readWords w n (a + 8) r.1
    (t.1, r.2 :: t.2)

/-- A read by `ISL_READ`: the bytes, or a status and the stream status of R197. -/
def State.hostRead (s : State) (w : World) (a n : Nat) (ecc : List CodeWordError) : State × Except (BitVec 8 × Nat) (List Byte) :=
  let fin := a + n
  let mem (s : State) : State × Except (BitVec 8 × Nat) (List Byte) :=
    let s := s.eccRange a n ecc
    match s.memRead a n with
    | (0, bs) => (s, .ok bs)
    | (1, _) => (s, .error (stFAULT, 1))
    | _ => (s, .error (stLOST, 2))
  if keelBase ≤ a && fin ≤ addrEnd then
    let r := readWords w (n / 8) a s
    (r.1, .ok (bytesOfWords r.2))
  else if slotBase 0 ≤ a && fin ≤ storeEnd then
    if !w && slotWorld ((a - slotBase 0) / slotSize) then (s, .error (stWORLD, 0)) else mem s
  else if ledgerBase ≤ a && fin ≤ ledgerEnd then if w then mem s else (s, .error (stWORLD, 0))
  else
    let k := s.memCheck w a n
    if k = 0 then mem s else if k = 3 then (s, .error (stWORLD, 0)) else (s, .error (stPARAM, 0))

/-- Detail word 0 of a failed read or write (R381). -/
def rwDet (ss : Nat) : Word := packF [(16, 8, ss)]

/-- ISL_READ (R381, R382, R394, R395). -/
def islRead (c : Nat) (ecc : List CodeWordError) (s : State) : State := s.islRun c 0x03 (fun i e s =>
  let a := bits (s.pw i 0) 39 0
  let n := bits (s.pw i 0) 52 40
  if s.rsvd i [(0, 63, 53)] || a % 8 ≠ 0 || n < 8 || 4096 < n || n % 8 ≠ 0 then s.done i stPARAM
  else if s.memHeld a n then { s with keel := { s.keel with current := some i } }
  else match s.hostRead e.world a n ecc with
    | (s, .error (st, ss)) => s.complete i { status := st, det0 := rwDet ss }
    | (s, .ok bs) =>
      if n ≤ 16 then s.complete i { status := stOK, det0 := wordOfBytes bs, det1 := wordOfBytes (bs.drop 8) }
      else
        (s.sendOut (s.pathOf c) {
          w0 := packF [(0, 4, 2), (16, 48, e.seq.toNat)], w1 := packF [(0, 8, c), (16, 13, 0)], w2 := packF [(0, 13, n)]
          data := bs }).complete i { status := stOK, det0 := BitVec.ofNat 64 n })

/-- Write words of the register space in ascending order. -/
def writeWords (w : World) : List Word → Nat → State → State
  | [], _, s => s
  | v :: rest, a, s => writeWords w rest (a + 8) (s.writeReg w a v)

/-- ISL_WRITE (R381, R394, R395). -/
def islWrite (c : Nat) (ecc : List CodeWordError) (s : State) : State := s.islRun c 0x04 (fun i e s =>
  let a := bits (s.pw i 0) 39 0
  let data := (s.paramsOf i).drop 8
  let fin := a + data.length
  if s.rsvd i [(0, 63, 40)] || a % 8 ≠ 0 then s.done i stPARAM
  else if keelBase ≤ a && fin ≤ addrEnd then (writeWords e.world (wordsOfBytes data) a s).done i stOK
  else
    let k := s.memCheck e.world a data.length
    if k = 3 then s.done i stWORLD
    else if k ≠ 0 then s.done i stPARAM
    else if s.memHeld a data.length then { s with keel := { s.keel with current := some i } }
    else match (s.eccWrite a data.length ecc).memWrite a data with
      | (s, 0) => s.done i stOK
      | (s, ss) => s.complete i { status := if ss = 2 then stLOST else stFAULT, det0 := rwDet ss })

/-- ISL_STORE_WRITE (R254, R257). -/
def islStoreWrite (c : Nat) (ecc : List CodeWordError) (s : State) : State := s.islRun c 0x10 (fun i e s =>
  let a := bits (s.pw i 0) 39 0
  let data := (s.paramsOf i).drop 8
  let sl := (a - slotBase 0) / slotSize
  if s.rsvd i [(0, 63, 40)] || a < slotBase 0 || storeEnd ≤ a || slotBase sl + slotSize < a + data.length then s.done i stPARAM
  else if !e.world && slotWorld sl then s.done i stWORLD
  else if (s.slot sl).busy then s.done i stSTATE
  else if sl = 0 && s.ldr.prot then s.done i stSTATE
  else if s.memHeld a data.length then { s with keel := { s.keel with current := some i } }
  else
    let s := s.modSlot sl (fun x => { x with good := false, writes := satInc x.writes })
    match (s.eccWrite a data.length ecc).memWrite a data with
    | (s, 0) => s.done i stOK
    | (s, ss) => s.done i (if ss = 2 then stLOST else stFAULT))

/-! ## Regions and memory channels (R310, R395) -/

/-- ISL_REGION_CLOSE (R242, R395): the reply comes once the region is closed. -/
def islRegionClose (c : Nat) (s : State) : State := s.islRun c 0x13 (fun i _ s =>
  let r := bits (s.pw i 0) 6 0
  let st := (s.region r).state
  if s.rsvd i [(0, 63, 7)] then s.done i stPARAM
  else if st = 0 then s.closeRegion r (.command i) 1
  else if st = 1 then s.done i stOK
  else s.done i stSTATE)

/-- ISL_MEM_TRAIN (R310): the channels named retrain; those of a failed device do not. -/
def islMemTrain (c : Nat) (s : State) : State := s.islRun c 0x18 (fun i _ s =>
  if s.rsvd i [(0, 63, 40), (1, 63, 40)] then s.done i stPARAM
  else
    let named := (List.range 80).filter (fun ch => bit (s.pw i (ch / 40)) (ch % 40) && (s.mchan ch).state ≠ 3)
    let s1 := named.foldl (fun s ch => s.modMchan ch (fun x => { x with state := 2, cmds := x.cmds ++ [i] })) s
    if named.isEmpty then s.done i stOK else s1)

/-! ## Device states (R387, R459) -/

/-- Enter a device state by command, with the mark of R403. -/
def State.enter (s : State) (d : DevState) (m : Mark) : State :=
  let s := s.setDstate d
  { s with keel := { s.keel with stateMark := some m } }

/-- ISL_ARM (R387, R459). -/
def islArm (c : Nat) (s : State) : State :=
  s.islRun c 0x20 (fun i e s => (s.enter .armed (e.markOf stOK)).done i stOK)

/-- ISL_RUN (R387). -/
def islRunCmd (c : Nat) (s : State) : State :=
  s.islRun c 0x21 (fun i e s => (s.enter .running (e.markOf stOK)).done i stOK)

/-- ISL_FREEWHEEL_ENTER (R387). -/
def islFreewheelEnter (c : Nat) (s : State) : State :=
  s.islRun c 0x22 (fun i e s => (s.enter .freewheel (e.markOf stOK)).done i stOK)

/-- ISL_FREEWHEEL_LEAVE (R387). -/
def islFreewheelLeave (c : Nat) (s : State) : State :=
  s.islRun c 0x23 (fun i e s => (s.enter .running (e.markOf stOK)).done i stOK)

/-- The tasks that have started and have no reply yet, by `LG.ORDER`. -/
def State.tasksStarted (s : State) : List (BitVec 32) :=
  (s.keel.ledger.filter (fun (x : Nat × LgEntry) => x.2.opc = 0x30 && decide (x.2.state = .started))).map (·.2.order)

/-- ISL_QUIESCE (R387, R388): the state changes at once, and the reply waits for the earlier tasks. -/
def islQuiesce (c : Nat) (s : State) : State := s.islRun c 0x24 (fun i e s =>
  let s := s.enter .quiesced (e.markOf stOK)
  { s with keel := { s.keel with drain := true, quiescing := s.keel.quiescing ++ [(i, s.tasksStarted)] } })

/-- Has every task started before an `ISL_QUIESCE` been answered (R387)? -/
def State.quietBefore (s : State) (before : List (BitVec 32)) : Bool := !s.tasksStarted.any (before.contains ·)

/-- QUIESCE_DRAIN_END (R387, R388). -/
def quiesceDrainEnd (s : State) : State :=
  match s.keel.quiescing with
  | [] => s
  | (i, before) :: rest =>
    if s.quietBefore before then
      ({ s with keel := { s.keel with quiescing := rest, drain := !rest.isEmpty } } : State).done i stOK
    else s

/-! ## Tasks (R160, R178, R397) -/

/-- ISL_TASK_ISSUE (R160, R178, R381): refused, or placed in the start queue of its tile. -/
def islTaskIssue (c : Nat) (ecc : List CodeWordError) (s : State) : State := s.islRun c 0x30 (fun i e s =>
  if s.retraining then { s with keel := { s.keel with current := some i } } else
  let k : Task := {
    entry := i, chan := c, seq := e.seq.toNat, world := e.world, desc := wordsOfBytes (s.paramsOf i), seqTab := [], tvuTab := []
    groups := [], keys := [], pring := none, num := s.fresh }
  match issueCheck ecc s k with
  | (s, .error r) => s.complete i r
  | (s, .ok k) => ({ s with startQ := tput k.logical (tget [] s.startQ k.logical ++ [k]) s.startQ } : State).bump)

/-- The contexts that run the task of entry `i`. -/
def State.runsEntry (s : State) (i : Nat) : List (Nat × Nat) :=
  s.tiles.flatMap (fun t => ([0, 1] : List Nat).filterMap (fun c => match (t.2.ctx c).task with
    | some k => if k.entry = i then some (t.1, c) else none
    | none => none))

/-- End a task that runs on no tile: it replies CANCELLED, with what its last run left if a part reset handed it back (R381, R397). -/
def State.cancelUnstarted (s : State) (i : Nat) : State :=
  let past := ((s.startQ.flatMap (·.2)).find? (fun (k : Task) => k.entry = i)).map (·.past)
  let tag := (s.pw i 0).setWidth 32
  let s : State := { s with
    startQ := s.startQ.map (fun q => (q.1, q.2.filter (fun (k : Task) => k.entry ≠ i)))
    keel := { s.keel with replayQ := s.keel.replayQ.filter (· ≠ i) } }
  s.complete i { status := stCANCELLED, det0 := past.getD 0, det1 := (tag : BitVec 32).setWidth 64 }

/-- ISL_TASK_CANCEL (R396, R397, R403). -/
def islTaskCancel (c : Nat) (s : State) : State := s.islRun c 0x31 (fun i e s =>
  if s.rsvd i [(0, 63, 8), (1, 63, 48)] || 63 < bits (s.pw i 0) 7 0 then s.done i stPARAM
  else match s.cancelTarget i with
    | none => s.complete i { status := stOK, det0 := 2 }
    | some (j, t) =>
      if t.state = .complete then s.complete i { status := stOK, det0 := 1 }
      else
        let s := s.lgPut j { t with mark := some (e.markOf stOK) }
        let s := match s.runsEntry j with
          | [] => s.cancelUnstarted j
          | (p, x) :: _ => s.modCtx p x (fun y => { y with cancelAsked := true })
        s.complete i { status := stOK, det0 := 0 })

/-! ## Flag words, counters, Odometer, actions, ingress -/

/-- ISL_FLAGS_CLEAR (R85, R381, R403). -/
def islFlagsClear (c : Nat) (s : State) : State := s.islRun c 0x32 (fun i e s =>
  let w0 := s.pw i 0
  if s.rsvd i [(0, 47, 44), (0, 63, 56)] then s.done i stPARAM
  else match flagAt (bits w0 39 0) with
    | none => s.done i stPARAM
    | some (p, g) =>
      let r := ((s.tile p).flag g).clear (BitVec.ofNat 4 (bits w0 43 40)) (BitVec.ofNat 8 (bits w0 55 48))
      let st := if r.1 then stOK else stGENMOVED
      let s := s.modTile p (fun t => t.setFlag g { r.2 with mark := some (e.markOf st r.2.toWord) })
      s.complete i { status := st, det0 := r.2.toWord })

/-- ISL_CTR_SET (R215, R403). -/
def islCtrSet (c : Nat) (s : State) : State := s.islRun c 0x38 (fun i e s =>
  let w0 := s.pw i 0
  if s.rsvd i [(0, 63, 14), (1, 63, 48), (2, 63, 48)] then s.done i stPARAM
  else
    let k := bits w0 11 0
    let x := s.wctr k
    let x : Counter := {
      value := if bit w0 12 then BitVec.ofNat 48 (bits (s.pw i 1) 47 0) else x.value
      limit := if bit w0 13 then BitVec.ofNat 48 (bits (s.pw i 2) 47 0) else x.limit
      mark := some (e.markOf stOK) }
    ({ s with ctrs := { s.ctrs with
      ctrs := tput k x s.ctrs.ctrs, pool := s.ctrs.pool.filter (fun (v : Nat × Nat) => v.1 ≠ k) } } : State).done i stOK)

/-- ISL_ODO_PRESET (R344, R403). -/
def islOdoPreset (c : Nat) (s : State) : State := s.islRun c 0x40 (fun i e s =>
  if s.rsvd i [(0, 63, 2), (1, 63, 48), (2, 63, 48)] then s.done i stPARAM
  else
    let r := s.preset (bits (s.pw i 0) 1 0) (BitVec.ofNat 48 (bits (s.pw i 1) 47 0)) (BitVec.ofNat 48 (bits (s.pw i 2) 47 0))
      (e.markOf stOK)
    r.1.done i r.2)

/-- ISL_ACT_ARM (R348, R349, R403). -/
def islActArm (c : Nat) (s : State) : State := s.islRun c 0x41 (fun i e s =>
  if s.rsvd i [(0, 63, 14)] then s.done i stPARAM
  else
    let r := s.arm (bits (s.pw i 0) 13 0) (s.pw i 1) (s.pw i 2) e.world (e.markOf stOK)
    r.1.done i r.2)

/-- ISL_ACT_CANCEL (R352, R403). -/
def islActCancel (c : Nat) (s : State) : State := s.islRun c 0x42 (fun i e s =>
  if s.rsvd i [(0, 63, 14)] then s.done i stPARAM
  else
    let r := s.unarm (bits (s.pw i 0) 13 0) e.world (e.markOf stOK)
    r.1.done i r.2)

/-- ISL_ING_RELEASE (R364, R404). -/
def islIngRelease (c : Nat) (s : State) : State := s.islRun c 0x48 (fun i e s =>
  if s.rsvd i [(0, 63, 5), (1, 63, 48)] then s.done i stPARAM
  else
    let r := s.release (bits (s.pw i 0) 4 0) (bits (s.pw i 1) 47 0) e.world (s.keel.rebuilt.contains i)
    r.1.done i r.2)

/-! ## Worlds (R413 to R415) -/

/-- A context as it is after the clearing of R414: planes empty, link table, index registers and descriptor store cleared. -/
def CtxSt.cleared (x : CtxSt) : CtxSt := { x with plane0 := {}, plane1 := {}, links := [], xr := [], groups := [], tvuFlags := {} }

/-- Clear a scope of a physical tile (R414): 0 the whole tile, 1 context 0 of a split tile, 2 context 1. -/
def Tile.clearScope (t : Tile) (scope : Nat) : Tile :=
  let t := { t with vregs := [], vtype := [] }
  if scope = 0 then
    { t with bankA := [], bankB := [], acc := [], accFree0 := none, accFree1 := none, imem := [], walks := [], seq := []
             c0 := t.c0.cleared, c1 := t.c1.cleared, fArr := {}, fH1 := {}, fMvp := {} }
  else if scope = 1 then
    { t with bankA := [], acc := tclear 0 32768 t.acc, accFree0 := none, imem := tclear 0 2048 t.imem
             walks := tclear 0 8 t.walks, seq := tclear 0 128 t.seq, c0 := t.c0.cleared, fArr := {} }
  else
    { t with bankB := [], acc := tclear 32768 65536 t.acc, accFree1 := none, imem := tclear 2048 4096 t.imem
             walks := tclear 8 16 t.walks, seq := tclear 128 256 t.seq, c1 := t.c1.cleared, fH1 := {}
             c0 := if t.split then t.c0 else { t.c0 with plane0 := {}, plane1 := {} } }

/-- Has the scope of a set a task in the start queue or running (R413)? Scope 0 both contexts, 1 and 2 one. -/
def State.scopeBusy (s : State) (l scope : Nat) : Bool :=
  let meets (k : Task) : Bool := scope = 0 || k.ctxCode = 0 || k.ctxCode = scope
  (tget [] s.startQ l).any meets ||
  (match s.placed l with
  | none => false
  | some p => ([0, 1] : List Nat).any (fun c => match (s.ctx p c).task with
      | some k => meets k
      | none => false))

/-- Set the world of a tile scope (R413, R414). -/
def State.setTileWorld (s : State) (l scope : Nat) (w : World) : State :=
  let s := match s.placed l with
    | none => s
    | some p => s.modTile p (fun t => t.clearScope (if scope = 1 && !t.split then 0 else scope))
  s.modSec (fun x => { x with
    wtile0 := if scope = 2 then x.wtile0 else tput l w x.wtile0
    wtile1 := if scope = 1 then x.wtile1 else tput l w x.wtile1 })

/-- ISL_WORLD_SET of a tile (R413, R414), and of a kind that R413 reserves. -/
def islWorldSetTile (c : Nat) (s : State) : State := s.islRun c 0x50 (fun i _ s0 =>
  let w0 := s0.pw i 0
  let kind := bits w0 2 0
  let w := bit w0 3
  let l := bits w0 13 4
  let scope := bits w0 15 14
  if kind = 2 || kind = 3 then s
  else if kind ≠ 1 || s0.rsvd i [(0, 63, 16)] || 767 < l || scope = 3 then s0.done i stPARAM
  else if (scope = 2 || s0.wtile l 0 == w) && (scope = 1 || s0.wtile l 1 == w) then s0.done i stOK
  else if s0.scopeBusy l scope then s0.done i stSTATE
  else (s0.setTileWorld l scope w).done i stOK)

/-- A value of a bank that a task holds is never returned once the bank has changed world (R415). -/
def CtxSt.disown (x : CtxSt) (b : Nat) : CtxSt :=
  { x with xr := x.xr.map (fun (r : Nat × XReg) => match r.2.live with
      | some k => if k / 256 = b then (r.1, { r.2 with live := none }) else r
      | none => r) }

/-- ISL_WORLD_SET of a counter bank (R413, R415). -/
def islWorldSetCounterBank (c : Nat) (s : State) : State := s.islRun c 0x50 (fun i _ s0 =>
  let w0 := s0.pw i 0
  let w := bit w0 3
  let b := bits w0 13 4
  if bits w0 2 0 ≠ 2 then s
  else if s0.rsvd i [(0, 63, 14)] || 15 < b then s0.done i stPARAM
  else if s0.wcbank b == w then s0.done i stOK
  else
    let s1 : State := { s0 with
      sec := { s0.sec with wcbank := tput b w s0.sec.wcbank }
      ctrs := { s0.ctrs with
        ctrs := s0.ctrs.ctrs.map (fun (k : Nat × Counter) => if k.1 / 256 = b then (k.1, { k.2 with value := 0, limit := 0 }) else k)
        pool := s0.ctrs.pool.filter (fun (v : Nat × Nat) => v.1 / 256 ≠ b) }
      tiles := s0.tiles.map (fun (t : Nat × Tile) => (t.1, { t.2 with c0 := t.2.c0.disown b, c1 := t.2.c1.disown b })) }
    s1.done i stOK)

/-- ISL_WORLD_SET of a lane group (R413). -/
def islWorldSetLaneGroup (c : Nat) (s : State) : State := s.islRun c 0x50 (fun i _ s0 =>
  let w0 := s0.pw i 0
  let w := bit w0 3
  let g := bits w0 13 4
  if bits w0 2 0 ≠ 3 then s
  else if s0.rsvd i [(0, 63, 14)] || 11 < g then s0.done i stPARAM
  else if s0.wlane g == w then s0.done i stOK
  else if (List.range 8).any (fun j => (s0.lane (portLane g j)).en) then s0.done i stSTATE
  else (s0.modSec (fun x => { x with wlane := tput g w x.wlane })).done i stOK)

/-! ## Attestation (R420 to R424) -/

/-- A digest as four words. -/
def digest (bs : List Byte) : List Word :=
  let h := (Config.shake256 bs).toNat
  (List.range 4).map (fun k => BitVec.ofNat 64 (h / 2 ^ (64 * k)))

/-- The report body (R424). -/
def State.attBody (s : State) (w : World) (idx : Nat) (nonce : List Word) : List Word :=
  let regs := (List.range 128).flatMap (fun r =>
    let x := s.region r
    bytesOf 4 x.imgid.toNat ++ [x.state.setWidth 8, BitVec.ofNat 8 (b2n x.world)])
  let worlds := (List.range 768).map s.wtileWord ++ (List.range 16).map (fun b => packF [(0, 1, b2n (s.wcbank b))]) ++
    (List.range 12).map (fun g => packF [(0, 1, b2n (s.wlane g))]) ++ (List.range 512).map (fun e => (s.mrtE e).word)
  [packF [(0, 32, 0x41584154), (32, 8, 1), (40, 1, b2n w), (41, 3, dstateCode s.keel.dstate)], s.kid,
    packF [(0, 20, idx), (32, 32, (s.slot 0).imgid.toNat)], s.sec.fusestat] ++ nonce ++ digest s.sec.fwBytes ++ digest regs ++
  digest (bytesOfWords worlds) ++ (if s.sec.owner then digest s.sec.ownerRoot else List.replicate 4 0) ++ List.replicate 8 0

/-- The report of 5,248 bytes: body, signature, zeros (R423). -/
def State.report (s : State) (w : World) (idx : Nat) (nonce : List Word) : List Byte :=
  let body := bytesOfWords (s.attBody w idx nonce)
  body ++ (List.range 4963).map (fun k => Config.xmssSign idx body k) ++ List.replicate 29 0

/-- Take an index, sign and write the report (R395, R420, R422, R423). -/
def State.attest (s : State) (i : Nat) (w : World) (ecc : List CodeWordError) : State :=
  let a := bits (s.pw i 0) 39 0
  let k := s.memCheck w a 5248
  if !s.sec.epv || 256 ≤ s.sec.attNext.toNat then s.done i stSTATE
  else if k = 3 then s.done i stWORLD
  else if s.rsvd i [(0, 63, 40)] || a % 64 ≠ 0 || k ≠ 0 then s.done i stPARAM
  else if s.sec.attReady && s.memHeld a 5248 then { s with keel := { s.keel with current := some i } }
  else if !s.sec.attReady then s.modSec (fun x => { x with attWait := x.attWait ++ [i] })
  else
    let idx := 256 * s.sec.epoch.toNat + s.sec.attNext.toNat
    let rep := s.report w idx [s.pw i 1, s.pw i 2, s.pw i 3, s.pw i 4]
    let s := s.modSec (fun x => { x with attNext := x.attNext + 1 })
    match (s.eccWrite a rep.length ecc).memWrite a rep with
    | (s, 0) => s.complete i { status := stOK, det0 := packF [(0, 20, idx)], det1 := BitVec.ofNat 64 a }
    | (s, ss) => s.done i (if ss = 2 then stLOST else stFAULT)

/-- ISL_ATTEST (R423): refused, waiting for `ATTSTAT.READY`, or signed. -/
def islAttest (c : Nat) (ecc : List CodeWordError) (s : State) : State := s.islRun c 0x51 (fun i e s => s.attest i e.world ecc)

end Sys2Proof.Machine
end

