-- ==== Sys2Proof/Machine/Recovery.lean ====
section
/-!
DEFINITION. Faults, spares and recovery (15: R428 to R449; 13: R401 to R404): substitution, route tables, isolation, failover,
the rebuild of the ledger, part resets.
-/
set_option autoImplicit false
namespace Sys2Proof.Machine

def State.modFlt (s : State) (f : Faults → Faults) : State := { s with flt := f s.flt }
def State.modKeel (s : State) (f : Keel → Keel) : State := { s with keel := f s.keel }
def State.ptile (s : State) (p : Nat) : PTile := tget ({} : PTile) s.flt.ptiles p
def State.modPt (s : State) (p : Nat) (f : PTile → PTile) : State :=
  s.modFlt (fun x => { x with ptiles := tmod ({} : PTile) p f x.ptiles })
def State.setDie (s : State) (n : Nat) (st : BitVec 2) (cause : Nat) : State :=
  s.modFlt (fun x => { x with dies := tput n { state := st, cause := BitVec.ofNat 4 cause } x.dies })

/-! ## A task ended by a reset (R404, R448) -/

/-- Whether a message concerns a take of context `c` of tile `p`, and the value that it carries. -/
def takeOf (p c : Nat) : Msg → Bool
  | .take _ q d _ _ => q = p && d = c
  | .taken _ q d _ _ _ => q = p && d = c
  | _ => false

/-- Forget what a context has under way outside its tile: its takes, its reads, its ranges at queue controllers. Values on
their way to it go back to the pool (R214, R448). -/
def State.dropFlying (s : State) (p c : Nat) : State :=
  let x := s.ctx p c
  let w := match x.task with
    | some k => k.world
    | none => false
  let mine (r : ReqSrc) : Bool := match r with
    | .xfer q d _ => q = p && d = c
    | .desc q d _ => q = p && d = c
    | _ => false
  let old : ReqSrc := .xfer p c x.nextX
  let coming := s.msgs ++ s.flying.filterMap (fun t => match t.load with
    | some (.msg m) => some m
    | _ => none)
  let s := coming.foldl (fun (s : State) m => match m with
    | .taken k q d _ _ (some v) => if q = p && d = c then s.returnVal w k v else s
    | _ => s) s
  let s := { s with msgs := s.msgs.filter (fun m => !takeOf p c m) }
  let s := s.dropLoads (fun l => match l with
    | .msg m => takeOf p c m
    | .req r => mine r.src && !r.write
    | .resp r => mine r.src
    | .part => false)
  let s := s.setMem (fun m => { m with
    net := m.net.filter (fun r => !mine r.src || r.write)
    resps := m.resps.filter (fun r => !mine r.src)
    pend := m.pend.map (fun (r : Nat × PendReq) =>
      if mine r.2.req.src then (r.1, { r.2 with req := { r.2.req with src := old } }) else r) })
  let s := { s with fab := { s.fab with regions := s.fab.regions.map (fun (r : Nat × Region) =>
    (r.1, { r.2 with qcs := r.2.qcs.map (fun (q : Nat × QueueCtl) =>
      (q.1, { q.2 with ranges := q.2.ranges.filter (fun g => !(g.p = p && g.ctx = c)) })) })) } }
  s.modCtx p c (fun x => { x with nextX := x.nextX + 1 })

/-- A task goes back into a start queue, ahead of every task that entered after it (R404). -/
def insertTask (k : Task) : List Task → List Task
  | [] => [k]
  | j :: rest => if k.num < j.num then k :: j :: rest else j :: insertTask k rest

/-- End the task of a context by a reset: one that is already ending replies, another goes back to its start queue when `back`. -/
def State.resetCtx (s : State) (p c : Nat) (back : Bool) : State :=
  let x := s.ctx p c
  let s := (s.returnValues p c).dropFlying p c
  let s := match x.task with
    | none => s
    | some k =>
      if x.ending.isSome || x.cancelAsked then
        (s.modCtx p c (fun x => { x with ending := some (x.ending.getD .cancel) })).finishTask p c
      else if back then
        let k := { k with past := x.det0 p }
        { s with startQ := tput k.logical (insertTask k (tget [] s.startQ k.logical)) s.startQ }
      else s
  s.modTile p (fun t =>
    let t := { t with starts := t.starts.filter (fun (x : Nat × Nat) => x.1 ≠ c)
                      prog := match t.prog with
                        | some g => if g.ctx = c then none else some g
                        | none => none }
    t.modCtx c CtxSt.idle)

def State.resetTile (s : State) (p : Nat) (back : Bool) : State := (s.resetCtx p 0 back).resetCtx p 1 back

/-- Clear a tile's contents as for both contexts (R414, R447). -/
def State.clearTile (s : State) (p : Nat) : State := s.modTile p (fun t => t.clearScope 0)

/-- Listed tiles of a die, or of the device. -/
def State.tilesOf (s : State) (n : Nat) : List Nat := (s.tiles.map (·.1)).filter (fun p => p / 52 = n)

/-! ## Spokes under test (R20, R21) -/

/-- The spokes of a die. -/
def spokesOf (n : Nat) : List Nat := (List.range 34).filter (fun i => (spokeEnds i).1 = n || (spokeEnds i).2 = n)

/-- A spoke stops for a wire test; one that has failed or is isolated carries nothing anyway. `SPKSTAT.STATE` reads 0x1 until the
test has ended, for which the spec gives no code (log entry 97). -/
def State.testSpoke (s : State) (i : Nat) : State :=
  let go (s : State) (d : Nat) : State :=
    if (s.side d).state = 0 then s.modSide d (fun x => { x with state := 1, onWire := false, ackDue := false }) else s
  go (go s (2 * i)) (2 * i + 1)

/-- The wire test of a direction: clean unless listed. -/
def wireOf (wires : List (SpokeDir × WireTest)) (d : Nat) : WireTest :=
  match wires.find? (fun (w : SpokeDir × WireTest) => decide (w.1.val = d)) with
  | some w => w.2
  | none => ⟨[], [], 0, 0, 0⟩

/-- A direction that its reset wire test finds whole: it goes on, and its sender resends the token it holds (R20, R21). One that
had failed starts with all its credits and no toggle seen (log entry 97). -/
def SpokeSide.restored (x : SpokeSide) (mask : BitVec 9) : SpokeSide :=
  let y := { x with state := 0, segMask := mask, onWire := x.held.isSome }
  if x.state = 2 then
    { y with credit0 := 4 - x.rx0.length, credit1 := 4 - x.rx1.length, lastTog := none, txToggle := false }
  else y

/-- The reset wire test of a spoke in both directions (R21, R437): its spare map is rebuilt, or it fails, or a failed spoke that
is found whole comes back into the tables. -/
def State.retest (s : State) (wires : List (SpokeDir × WireTest)) (i : Nat) : State :=
  let st := (s.side (2 * i)).state
  let a := wireOf wires (2 * i)
  let b := wireOf wires (2 * i + 1)
  let ma := wireMask (2 * i) a
  let mb := wireMask (2 * i + 1) b
  if st = 3 then s
  else if wireFails (2 * i) a || wireFails (2 * i + 1) b then
    ((s.modSide (2 * i) (fun x => { x with segMask := ma })).modSide (2 * i + 1) (fun x => { x with segMask := mb })).failSpoke i
      (if wireFails (2 * i) a then 0 else 1)
  else
    let s := (s.modSide (2 * i) (fun x => x.restored ma)).modSide (2 * i + 1) (fun x => x.restored mb)
    if st = 2 then
      let r := s.lastRoutes
      s.addSwap { bg := { r with spokes := r.spokes.filter (· ≠ i) }, tileTab := false, dieTab := true, why := .routing }
    else s

/-! ## Isolation (R440, R441, R449) -/

/-- A region of a die that is isolated or reset is closed and left empty; a command that was closing it is answered, and a load
that had come to it finds it so. -/
def State.dropRegion (s : State) (r : Nat) : State :=
  let x := s.region r
  let s := match x.closing with
    | some (.command e) => s.complete e { status := stOK }
    | _ => s
  let s := if x.isOpen then s.closeRegion r .weevil 1 else s
  let why := match (s.region r).closing with
    | some (.command _) => some CloseWhy.weevil
    | w => w
  s.modRegion r (fun x => { x.emptied with closing := why })

/-- Each task waiting for a tile that is left without a placement replies FAULT_ABORT (R433). -/
def State.unplacedReplies (s : State) (l p : Nat) : State :=
  let ks := tget [] s.startQ l
  let s := { s with startQ := tdel l s.startQ }
  ks.foldl (fun (s : State) (k : Task) => s.complete k.entry
    { status := stFAULT, det0 := packF [(32, 5, p / 52), (37, 6, p % 52)], det1 := k.tag.setWidth 64 }) s

/-- Steps 4 and 5 of R441. -/
def State.isolated (s : State) (n : Nat) : State :=
  let s := s.setDie n 3 (tget ({} : FieldDie) s.flt.dies n).cause.toNat
  let s := (spokesOf n).foldl (fun s i =>
    let put (s : State) (d : Nat) : State := (s.handBack d).modSide d (fun x => { x with state := 3 })
    put (put s (2 * i)) (2 * i + 1)) s
  let s := (List.range 52).foldl (fun s t =>
    let p := 52 * n + t
    let x := s.ptile p
    let s := if x.state = .active then s.unplacedReplies x.logical p else s
    s.modPt p (fun x => { x with state := .isolated })) s
  s.emit 0x16 false (packF [(0, 4, n), (4, 4, (tget ({} : FieldDie) s.flt.dies n).cause.toNat)])
    (packF [(0, 16, s.flt.dgen.toNat), (16, 16, s.flt.tgen.toNat)]) 0

/-- The holders of the tables that take part: the rims, the keel and the dies in service. -/
def State.holders (s : State) : List Nat := (List.range 19).filter (fun h => decide (16 ≤ h) || decide (s.dieState h = 0))

/-- The payload of records 0x10 and 0x11 (R427). -/
def tileRecord (l p new : Nat) : Word := packF [(0, 10, l), (10, 4, p / 52), (14, 6, p % 52), (20, 6, new)]

/-- What follows a change that every holder has swapped to (R427, R432, R433, R437, R441). -/
def State.afterSwap (s : State) (why : SwapWhy) : State :=
  match why with
  | .placement l p t code =>
    let s := (s.modPt p (fun x => { x with state := .retired })).modPt (52 * (p / 52) + t) (fun x =>
      { x with state := .active, logical := l })
    let s := s.modFlt (fun f => { f with
      subs := tmod 0 l (· + 1) f.subs, retire := f.retire.filter (fun r => r.ptile ≠ p) })
    s.emit 0x10 (s.tileWorld l) (tileRecord l p t) (code.setWidth 64) (s.flt.tgen.setWidth 64)
  | .noSpare l p code =>
    let s := s.modPt p (fun x => { x with state := .retired })
    let s := s.modFlt (fun f => { f with retire := f.retire.filter (fun r => r.ptile ≠ p) })
    (s.emit 0x11 (s.tileWorld l) (tileRecord l p 0x3F) (code.setWidth 64) (s.flt.tgen.setWidth 64)).unplacedReplies l p
  | .spokeFailed i side =>
    s.emit 0x12 false (packF [(0, 6, i), (6, 1, side)]) (s.side (2 * i + side)).word (s.flt.dgen.setWidth 64)
  | .isolation n => s.isolated n
  | .routing => s

/-- The first change takes effect once every holder has swapped to it (R434, R436). -/
def State.swapDone (s : State) : State :=
  match s.flt.swaps with
  | [] => s
  | j :: rest =>
    if s.holders.all (fun x => s.flt.swapped.contains x) then
      let s := s.modFlt (fun f => { f with
        routes := j.bg, swaps := rest, swapped := []
        tgen := if j.tileTab then f.tgen + 1 else f.tgen, dgen := if j.dieTab then f.dgen + 1 else f.dgen })
      (List.range 19).foldl (fun s n => s.routerGo n) (s.afterSwap j.why)
    else s

/-- Begin the isolation of die `n` (R441, steps 1 and 2), and the table change of step 3; a change that waited for this
die alone goes on without it. -/
def State.isolate (s : State) (n cause : Nat) : State :=
  if 2 ≤ (s.dieState n).toNat then s
  else
    let s := s.setDie n 2 cause
    let s := (s.tilesOf n).foldl (fun s p => s.resetTile p true) s
    let s := (List.range 8).foldl (fun s r => s.dropRegion (8 * n + r)) s
    let off (w : SwapWhy) : Bool := match w with
      | .placement _ p _ _ => p / 52 = n
      | .noSpare _ p _ => p / 52 = n
      | _ => false
    let s := s.modFlt (fun f => { f with
      retire := f.retire.filter (fun r => r.ptile / 52 ≠ n)
      swaps := f.swaps.map (fun j => if off j.why then { j with why := .routing } else j) })
    let r := s.lastRoutes
    (s.addSwap {
      bg := { r with tile := r.tile.filter (fun (t : Nat × Nat) => t.1 / 48 ≠ n), dies := n :: r.dies.filter (· ≠ n) }
      tileTab := true, dieTab := true, why := .isolation n }).swapDone

/-- Isolate every die all of whose spokes have failed (R440, cause 4). -/
def State.checkDies (s : State) : State :=
  (List.range 16).foldl (fun s n => if (spokesOf n).all (fun i => (s.side (2 * i)).state = 2) then s.isolate n 4 else s) s

/-- DIE_CONTROL_TIMEOUT (R440): the control port of the die does not answer, cause 2, or what the keel finds there is an
uncorrectable error in its router or route tables, cause 3 (log entry 91). -/
def dieControlTimeout (n : Nat) (router : Bool) (s : State) : State := if s.up then s.isolate n (if router then 3 else 2) else s

/-! ## Spare substitution (R432, R433) -/

/-- Is a substitution between steps 4 and 6? -/
def State.placing (s : State) : Bool := s.flt.swaps.any (fun j => match j.why with
  | .placement _ _ _ _ => true
  | .noSpare _ _ _ => true
  | _ => false)

/-- SPARE_SUBSTITUTION (R432, steps 3 to 5; R433): the first retirement, once both contexts are idle. -/
def spareSubstitution (s : State) : State :=
  match s.flt.retire with
  | [] => s
  | r :: _ =>
    let p := r.ptile
    if !s.up || s.placing || (s.ctx p 0).task.isSome || (s.ctx p 1).task.isSome then s
    else
      let l := (s.ptile p).logical
      let bg := s.lastRoutes
      match s.spares (p / 52) with
      | t :: _ =>
        (s.clearTile (52 * (p / 52) + t)).addSwap {
          bg := { bg with tile := tput l t bg.tile }, tileTab := true, dieTab := false, why := .placement l p t r.code }
      | [] =>
        s.addSwap { bg := { bg with tile := tdel l bg.tile }, tileTab := true, dieTab := false, why := .noSpare l p r.code }

/-! ## Route table swaps (R434 to R437) -/

/-- Destinations whose next spoke at a holder differs between two sets of tables (R436). -/
def changedDests (old new : Routes) (h : Nat) : List Nat :=
  (List.range 19).filter (fun d => (List.range 4).any (fun sp => decide (old.next h d sp ≠ new.next h d sp)))

/-- ROUTE_TABLE_SWAP (R434, R436): `h` swaps to the tables of the first change and acknowledges. -/
def routeTableSwap (h : Nat) (s : State) : State :=
  match s.flt.swaps with
  | [] => s
  | j :: _ =>
    if s.flt.swapped.contains h || !s.holders.contains h then s
    else
      let hold := if j.dieTab then (changedDests s.flt.routes j.bg h).map (fun d => (h, d)) else []
      (s.modFlt (fun f => { f with
        swapped := h :: f.swapped, holds := f.holds.filter (fun x => !hold.contains x) ++ hold })).swapDone

/-- Is a token for `d` that `h` has sent still under way (R436)? -/
def State.underWay (s : State) (h d : Nat) : Bool := s.flying.any (fun t => decide (t.dst = d) && t.via.contains h)

/-- EJECTION_REPORT (R436): every token that `h` sent for `d` on the old spoke has been ejected. -/
def ejectionReport (h d : Nat) (s : State) : State :=
  if s.flt.holds.contains (h, d) && !s.underWay h d then (s.modFlt (fun f => { f with holds := f.holds.filter (· ≠ (h, d)) })).routerGo h else s

/-! ## The rebuild of the ledger (R401, R402, R408) -/

/-- Credit that the host holds on a channel: its quotas less what its entries hold. -/
def State.recredit (s : State) (c : Nat) : State :=
  let es := s.keel.ledger.filter (fun (x : Nat × LgEntry) => decide (x.2.chan.toNat = c))
  s.modChan c (fun y => { y with
    heldE := (y.quotaE.toNat : Int) - es.length
    heldP := (y.quotaP.toNat : Int) - (es.foldl (fun a x => a + unitsOf x.2.plen.toNat) 0 : Nat)
    freedE := 0, freedP := 0 })

/-- Channel restart: the alive count expected and record 0x09 (R399, R402, R408). -/
def State.restart (s : State) (c : Nat) : State :=
  let s := s.modChan c (fun y => { y with alivExp := 0 })
  let y := s.chan c
  s.emit 0x09 y.world (BitVec.ofNat 64 c) (y.next.setWidth 64) (packF [(0, 18, y.heldE.toNat), (32, 20, y.heldP.toNat)])

def State.openChans (s : State) : List Nat := (s.keel.chans.filter (fun (x : Nat × ChanSt) => x.2.isOpen)).map (·.1)

/-- An entry of which `mask` copies read bad (R401): repaired from a good one, or lost and freed. -/
def State.repairEntry (s : State) (i : Nat) (mask : BitVec 3) : State :=
  if mask = 0 || 131072 ≤ i then s
  else
    let s := s.emit 0x19 true (packF [(0, 17, i), (17, 3, mask.toNat)]) 0 0
    if mask ≠ 7 then s
    else match s.entry i with
      | none => s
      | some e =>
        let drop (t : Table (List Byte)) := if e.plen = 0 then t else tdel e.punit.toNat t
        (s.modKeel (fun k => { k with pstoreW := drop k.pstoreW, pstoreE := drop k.pstoreE })).lgFree i

/-- Insert an entry into a list of entries by `LG.ORDER`, compared against the device-wide count. -/
def insertOrder (now : BitVec 32) (x : Nat × LgEntry) : List (Nat × LgEntry) → List (Nat × LgEntry)
  | [] => [x]
  | y :: rest =>
    if (now - y.2.order).toNat < (now - x.2.order).toNat then x :: y :: rest else y :: insertOrder now x rest

/-- The entries that are to start again, in the order of R402. -/
def State.replayOrder (s : State) : List Nat :=
  (((s.keel.ledger.filter (fun (x : Nat × LgEntry) => decide (x.2.state ≠ .complete))).foldl
    (fun a x => insertOrder s.keel.order x a) [])).map (·.1)

/-- Rebuild the ledger and begin its replay (R401, R402). -/
def State.rebuild (s : State) (bad : List (Nat × BitVec 3)) : State :=
  let s := bad.foldl (fun s b => s.repairEntry b.1 b.2) s
  let s := s.modKeel (fun k => { k with
    accepting := [], arrived := [], current := none, quiescing := [], drain := false
    rebuilt := k.ledger.map (·.1) })
  let s := s.modKeel (fun k => { k with replayQ := s.replayOrder })
  let s := s.modLdr (fun l => { l with waiting := [] })
  let s := s.modSec (fun x => { x with attWait := [] })
  let s := s.modFlt (fun f => { f with resets := f.resets.map (fun j => { j with entry := none }) })
  let s := s.setMem (fun m => { m with chans := m.chans.map (fun (c : Nat × MemChan) => (c.1, { c.2 with cmds := [] })) })
  let s := { s with fab := { s.fab with regions := s.fab.regions.map (fun (r : Nat × Region) =>
    (r.1, { r.2 with closing := match r.2.closing with
      | some (.command _) => some .weevil
      | w => w })) } }
  s.openChans.foldl (fun s c =>
    let low := s.keel.ledger.foldl (fun (a : Nat) (x : Nat × LgEntry) =>
      if x.2.chan.toNat = c then min a x.2.seq.toNat else a) (s.chan c).next.toNat
    ((s.modChan c (fun y => { y with replyNext := low })).recredit c).restart c) s

/-! ## The Tandem (R443, R460) -/

/-- Every task ends, and none waits in a start queue: all start again by R402. -/
def State.endAllTasks (s : State) : State :=
  { (s.tiles.map (·.1)).foldl (fun s p => s.resetTile p false) s with startQ := [] }

/-- A failover (R443): only a standby pair that is ready can take over. -/
def State.failover (s : State) (cause : BitVec 3) (bad : List (Nat × BitVec 3)) : State :=
  if !s.up || s.flt.standby ≠ 0 then s
  else
    let s := (s.endAllTasks.abortLoad false).rebuild bad
    let s := s.modFlt (fun f => { f with pair := !f.pair, standby := 1, fcause := cause, failovers := satInc f.failovers })
    s.emit 0x17 false (packF [(0, 1, b2n s.flt.pair), (1, 3, cause.toNat)]) (s.flt.standby.setWidth 64) 0

/-- TANDEM_WATCHDOG (R443, cause 3). -/
def tandemWatchdog (s : State) : State := s.failover 3 []

/-- TANDEM_FAILOVER (R443): `bad` are the ledger copies found bad in the rebuild. -/
def tandemFailover (cause : FailoverCause) (bad : List (Nat × BitVec 3)) (s : State) : State :=
  s.failover (match cause with
    | .mismatch => 1
    | .memory => 2
    | .watchdog => 3) bad

/-- STANDBY_SELF_TEST (R443, R460). -/
def standbySelfTest (pass : Bool) (s : State) : State :=
  if s.flt.standby = 1 && s.boot.phase ≠ .held then s.modFlt (fun f => { f with standby := if pass then 0 else 2 }) else s

/-! ## Part resets (R445 to R447) -/

/-- A part reset command of a kind (R394, R445, R403): `s` unchanged when the started reset is of another kind. -/
def State.resetRun (s : State) (c kind limit : Nat) (f : Nat → State → State) : State :=
  s.islRun c 0x28 (fun i e s0 =>
    let w0 := s0.pw i 0
    let t := bits w0 15 8
    if bits w0 2 0 ≠ kind then s
    else if s0.rsvd i [(0, 7, 3), (0, 63, 16)] || limit < t then s0.done i stPARAM
    else f t ((s0.modKeel (fun k => { k with resetMark := some (e.markOf stOK) })).modFlt (fun x => { x with
      resets := x.resets ++ [{ kind := kind, target := t, entry := some i }] })))

/-- ISL_RESET of four logical tiles (R445, kind 0x2). -/
def islResetTile (c : Nat) (s : State) : State := s.resetRun c 2 191 (fun t s =>
  (List.range 4).foldl (fun s j => match s.placed (4 * t + j) with
    | some p => (s.resetTile p true).clearTile p
    | none => s) s)

/-- The temperature word of a die is not valid until a conversion completes after the reset of the die (R58). -/
def State.tempInvalid (s : State) (n : Nat) : State :=
  s.modTim (fun t => { t with temps := tmod ({} : TempWord) n (fun (x : TempWord) => { x with valid := false }) t.temps })

/-- ISL_RESET of a field die (R445 to R447, kind 0x3). -/
def islResetFieldDie (c : Nat) (s : State) : State := s.resetRun c 3 15 (fun n s =>
  if 2 ≤ (s.dieState n).toNat then s
  else
    let s := s.setDie n 1 0
    let s := match s.ldr.job with
      | some j => if j.at_ / 8 = n then s.abortLoad true else s
      | none => s
    let s := (s.tilesOf n).foldl (fun s p => (s.resetTile p true).clearTile p) s
    let s := (List.range 8).foldl (fun s r => s.dropRegion (8 * n + r)) s
    let s := s.modWeevil n (fun w => { w with region := 0, pos := 0 })
    let s := s.modTim (fun t => { t with pace := tmod ({} : PaceWord) n (fun (x : PaceWord) => { x with valid := false }) t.pace })
    let s := s.tempInvalid n
    let s := (spokesOf n).foldl (fun s i => s.testSpoke i) s
    let r := s.lastRoutes
    s.addSwap { bg := { r with dies := n :: r.dies.filter (· ≠ n) }, tileTab := false, dieTab := true, why := .routing })

/-- A lane is off while its reset lasts; `LNCFG` and the equalisation entry stay (R447). -/
def State.laneOff (s : State) (i : Nat) : State :=
  let s := s.laneFlush i
  let s := s.modLane i (fun l => { l with state := 0, cdr := false, block := false, eqmiss := false, tx := [], marker := none })
  if (s.lane i).mode = 2 then s.portFail (lanePort i) 8 else s

/-- A lane that `LNCFG` enables is enabled again on the entry it holds (R447). -/
def State.laneOn (s : State) (i : Nat) : State :=
  let l := s.lane i
  if !l.en then s
  else
    let miss := l.eqsrc && decide (bits l.eq0 2 0 ≠ l.rate)
    let s := s.modLane i (fun l => { l with
      eqmiss := miss, state := if miss then 3 else 1, cdr := false, block := false, syncRun := 0, syncSeen := 0, syncBad := 0
      past := 0, held := [], tx := [], idle := false, marker := none, sent := [], par := 0, txPast := 0 })
    (if miss then s.laneFailed i else s).portLanes (lanePort i)

/-- A channel enters self-refresh after the writes that it has acknowledged (R306). -/
def State.intoSref (s : State) (ch : Nat) : State := (s.flush ch).modMchan ch (fun c => { c with sref := true, due := [], openRow := [] })
def State.outOfSref (s : State) (ch : Nat) : State := s.modMchan ch (fun c => { c with sref := false })

/-- A rim's positions are zero, its presets and their marks lost, its entries freed with MISSED (R346, R352, R403). -/
def State.odoReset (s : State) (m : Nat) : State :=
  let s := (s.actsWhere (fun a => a.st ≠ 0 && a.rim = m)).foldl (fun s i => s.actRecord i 2) s
  let s := { s with web := { s.web with acts := s.web.acts.filter (fun (a : Nat × ActEntry) => a.2.rim ≠ m) } }
  let s := { s with fab := { s.fab with pins := s.fab.pins.map (fun (p : Nat × Pin) =>
    if p.1 / 128 = m then (p.1, { p.2 with latch := false }) else p) } }
  (List.range 4).foldl (fun s c => s.modOdo c (fun o =>
    let o := (o.setPos m 0).setPre m none
    let o := if m = 0 then { o with markW := none } else { o with markE := none }
    { o with sent := o.sent.filter (fun x => x.1 != decide (m = 1)) })) s

/-- The lines in progress of a stream are LOST by a reset of their rim (R359); parts not acknowledged are to be sent again. -/
def State.streamReset (s : State) (st : Nat) : State :=
  let s := ((s.stream_ st).lines.filter (fun l => !l.ended)).foldl (fun s l => s.loseLine st l.seq) s
  let s := s.modStream st (fun t => { t with
    lines := t.lines.map (fun l => { l with issued := 0, ended := true, recSent := false }) })
  let mine (r : ReqSrc) : Bool := match r with
    | .line t _ _ => t = st
    | _ => false
  let gone := (s.mem.pend.filter (fun (r : Nat × PendReq) => mine r.2.req.src)).map (·.1)
  s.setMem (fun m => { m with
    net := m.net.filter (fun r => !mine r.src), resps := m.resps.filter (fun r => !mine r.src)
    pend := m.pend.filter (fun (r : Nat × PendReq) => !mine r.2.req.src)
    chans := m.chans.map (fun (c : Nat × MemChan) => (c.1, { c.2 with queue := c.2.queue.map (fun (p : Part) =>
      if gone.contains p.rid then { p with owes := false } else p) })) })

def State.streamsOf (s : State) (m : Nat) : List Nat := (s.web.streams.map (·.1)).filter (fun i => i / 16 = m)

/-- ISL_RESET of a rim (R391, R445 to R447, kind 0x4). -/
def islResetRim (c : Nat) (s : State) : State := s.resetRun c 4 1 (fun m s =>
  let s := s.modKeel (fun k => { k with mirror := k.mirror &&& (if m = 0 then 2 else 1) })
  let s := (List.range 48).foldl (fun s l => s.laneOff (48 * m + l)) s
  let s := s.odoReset m
  let s := (List.range 40).foldl (fun s ch => s.intoSref (40 * m + ch)) s
  let s := (s.streamsOf m).foldl (fun s st => s.streamReset st) s
  let s := s.tempInvalid (16 + m)
  (spokesOf (16 + m)).foldl (fun s i => s.testSpoke i) s)

/-- ISL_RESET of a lane (R445, R447, kind 0x5). -/
def islResetLane (c : Nat) (s : State) : State := s.resetRun c 5 95 (fun i s => s.laneOff i)

/-- ISL_RESET of a spoke (R21, R445, kind 0x6). -/
def islResetSpoke (c : Nat) (s : State) : State := s.resetRun c 6 33 (fun i s => s.testSpoke i)

/-- ISL_RESET of a region (R445, R447, kind 0x7): it closes, and opens with the same frames at the end if it was open. What was
closing it is over: a command is answered, and a load is to run again. -/
def islResetRegion (c : Nat) (s : State) : State := s.resetRun c 7 127 (fun r s =>
  let x := s.region r
  let restart (s : State) : State :=
    if (s.weevil (r / 8)).region.toNat = r % 8 then s.modWeevil (r / 8) (fun w => { w with pos := 0 }) else s
  if x.isOpen then restart ((s.closeRegion r .reset 3).modRegion r (fun x => { x with reopen := true }))
  else
    let s := match x.closing with
      | some (.command e) => s.complete e { status := stOK }
      | _ => s
    let s := if x.closing = some .load then s.abortLoad true else s
    s.modRegion r (fun y => { y with state := 3, closing := x.closing.map (fun _ => CloseWhy.reset) }))

/-- Kind and target of a unit (R445). -/
def unitCode : ResetUnit → Nat × Nat
  | .tile t => (2, t.val)
  | .die n => (3, n.val)
  | .rim m => (4, m.val)
  | .lane l => (5, l.val)
  | .spoke i => (6, i.val)
  | .region r => (7, r.val)

/-- World of record 0x18 (R491). -/
def State.resetWorld (s : State) (kind t : Nat) : World :=
  if kind = 2 then (List.range 4).any (fun j => s.tileWorld (4 * t + j))
  else if kind = 5 then s.wlane (lanePort t)
  else if kind = 7 then (s.region t).world
  else false

/-- The resets of a unit are over: each command replies, and record 0x18 follows (R445). -/
def State.resetOver (s : State) (u : ResetUnit) (failed : Bool) : State :=
  let (kind, t) := unitCode u
  let js := s.flt.resets.filter (fun j => decide (j.kind = kind) && decide (j.target = t))
  let s := s.modFlt (fun f => { f with resets := f.resets.filter (fun j => !(j.kind = kind && j.target = t)) })
  js.foldl (fun s j =>
    let s := match j.entry with
      | some i => s.complete i { status := stOK }
      | none => s
    s.emit 0x18 (s.resetWorld kind t) (packF [(0, 3, kind), (8, 8, t)]) (BitVec.ofNat 64 (b2n failed)) 0) s

/-- Is a reset of the unit in progress? -/
def State.resetting (s : State) (u : ResetUnit) : Bool :=
  s.flt.resets.any (fun j => decide (j.kind = (unitCode u).1) && decide (j.target = (unitCode u).2))

/-- The spokes that a unit's reset retests (R445, R447). -/
def unitSpokes : ResetUnit → List Nat
  | .die n => spokesOf n.val
  | .rim m => spokesOf (16 + m.val)
  | .spoke i => [i.val]
  | _ => []

/-- The unit is released, its wire tests apart (R445 to R447). -/
def State.releaseUnit (s : State) (u : ResetUnit) : State :=
  match u with
  | .tile _ => s
  | .die n =>
    if s.dieState n.val = 1 then
      let s := s.setDie n.val 0 0
      let r := s.lastRoutes
      s.addSwap { bg := { r with dies := r.dies.filter (· ≠ n.val) }, tileTab := false, dieTab := true, why := .routing }
    else s
  | .rim m =>
    let s := s.modKeel (fun k => { k with mirror := k.mirror ||| (if m.val = 0 then 1 else 2) })
    let s := (List.range 40).foldl (fun s ch => s.outOfSref (40 * m.val + ch)) s
    (List.range 48).foldl (fun s l => s.laneOn (48 * m.val + l)) s
  | .lane l => s.laneOn l.val
  | .spoke _ => s
  | .region r =>
    if (s.region r.val).state ≠ 3 then s
    else if (s.region r.val).reopen then s.modRegion r.val Region.initial
    else s.modRegion r.val (fun x => { x with state := 1 })

/-- PART_RESET_COMPLETE (R445 to R447); a region first completes its close. -/
def partResetComplete (u : ResetUnit) (wires : List (SpokeDir × WireTest)) (s : State) : State :=
  let waits := match u with
    | .region r => (s.region r.val).closing.isSome && decide ((s.region r.val).state = 3)
    | _ => false
  if !s.resetting u || waits then s
  else
    let s := ((unitSpokes u).foldl (fun s i => s.retest wires i) (s.releaseUnit u)).checkDies.resetOver u false
    match u with
    | .rim m => (s.streamsOf m.val).foldl (fun s st => s.streamGo st) s
    | _ => s

/-- PART_RESET_TIMEOUT (R440, R445): `stuck` are the tiles of a tile reset that did not complete. -/
def partResetTimeout (u : ResetUnit) (stuck : List (Fin 4)) (s : State) : State :=
  if !s.resetting u then s
  else
    let s : State := match u with
      | .tile t => stuck.foldl (fun (s : State) (j : Fin 4) => match s.placed (4 * t.val + j.val) with
        | some p =>
          if (s.ptile p).state = .active && !s.flt.retire.any (fun r => decide (r.ptile = p)) then
            (s.modFlt (fun f => { f with
              retire := f.retire ++ [{ ptile := p, code := (Config.freeWord s.fresh 0).setWidth 8 }] })).bump
          else s
        | none => s) s
      | .die n => s.isolate n.val 1
      | .lane l => ((s.modLane l.val (fun x => { x with state := 3 })).laneFailed l.val).portLanes (lanePort l.val)
      | .spoke i => (s.failSpoke i.val 0).checkDies
      | .region r => if (s.region r.val).state = 3 then s.modRegion r.val (fun x => { x with state := 1, reopen := false }) else s
      | .rim _ => s
    s.resetOver u true

end Sys2Proof.Machine
end

