-- ==== Sys2Proof/Machine/Startup.lean ====
section
/-!
DEFINITION. Cold and warm reset and start-up (16: R453 to R466; 15: R428, R447; 14: R421, R423; 17: R476, R477, R486).
-/
set_option autoImplicit false
namespace Sys2Proof.Machine

/-! ## Cold reset (R447, R453, R486) -/

/-- The device in cold reset: what is not on the die or is fused stays, everything else is at its reset value. The pace
window open at the release counts as complete at its close, where the spec does not say when the first window opens (log entry 109). -/
def State.cold (s : State) (hold : Bool) : State :=
  { hPart := s.hPart
    xPart := s.xPart
    fresh := s.fresh + 1
    pending := s.pending
    readData := s.readData
    tim := { vddf := s.tim.vddf, refclk := s.tim.refclk, windowOpen := s.tim.refclk, supplyHold := hold }
    keel := { out := s.keel.out, lostPaths := s.keel.lostPaths }
    sec := { epUsed := s.sec.epUsed, owner := s.sec.owner, ownerRoot := s.sec.ownerRoot, voff := s.sec.voff }
    mem := { raaimt := s.mem.raaimt }
    ser := { lrefMissing := s.ser.lrefMissing }
    fab := { bankV := s.fab.bankV, edges := s.fab.edges
             pins := s.fab.pins.map (fun (p : Nat × Pin) => (p.1, ({ level := p.2.level } : Pin))) } }

/-- COLD_RESET (R453, R456): PORST_N falls. -/
def coldReset (s : State) : State := s.cold s.tim.supplyHold

/-- SUPPLY_MONITOR_COLD_RESET (R56). -/
def supplyMonitorColdReset (s : State) : State := if s.tim.vddf < 480 then s.cold true else s

/-! ## Release (R421, R453 to R457) -/

/-- The advance of the epoch (R421): the bit confirmed, of at most three tried from `used` on; `blows` says of each attempt whether
it reads back blown. -/
def epochAdvance (used : Nat) (blows : List Bool) : Option Nat :=
  (lowest 3 (fun k => decide (used + k < 4096) && blows.getD k false)).map (used + ·)

def rateOf (v : BitVec 2) : BitVec 2 := if v = 3 then 2 else v

/-- Sides of a spoke after its first wire test (R18, R21). -/
def coldSides (wires : List (SpokeDir × WireTest)) (i : Nat) : List (Nat × SpokeSide) :=
  let a := wireOf wires (2 * i)
  let b := wireOf wires (2 * i + 1)
  let ma := wireMask (2 * i) a
  let mb := wireMask (2 * i + 1) b
  if wireFails (2 * i) a || wireFails (2 * i + 1) b then [(2 * i, { state := 2, segMask := ma }), (2 * i + 1, { state := 2, segMask := mb })]
  else [(2 * i, { segMask := ma }), (2 * i + 1, { segMask := mb })]

/-- COLD_RESET_RELEASE (R421, R453, R454 steps 1 to 3, R457). -/
def coldResetRelease (env : BootEnv) (s : State) : State :=
  if s.boot.phase ≠ .held || s.tim.supplyHold then s
  else
    let e := epochAdvance s.sec.epUsed.toNat env.blows
    let s := { s with
      boot := { s.boot with
        phase := .training, rate := rateOf env.memrate, leadsel := env.leadselHigh, follower := !s.hPart || env.leadselHigh
        tfail := BitVec.ofNat 10 env.tileFails.eraseDups.length }
      sec := { s.sec with
        epv := e.isSome
        epoch := match e with
          | some b => BitVec.ofNat 12 b
          | none => (Config.freeWord s.fresh 1).setWidth 12
        epUsed := match e with
          | some b => BitVec.ofNat 13 (b + 1)
          | none => s.sec.epUsed }
      spk := { s.spk with sides := (List.range 34).flatMap (coldSides env.wires) } }
    (s.modFlt (fun f => { f with
      ptiles := (List.range 832).map (fun p => (p, ({ selftest := env.tileFails.any (fun t => decide (t.val = p)) } : PTile))) })).bump

/-! ## Placement (R428, R454 step 5) -/

/-- `PTSTAT` of the tiles of die `n` (R428): of those that passed, the first 48 take its logical tiles and the rest are spares. -/
def placeDie (fails : Nat → Bool) (n : Nat) : List (Nat × PTile) :=
  ((List.range 52).foldl (fun (a : Nat × List (Nat × PTile)) t =>
    let p := 52 * n + t
    if fails p then (a.1, (p, ({ state := .retired, selftest := true } : PTile)) :: a.2)
    else if a.1 < 48 then (a.1 + 1, (p, ({ logical := 48 * n + a.1 } : PTile)) :: a.2)
    else (a.1, (p, ({ state := .spare } : PTile)) :: a.2)) (0, [])).2.reverse

/-- TILE_PLACEMENT (R428, R435, R440, R454 step 5): once every channel has ended its training. -/
def tilePlacement (s : State) : State :=
  if s.boot.phase ≠ .training || !(List.range 80).all (fun ch => s.boot.trained.contains ch) then s
  else
    let pts := (List.range 16).flatMap (placeDie (fun p => (s.ptile p).selftest))
    let lost := (List.range 34).filter (fun i => (s.side (2 * i)).state = 2)
    let s := { s with boot := { s.boot with phase := .placed, dfail := BitVec.ofNat 5 s.mem.failed.length } }
    let s := s.modFlt (fun f => { f with
      ptiles := pts
      routes := {
        tile := (pts.filter (fun (x : Nat × PTile) => x.2.state = .active)).map (fun (x : Nat × PTile) => (x.2.logical, x.1 % 52))
        spokes := lost } })
    let s := lost.foldl (fun s i => s.emit 0x12 false (packF [(0, 6, i)]) (s.side (2 * i)).word 0) s
    s.checkDies

/-! ## Warm reset (R306, R447, R456, R476) -/

/-- A channel at the start of a warm reset (R306): acknowledged writes are issued, the rest is dropped. -/
def State.warmChan (s : State) (ch : Nat) : State :=
  let ws := (s.mchan ch).queue.filter (fun p => p.write && (tlook p.rid s.mem.pend).isNone)
  let s := s.modMchan ch (fun c => { c with queue := [], due := [], openRow := [], sref := true })
  ws.foldl (fun s p => (s.applyWrite ch p []).1) s

/-- The memory at the start of a warm reset: forwarded copies are issued, requests not acknowledged are dropped, and the
region ports and Vorot ports that wait for them hear so. -/
def State.warmMem (s : State) : State :=
  let s := s.deliver
  let s := (s.mem.chans.map (·.1)).foldl (fun s ch => s.warmChan ch) s
  let srcs := s.flying.filterMap (fun t => match t.load with
      | some (.req r) => some r.src
      | some (.resp r) => some r.src
      | _ => none) ++ s.mem.net.map (fun (r : MemReq) => r.src) ++ s.mem.pend.map (fun (r : Nat × PendReq) => r.2.req.src)
  let s := s.setMem (fun m => { m with net := [], copies := [], pend := [], resps := [] })
  srcs.foldl (fun s r => match r with
    | .region g tag => s.modRegion g (fun x => x.answer tag 0xB [])
    | .peer v tag => s.peerDone v tag false
    | _ => s) s

/-- The unit of a reset job. -/
def unitOf (kind t : Nat) : ResetUnit :=
  if kind = 2 then .tile (Fin.ofNat 192 t) else if kind = 3 then .die (Fin.ofNat 16 t) else if kind = 4 then .rim (Fin.ofNat 2 t)
  else if kind = 5 then .lane (Fin.ofNat 96 t) else if kind = 6 then .spoke (Fin.ofNat 34 t) else .region (Fin.ofNat 128 t)

/-- A part reset in progress ends with the warm reset that meets it (log entry 71); its command replies from its mark. -/
def State.absorbReset (s : State) (j : ResetJob) : State :=
  let s := if j.kind = 7 then s.modRegion j.target (fun x => { x with closing := none }) else s
  (s.releaseUnit (unitOf j.kind j.target)).emit 0x18 (s.resetWorld j.kind j.target) (packF [(0, 3, j.kind), (8, 8, j.target)]) 0 0

/-- Spokes and routers at the start of a warm reset: tokens under way are dropped with the work they served, so that senders and
receivers start level, and no spoke carries a token before its wire test (R21; log entry 78). -/
def SpokeNet.warm (n : SpokeNet) : SpokeNet :=
  { n with
    sides := n.sides.map (fun x => (x.1, { x.2 with
      held := none, onWire := false, txToggle := false, credit0 := 4, credit1 := 4, rx0 := [], rx1 := [], lastTog := none
      ackDue := false }))
    rerouted := [], inj := [] }

/-- A warm reset begins. Tokens in spokes and routers, their toggles and their credits start level (log entry 78). -/
def State.warmBegin (s : State) : State :=
  let s := { s with boot := { s.boot with phase := .warm }, ssp := { s.ssp.reset with held := [], drove := [] } }
  let s := s.modKeel (fun k => { k with warms := satInc k.warms, accepting := [], arrived := [] })
  let s := s.endAllTasks.abortLoad false
  let s := (s.tiles.map (·.1)).foldl (fun s p => s.clearTile p) s
  let js := s.flt.resets
  let s := js.foldl (fun s j => s.absorbReset j) (s.modFlt (fun f => { f with resets := [] }))
  let s := (s.web.streams.map (·.1)).foldl (fun s st => s.streamReset st) s
  let s := s.warmMem
  let s := { s with msgs := [], spk := s.spk.warm, weevils := s.weevils.map (fun (w : Nat × Weevil) => (w.1, { w.2 with region := 0, pos := 0 })) }
  (List.range 80).foldl (fun s ch => s.modMchan ch (fun c => { c with sref := true })) s

/-- A warm reset is requested (R456, R476): it begins, joins one in progress, or waits for step 7. -/
def State.warmRequest (s : State) : State :=
  match s.boot.phase with
  | .ready => s.warmBegin
  | .warm => s
  | .held => s
  | _ => { s with boot := { s.boot with warmAsked := true } }

/-- WARM_RESET (R456, R476): WRST_N has been low for 1 µs. -/
def warmReset (s : State) : State := s.warmRequest

/-- ISL_RESET of the device (R394, R445, R476), and of a kind that R394 reserves. -/
def islResetWarm (c : Nat) (s : State) : State := s.islRun c 0x28 (fun i e s0 =>
  let w0 := s0.pw i 0
  if 2 ≤ bits w0 2 0 then s
  else if bits w0 2 0 = 0 || s0.rsvd i [(0, 63, 3)] then s0.done i stPARAM
  else
    let s1 := s0.modKeel (fun k => { k with resetMark := some (e.markOf stOK) })
    ({ s1 with boot := { s1.boot with warmCmds := s1.boot.warmCmds ++ [i] } } : State).warmRequest)

/-- WARM_RESET_RELEASE (R21, R306, R387, R401, R402, R447, R476). -/
def warmResetRelease (bad : List (Nat × BitVec 3)) (wires : List (SpokeDir × WireTest)) (s : State) : State :=
  if s.boot.phase ≠ .warm then s
  else
    let s := (List.range 80).foldl (fun s ch => s.outOfSref ch) s
    let s := (List.range 34).foldl (fun s i => s.retest wires i) s
    let s := s.checkDies
    let s := if s.keel.dstate = .running then s.setDstate .freewheel else s
    let s := s.modFlt (fun f => { f with standby := if f.standby = 2 then 2 else 1 })
    let s := s.rebuild bad
    let s := { s with boot := { s.boot with phase := .ready } }
    (s.web.streams.map (·.1)).foldl (fun s st => s.streamGo st) s

/-! ## Sealed (R379, R454 steps 6 to 8, R463) -/

/-- A channel as it opens at step 7. -/
def firstChan (path : BitVec 2) (qe qp : Nat) : ChanSt :=
  { isOpen := true, world := true, path := path, quotaE := BitVec.ofNat 18 qe, quotaP := BitVec.ofNat 20 qp, heldE := qe, heldP := qp }

/-- A follower's lanes at step 7 (R463). -/
def State.followerLanes (s : State) : State :=
  (List.range 96).foldl (fun s i => s.laneCfg i (packF [(0, 1, 1), (1, 2, 2), (3, 3, 1)])) s

/-- SEALED_ENTRY (R379, R400, R405, R454 steps 6 and 7, R456, R463). -/
def sealedEntry (s : State) : State :=
  if s.boot.phase ≠ .placed then s
  else
    let f := s.boot.follower
    let s := s.modKeel (fun k => { k with
      mirror := 3, ledger := [], ledgerW := [], ledgerE := []
      chans := [(0, firstChan (if f then 3 else 0) 4096 16384), (63, firstChan 2 256 1024)]
      evPath := if f then 3 else 0 })
    let s := { s with boot := { s.boot with phase := .ready } }
    let s := if f then s.followerLanes else s
    if s.boot.warmAsked then ({ s with boot := { s.boot with warmAsked := false } } : State).warmBegin else s

/-- ATTSTAT_READY (R423, R454 step 8): commands that waited go on. -/
def attstatReady (ecc : List CodeWordError) (s : State) : State :=
  if !s.up || !s.sec.epv || s.sec.attReady || (s.retraining && !s.sec.attWait.isEmpty) then s
  else
    let is := s.sec.attWait
    let s := s.modSec (fun x => { x with attReady := true, attWait := [] })
    is.foldl (fun s i => match s.entry i with
      | some e => s.attest i e.world ecc
      | none => s) s

end Sys2Proof.Machine
end

