-- ==== Sys2Proof/Machine/Ssp.lean ====
section
/-!
DEFINITION. The serial slave port (17: R478 to R480) and paths that lose packets (14: R408).
-/
set_option autoImplicit false
namespace Sys2Proof.Machine

def State.modSsp (s : State) (f : Ssp → Ssp) : State := { s with ssp := f s.ssp }

/-- May a transaction begin (R50, R479, R486)? -/
def State.sspUsable (s : State) : Bool := s.up && s.tim.refclk && !s.keel.lostPaths.contains .ssp && !s.ssp.active

/-- READY: room for one packet, while none of this path waits for the keel (R479). -/
def State.sspReady (s : State) : Bool := !s.keel.arrived.any (fun (a : BitVec 2 × Packet) => a.1 = 2)

/-- A device packet as it is driven: four words, then its data. -/
def DevPacket.bytes (p : DevPacket) : List Byte := bytesOfWords [p.w0, p.w1, p.w2, p.w3] ++ p.data

/-- SSP_WRITE (R479, R480): the host drives `bytes` after the status; those past the packet are ignored. -/
def sspWrite (bytes : List Byte) (s : State) : State :=
  if !s.sspUsable then s
  else if !s.sspReady then s.modSsp (fun x => { x with active := true, drove := [0] })
  else match packetOfBytes bytes with
    | some p =>
      let s := s.modSsp (fun x => { x with active := true, complete := true, drove := [1] })
      s.modKeel (fun k => { k with arrived := k.arrived ++ [(2, p)] })
    | none => s.modSsp (fun x => { x with active := true, rx := bytes, drove := [1] })

/-- SSP_READ (R479, R480): the device drives N and `n` bytes of its oldest packet, which leaves once all N are driven. -/
def sspRead (n : Nat) (s : State) : State :=
  if !s.sspUsable then s
  else match s.ssp.held with
    | [] => s.modSsp (fun x => { x with active := true, reading := true, driven := 0, drove := bytesOf 2 0 })
    | p :: rest =>
      let bs := p.bytes
      s.modSsp (fun x => { x with
        active := true, reading := true, driven := min n bs.length, drove := bytesOf 2 bs.length ++ bs.take n
        held := if bs.length ≤ n then rest else x.held })

/-- SSP_ATTN_N (R480, R486): low while a packet is held for this path. -/
def State.sspAttnLow (s : State) : Bool := s.up && !s.ssp.held.isEmpty

/-- SSP_CS_RISE (R408, R480): the framing is reset; a partial packet is lost with it. -/
def sspCsRise (s : State) : State :=
  if !s.ssp.active then s
  else if !s.ssp.reading && !s.ssp.complete && !s.ssp.rx.isEmpty then s.losePath .ssp
  else s.modSsp Ssp.reset

/-! ## Paths (R408) -/

/-- PATH_LOSS (R408). -/
def pathLoss (p : PathId) (s : State) : State := if s.boot.phase = .held then s else s.losePath p

/-- Channels whose path it is. -/
def State.pathChans (s : State) (p : PathId) : List Nat :=
  s.openChans.filter (fun c => match p with
    | .host0 => (s.chan c).path = 0 && c % 2 = 0
    | .host1 => (s.chan c).path = 0 && c % 2 = 1
    | .ssp => (s.chan c).path = 2)

/-- Send again, in sequence order, every reply sent before that `IP.RACK` does not cover. -/
def State.sendAgain (s : State) (c : Nat) : State :=
  let es := s.keel.ledger.filter (fun (x : Nat × LgEntry) => decide (x.2.chan.toNat = c) && decide (x.2.state = .complete) &&
    decide (x.2.seq.toNat < (s.chan c).replyNext) && decide ((s.chan c).racked ≤ x.2.seq.toNat))
  let inSeq := es.foldl (fun (a : Table LgEntry) x => tput x.2.seq.toNat x.2 a) []
  inSeq.foldl (fun s x => match x.2.reply with
    | some r => s.sendReply x.2 r true
    | none => s) s

/-- PATH_RESTART (R50, R408). -/
def pathRestart (p : PathId) (s : State) : State :=
  if !s.keel.lostPaths.contains p || (p = .ssp && !s.tim.refclk) then s
  else
    let s := s.modKeel (fun k => { k with lostPaths := k.lostPaths.filter (· ≠ p) })
    if s.up then (s.pathChans p).foldl (fun s c => (s.restart c).sendAgain c) s else s

end Sys2Proof.Machine
end

