-- ==== Sys2Proof/Machine/TvuVec.lean ====
section
/-!
DEFINITION. Lane arithmetic of the tile vector unit (R138, R139, R140 to R145): pure functions over lanes.
-/
set_option autoImplicit false
namespace Sys2Proof.Machine

def nanW : Word32 := BitVec.ofNat 32 fAF32.nan
def isNan (w : Word32) : Bool := af32 w = .nan

/-- The flags of an invalid with its cause (R88). -/
def invFl (cause : BitVec 2) : Fl := { inv := true, cause := cause }

/-- Negate an AF32 code's sign. -/
def negW (w : Word32) : Word32 := w ^^^ 0x80000000#32

/-- Addition of two operands of type `t` (R74, R75): a NaN operand is consumed. -/
def laneAdd (t : Bool) (r : Rnd) (a b : Word32) : Word32 × Fl :=
  if t then addAI32 a b
  else if isNan a || isNan b then (nanW, invFl 0)
  else addAF32 r a b

def laneSub (t : Bool) (r : Rnd) (a b : Word32) : Word32 × Fl :=
  if t then let p := narrowInt 32 (a.toInt - b.toInt); (BitVec.ofInt 32 p.1, p.2)
  else if isNan a || isNan b then (nanW, invFl 0)
  else addAF32 r a (negW b)

def laneMul (t : Bool) (r : Rnd) (a b : Word32) : Word32 × Fl :=
  if t then let p := narrowInt 32 (a.toInt * b.toInt); (BitVec.ofInt 32 p.1, p.2)
  else roundAF32 r (mulVal (af32 a) (af32 b))

/-- The sum of a VMAD: the product is a partial result, the addend an operand (R75, R136). -/
def laneMadSum (t : Bool) (r : Rnd) (prod d : Word32) : Word32 × Fl :=
  if t then addAI32 prod d
  else if isNan d then (nanW, invFl 0)
  else addAF32 r prod d

/-- Is `a` below `b`? Zeros of different sign are equal here. Neither is NaN. -/
def valLt (a b : Val) : Bool :=
  match a, b with
  | .inf s, .inf t => s && !t
  | .inf s, _ => s
  | _, .inf t => !t
  | .fin s m e, .fin t n g =>
    let q := min e g
    let x : Int := (if s then -1 else 1) * ((m * 2 ^ (e - q).toNat : Nat) : Int)
    let y : Int := (if t then -1 else 1) * ((n * 2 ^ (g - q).toNat : Nat) : Int)
    decide (x < y)
  | _, _ => false

/-- Maximum of two AF32 values, +0 above −0 (R138); neither is NaN. -/
def maxW (a b : Word32) : Word32 :=
  if valLt (af32 a) (af32 b) then b
  else if valLt (af32 b) (af32 a) then a
  else if a.getLsbD 31 then b else a

def minW (a b : Word32) : Word32 :=
  if valLt (af32 a) (af32 b) then a
  else if valLt (af32 b) (af32 a) then b
  else if a.getLsbD 31 then a else b

def laneMax (t : Bool) (a b : Word32) : Word32 × Fl :=
  if t then (if a.toInt < b.toInt then b else a, {})
  else if isNan a || isNan b then (nanW, invFl 0)
  else (maxW a b, {})

def laneMin (t : Bool) (a b : Word32) : Word32 × Fl :=
  if t then (if a.toInt < b.toInt then a else b, {})
  else if isNan a || isNan b then (nanW, invFl 0)
  else (minW a b, {})

/-- VCMP of one lane (R136, R138): `fn` 0 EQ, 1 NE, 2 LT, 3 LE, 4 GT, 5 GE. -/
def laneCmp (t : Bool) (fn : Nat) (a b : Word32) : Bool × Fl :=
  if !t && (isNan a || isNan b) then (decide (fn = 1), invFl 0)
  else
    let lt := if t then decide (a.toInt < b.toInt) else valLt (af32 a) (af32 b)
    let gt := if t then decide (b.toInt < a.toInt) else valLt (af32 b) (af32 a)
    let eq := !lt && !gt
    (if fn = 0 then eq else if fn = 1 then !eq else if fn = 2 then lt else if fn = 3 then lt || eq
      else if fn = 4 then gt else gt || eq, {})

/-- VCVT (R81, R136). -/
def laneCvt (fn : Nat) (r : Rnd) (a : Word32) : Word32 × Fl :=
  if fn = 0 then let p := toInt 32 r (af32 a); (BitVec.ofInt 32 p.1, p.2)
  else
    match valOfInt a.toInt with
    | .fin s m e => let p := fAF32.round r s m e; (BitVec.ofNat 32 p.1, p.2)
    | _ => (0, {})

/-- VSHR and VSHL (R74, R77, R78, R136). -/
def laneShr (r : Rnd) (n : Nat) (a : Word32) : Word32 × Fl :=
  let p := shrInt r a.toInt n
  (BitVec.ofInt 32 p.1, p.2)
def laneShl (n : Nat) (a : Word32) : Word32 × Fl :=
  let p := narrowInt 32 (a.toInt * 2 ^ n)
  (BitVec.ofInt 32 p.1, p.2)

/-! ## Approximations (R144)

Each exact result is enclosed by a number `y × 2^q` of more than a hundred correct bits; which code within the bound of R144 the
algorithm gives is the package's own (log entry 4). -/

/-- A dyadic number. -/
abbrev Dy := Int × Int

def Dy.at_ (a : Dy) (q : Int) : Int := a.1 * 2 ^ (a.2 - q).toNat

/-- Do two dyadic numbers lie within a distance? -/
def Dy.within (a b d : Dy) : Bool :=
  let q := min a.2 (min b.2 d.2)
  decide ((Dy.at_ a q - Dy.at_ b q).natAbs ≤ (Dy.at_ d q).toNat)

/-- The exponent of an exact result's magnitude. -/
def Dy.top (y : Dy) : Int := (flog2 y.1.natAbs : Int) + y.2

/-- The distance that R144 allows: `k` ulp of the exact result, or one smallest subnormal below the smallest normal value. -/
def ulps (k : Nat) (y : Dy) : Dy := if Dy.top y < -255 then (1, -277) else ((k : Int), Dy.top y - 22)

/-- A code as a dyadic number; ±∞ stands for the first value past the largest finite one (R79). -/
def codeDy (w : Word32) : Option Dy :=
  match af32 w with
  | .nan => none
  | .inf neg => some (if neg then -1 else 1, 255)
  | .fin neg m e => some (if neg then -(m : Int) else m, e)

/-- Is this code a result that R144 allows for the exact result `y`? An infinite one needs only that the bound reaches it. -/
def approxOk (k : Nat) (y : Dy) (w : Word32) : Bool :=
  match codeDy w, af32 w with
  | some r, .inf neg => (neg == decide (y.1 < 0)) && (255 ≤ Dy.top y || Dy.within r y (ulps k y))
  | some r, .fin neg _ _ => (neg == decide (y.1 < 0)) && Dy.within r y (ulps k y)
  | _, _ => false

/-- The result of an approximation: the algorithm's code, which R144 bounds, with the flags of R79, R80 and R144. -/
def approx (k : Nat) (y : Dy) (w : Word32) : Word32 × Fl :=
  let r := if approxOk k y w then w else BitVec.ofNat 32 (fAF32.round .halfUp (y.1 < 0) y.1.natAbs y.2).1
  (r, { inx := true
        ovf := match af32 r with
          | .inf _ => true
          | _ => false
        unf := decide (Dy.top y < -255) })

/-- ln 2 in units of 2^−160. -/
def ln2Fix : Int := 0xb17217f7d1cf79abc9e3b39803f2f6af40f34326

/-- e^t for 0 ≤ t < 1, both in units of 2^−160, by forty terms of its series. -/
def expSeries (t : Int) : Int :=
  ((List.range 40).foldl (fun (a : Int × Int) (i : Nat) =>
    let term := a.2 * t / 2 ^ 160 / ((i : Int) + 1)
    (a.1 + term, term)) (2 ^ 160, 2 ^ 160)).1

/-- e^x of a finite value; one beyond ±2^9 stands for a larger one of its sign, and one below 2^−160 for 0. -/
def expDy (neg : Bool) (m : Nat) (e : Int) : Dy :=
  let mag : Int := if 9 ≤ (flog2 m : Int) + e then 2 ^ 169 else if -160 ≤ e then (m : Int) * 2 ^ (e + 160).toNat else (m : Int) / 2 ^ (-160 - e).toNat
  let x := if neg then -mag else mag
  (expSeries (x % ln2Fix), x / ln2Fix - 160)

/-- 1 / x of a finite value that is not zero. -/
def rcpDy (neg : Bool) (m : Nat) (e : Int) : Dy :=
  let y : Int := 2 ^ (160 + flog2 m) / (m : Int)
  (if neg then -y else y, -(e + 160 + flog2 m))

/-- The integer square root of a number below 2^(2b). -/
def isqrt (b n : Nat) : Nat :=
  (List.range b).foldl (fun a i => let c := a + 2 ^ (b - 1 - i); if c * c ≤ n then c else a) 0

/-- 1 / √x of a finite positive value. -/
def rsqDy (m : Nat) (e : Int) : Dy :=
  let m' := if e % 2 = 0 then m else 2 * m
  let e' := if e % 2 = 0 then e else e - 1
  ((isqrt 162 (2 ^ 320 / m') : Nat), -160 - e' / 2)

/-- tanh x of a finite value whose magnitude is 2^−11 or more. -/
def tanhDy (neg : Bool) (m : Nat) (e : Int) : Dy :=
  let u := expDy false (2 * m) e
  let a : Int := if 400 ≤ u.2 + 160 then 2 ^ 560 else u.1 * 2 ^ (u.2 + 160).toNat
  let y : Int := (a - 2 ^ 160) * 2 ^ 160 / (a + 2 ^ 160)
  (if neg then -y else y, -160)

/-- The mantissa and exponent of a finite value as a power of two, if it is one. -/
def pow2Exp : Val → Option Int
  | .fin _ m e => if m ≠ 0 && m = 2 ^ flog2 m then some (e + flog2 m) else none
  | _ => none

def oneW : Word32 := 0x40000000#32
def infW (neg : Bool) : Word32 := BitVec.ofNat 32 (fAF32.infCode neg)
def zeroW (neg : Bool) : Word32 := if neg then 0x80000000#32 else 0

/-- VEXP (R144, R145). -/
def laneExp (x : Word32) : Word32 × Fl :=
  match af32 x with
  | .nan => (nanW, invFl 0)
  | .inf neg => (if neg then 0 else infW false, {})
  | .fin neg m e => if m = 0 then (oneW, {}) else approx 2 (expDy neg m e) (Config.vexp x)

/-- VRCP (R144, R145): exact for ±2^n. -/
def laneRcp (x : Word32) : Word32 × Fl :=
  match af32 x with
  | .nan => (nanW, invFl 0)
  | .inf neg => (zeroW neg, {})
  | .fin neg m e =>
    if m = 0 then (infW neg, { ovf := true, inx := true })
    else match pow2Exp (.fin neg m e) with
      | some k => let p := fAF32.round .halfUp neg 1 (-k); (BitVec.ofNat 32 p.1, p.2)
      | none => approx 1 (rcpDy neg m e) (Config.vrcp x)

/-- VRSQ (R144, R145): exact for 2^(2n). R88 names no cause that fits the invalid of a negative operand, which is recorded with the
code of a NaN operand (log entry 108). -/
def laneRsq (x : Word32) : Word32 × Fl :=
  match af32 x with
  | .nan => (nanW, invFl 0)
  | .inf neg => if neg then (nanW, invFl 0) else (0, {})
  | .fin neg m e =>
    if m = 0 then (infW neg, { ovf := true, inx := true })
    else if neg then (nanW, invFl 0)
    else match pow2Exp (.fin neg m e) with
      | some k =>
        if k % 2 = 0 then let p := fAF32.round .halfUp false 1 (-(k / 2)); (BitVec.ofNat 32 p.1, p.2)
        else approx 2 (rsqDy m e) (Config.vrsq x)
      | none => approx 2 (rsqDy m e) (Config.vrsq x)

/-- VTANH (R144, R145): x itself below 2^−11. -/
def laneTanh (x : Word32) : Word32 × Fl :=
  match af32 x with
  | .nan => (nanW, invFl 0)
  | .inf neg => (if neg then negW oneW else oneW, {})
  | .fin neg m e =>
    if m = 0 then (zeroW neg, {})
    else if (flog2 m : Int) + e < -11 then
      (x, { inx := true, unf := !dyadicGt m e 1 (-255) })
    else approx 3 (tanhDy neg m e) (Config.vtanh x)

/-! Reductions (R139) -/

/-- A node of the tree: value, lowest lane, and whether it is an operand (a lane of VA). -/
structure Node where
  v : Word32
  lane : Nat
  operand : Bool
deriving DecidableEq, Repr

/-- Combine two nodes: the event it raises, if any (R139). -/
def combine (isMax t : Bool) (r : Rnd) (a b : Node) : Node × Fl :=
  if !t && (isNan a.v || isNan b.v) then
    let consumed := (a.operand && isNan a.v) || (b.operand && isNan b.v)
    ({ v := nanW, lane := a.lane, operand := false }, if consumed then invFl 0 else {})
  else
    let p := if isMax then laneMax t a.v b.v else laneAdd t r a.v b.v
    ({ v := p.1, lane := a.lane, operand := false }, p.2)

/-- One level of the tree. -/
def level (isMax t : Bool) (r : Rnd) : List Node → List (Node × Fl)
  | a :: b :: rest => combine isMax t r a b :: level isMax t r rest
  | [a] => [(a, {})]
  | [] => []

/-- Six levels: the value and the events with their lane, by level and lane. -/
def tree (isMax t : Bool) (r : Rnd) : Nat → List Node → Word32 × List (Fl × Nat)
  | 0, ns => ((ns.head?.map (·.v)).getD 0, [])
  | k + 1, ns =>
    let l := level isMax t r ns
    let evs := (l.filter (fun p => p.2.any)).map (fun p => (p.2, p.1.lane))
    let q := tree isMax t r k (l.map (·.1))
    (q.1, evs ++ q.2)

/-! Loads and stores (R140 to R143) -/

/-- Widen a floating value exactly; a NaN becomes canonical and raises nothing (R140). -/
def widen (o : Opnd) : Word32 :=
  match o with
  | .i v => BitVec.ofInt 32 v
  | .f v => BitVec.ofNat 32 (fAF32.convert .halfUp v).1

/-- The value that is narrowed: an AI32 or AF32 lane (R489). -/
def laneVal (t : Bool) (x : Word32) : Val := if t then valOfInt x.toInt else af32 x

/-- The four-bit and wider element formats' code width. -/
def narrowTo (fmt : Nat) (t : Bool) (r : Rnd) (sh : Int) (x : Word32) : Nat × Fl :=
  if isInt fmt then
    let w := fmtBits fmt
    if t then
      let (v, f1) := if 0 ≤ sh then shrInt r x.toInt sh.toNat else (x.toInt * 2 ^ (-sh).toNat, {})
      let (u, f2) := narrowInt w v
      ((u % 2 ^ w).toNat, orFl f1 f2)
    else
      let (u, f) := toInt w r (scaleVal (af32 x) (-sh))
      ((u % 2 ^ w).toNat, f)
  else (fmtOf fmt).convert r (scaleVal (laneVal t x) (-sh))

/-- E_top of R142. -/
def eTop (fmt : Nat) : Int :=
  if fmt = 0 then 3 else if fmt = 1 || fmt = 3 then 6 else if fmt = 2 then 14 else if fmt = 4 then 62
  else if fmt = 7 then 254 else if fmt = 5 then 2 else if fmt = 6 then 6 else 30

/-- Leading-one position of a lane for R142: none for a zero, an infinity or a NaN, or an AI32 lane of 0 or −1. -/
def leading (t : Bool) (x : Word32) : Option Int :=
  if t then
    let v := x.toInt
    let u := if v < 0 then (-v - 1).toNat else v.toNat
    if u = 0 then none else some (flog2 u)
  else
    match af32 x with
    | .fin _ m e => if m = 0 then none else some ((flog2 m : Int) + e)
    | _ => none

/-- A lane that takes part in the choice of R142. -/
def finiteNonzero (t : Bool) (x : Word32) : Bool :=
  if t then x ≠ 0 else match af32 x with
    | .fin _ m _ => m ≠ 0
    | _ => false

/-- Does a lane overflow at a shift? -/
def overflows (fmt : Nat) (t : Bool) (r : Rnd) (sh : Int) (x : Word32) : Bool :=
  finiteNonzero t x && (narrowTo fmt t r sh x).2.ovf

/-- The automatic shift of a block (R142). -/
def autoShift (fmt : Nat) (t : Bool) (r : Rnd) (xs : List Word32) : Int :=
  if !xs.any (finiteNonzero t) then 0
  else
    let e := xs.foldl (fun (a : Option Int) x => match a, leading t x with
      | none, b => b
      | some u, some v => some (max u v)
      | some u, none => some u) none
    match e with
    | none => (Config.minusOneShift fmt).toInt
    | some em =>
      let sh0 := em - eTop fmt
      let sh := if xs.any (overflows fmt t r sh0) then sh0 + 1 else sh0
      max (-128) (min 127 sh)

/-- The shift of each group of 16 lanes (R141 to R143). -/
def groupShifts (fmt sc : Nat) (t : Bool) (r : Rnd) (vsh : Word32) (xs : List Word32) : List Int :=
  (List.range 4).map (fun g =>
    if sc = 0 then 0
    else if sc = 2 then sext 8 (if fmt = 3 then bits vsh (8 * g + 7) (8 * g) else bits vsh 7 0)
    else if fmt = 3 then autoShift fmt t r ((xs.drop (16 * g)).take 16)
    else autoShift fmt t r xs)

/-- VSH from the group shifts (R143). -/
def vshOf (shs : List Int) : Word32 :=
  BitVec.ofNat 32 ((shs.zipIdx).foldl (fun a p => a + (p.1 % 256).toNat * 256 ^ p.2) 0)

/-- Pack codes of a format into bytes (R66); AB8 blocks carry their scale. -/
def packCodes (fmt : Nat) (shs : List Int) (codes : List Nat) : List Byte :=
  if is4 fmt then (List.range (codes.length / 2)).map (fun i =>
    BitVec.ofNat 8 (codes.getD (2 * i) 0 + 16 * codes.getD (2 * i + 1) 0))
  else if fmt = 3 then (List.range 4).flatMap (fun g =>
    ((codes.drop (16 * g)).take 16).map (BitVec.ofNat 8) ++ [BitVec.ofInt 8 (shs.getD g 0)])
  else codes.flatMap (bytesOf (fmtBits fmt / 8))

end Sys2Proof.Machine
end

