-- ==== Sys2Proof/Machine/Tvu.lean ====
section
/-!
DEFINITION. The tile vector unit (05): its instruction words, registers, addresses, and what each row of the
TVU does at the word it issues.
-/
set_option autoImplicit false
namespace Sys2Proof.Machine

/-! ## Fields of an instruction word (R135) -/

def tiOpc (w : Word32) : Nat := bits w 31 26
def tiVD (w : Word32) : Nat := bits w 25 21
def tiVA (w : Word32) : Nat := bits w 20 16
def tiVB (w : Word32) : Nat := bits w 15 11
def tiT (w : Word32) : Bool := bit w 10
def tiRnd (w : Word32) : Rnd := if bit w 9 then .trunc else .halfUp
def tiMsk (w : Word32) : Bool := bit w 8
def tiFN (w : Word32) : Nat := bits w 7 0
def tiAR (w : Word32) : Nat := bits w 20 18
def tiAM (w : Word32) : Nat := bits w 17 16
def tiFmt (w : Word32) : Nat := bits w 15 12
def tiRndM (w : Word32) : Rnd := if bit w 11 then .trunc else .halfUp
def tiSC (w : Word32) : Nat := bits w 10 9
def tiImm9 (w : Word32) : Int := sext 9 (bits w 8 0)
def tiSR (w : Word32) : Nat := bits w 25 21
def tiSFN (w : Word32) : Nat := bits w 20 16
def tiImm16 (w : Word32) : Nat := bits w 15 0
def tiCR (w : Word32) : Nat := bits w 25 24
def tiCond (w : Word32) : Nat := bits w 23 21
def tiTarget (w : Word32) : Nat := bits w 11 0

/-- The opcodes of R136. -/
def tvuOpcOk (o : Nat) : Bool :=
  o ≤ 0xB || (0x10 ≤ o && o ≤ 0x13) || (0x18 ≤ o && o ≤ 0x1A) || (0x20 ≤ o && o ≤ 0x2A) ||
  (0x30 ≤ o && o ≤ 0x33) || (0x38 ≤ o && o ≤ 0x3D)

/-- Memory opcodes: an immediate only under AM 2 and 3 (R490). -/
def immOk (w : Word32) : Bool := 2 ≤ tiAM w || bits w 8 0 = 0

/-- Format-V opcodes from 0x20 (R136, R490). -/
def vecOk (o : Nat) (w : Word32) : Bool :=
  let usesB := o ≤ 0x27 || o = 0x3B
  (usesB || tiVB w = 0) && (o ≠ 0x26 || tiVD w = 0) &&
  (if o = 0x26 then tiFN w ≤ 5
   else if o = 0x28 then tiFN w ≤ 1
   else if o = 0x29 || o = 0x2A then tiFN w ≤ 31 && tiT w
   else if o = 0x3B || o = 0x3C then tiFN w ≤ 63
   else tiFN w = 0) &&
  (!(0x30 ≤ o && o ≤ 0x33) || (!tiT w && !bit w 9)) && (o ≠ 0x39 || !tiT w)

/-- Every field check of R130, R136, R137 and R490 that the word alone decides. -/
def tvuLegal (w : Word32) : Bool :=
  let o := tiOpc w
  if o = 0 || o = 1 || o = 5 || o = 0xB then bits w 25 0 = 0
  else if o = 2 then tiCond w ≤ 4 && bits w 20 12 = 0
  else if o = 3 then tiCond w = 0 && bits w 20 12 = 0
  else if o = 4 then tiSFN w = 0 && (tiImm16 w = 0 || tiSR w = 0)
  else if o = 6 then tiSR w = 0 && tiSFN w ≤ 1 && (if tiSFN w = 1 then bits w 15 12 = 0 else tiImm16 w = 0)
  else if o = 7 then tiSFN w = 0 && tiImm16 w = 0
  else if o = 8 then tiSR w = 0 && tiSFN w = 0 && 1 ≤ tiImm16 w && tiImm16 w ≤ 1024
  else if o = 9 then tiSFN w = 0 && tiImm16 w = 0 && tiSR w < 23
  else if o = 0xA then tiSFN w = 0 && bits w 15 4 = 0 && tiSR w < 23
  else if o = 0x10 || o = 0x11 || o = 0x12 then tiSFN w = 0 && tiSR w < 23
  else if o = 0x13 then tiImm16 w = 0 && tiSR w < 23
  else if o = 0x18 then tiFmt w ≤ 8 && bits w 11 9 = 0 && immOk w
  else if o = 0x19 then tiFmt w ≤ 8 && tiSC w ≠ 3 && immOk w
  else if o = 0x1A then bits w 25 21 = 0 && bits w 15 9 = 0 && immOk w
  else tvuOpcOk o && vecOk o w

/-! ## Registers (R130, R131, R489) -/

/-- A scalar register as the program of context `c` reads it. -/
def Tile.sreg (t : Tile) (c i : Nat) : Word32 :=
  let x := t.ctx c
  if i ≤ 20 then tget 0 t.sregs i
  else if i = 21 then t.vm.setWidth 32
  else if i = 22 then (t.vm >>> 32).setWidth 32
  else if i = 23 then BitVec.ofNat 32 t.rrb
  else if i = 24 then BitVec.ofNat 32 x.outcnt
  else if i = 25 then BitVec.ofNat 32 x.relcnt
  else if i = 26 then x.plarr
  else if i = 27 then x.plseen
  else 0

/-- Write S0 to S22. -/
def Tile.setSreg (t : Tile) (i : Nat) (v : Word32) : Tile :=
  if i ≤ 20 then { t with sregs := tput i v t.sregs }
  else if i = 21 then { t with vm := (t.vm >>> 32).setWidth 32 ++ v }
  else if i = 22 then { t with vm := v ++ t.vm.setWidth 32 }
  else t

/-- The physical register that Vn reaches (R131). -/
def Tile.vphys (t : Tile) (n : Nat) : Nat := if n < 16 then n else 16 + (n - 16 + t.rrb) % 16

def zeroLanes : List Word32 := List.replicate 64 0

def Tile.vreg (t : Tile) (n : Nat) : List Word32 := tget zeroLanes t.vregs (t.vphys n)
/-- Is the type of Vn AI32? -/
def Tile.vty (t : Tile) (n : Nat) : Bool := tget false t.vtype (t.vphys n)
def Tile.setVreg (t : Tile) (n : Nat) (ty : Bool) (v : List Word32) : Tile :=
  { t with vregs := tput (t.vphys n) v t.vregs, vtype := tput (t.vphys n) ty t.vtype }

def rotated (rrb : Nat) : Nat := (rrb + 15) % 16

/-! ## Issue and advance -/

/-- A boundary at which events are taken (R152). -/
def Prog.boundary (g : Prog) : Bool := g.slots = 0 && g.rep.isNone

/-- Is a paceline event pending (R154)? -/
def Prog.pacePending (g : Prog) (x : CtxSt) : Bool := g.evOn && !g.inHandler && x.plarr ≠ x.plseen

def Prog.eventPending (g : Prog) (x : CtxSt) : Bool := x.faultNote || x.cancelNote || g.pacePending x

/-- May context `c` fetch or branch to word `a` (R127, R163)? -/
def Tile.pcOk (t : Tile) (c a : Nat) : Bool :=
  let own := match (t.ctx c).task with
    | some k => decide (k.tvuBase ≤ a) && decide (a < k.tvuBase + k.tvuWords)
    | none => false
  let half := if t.split then (if c = 0 then decide (a < 2048) else decide (2048 ≤ a && a < 4096)) else decide (a < 4096)
  own && half

/-- Go on after an instruction: to the next iteration, delay slot, branch destination or word (R146, R147). -/
def Tile.advance (t : Tile) : Tile :=
  match t.prog with
  | none => t
  | some g =>
    match g.rep with
    | some (n, k) =>
      if n ≤ 1 then { t with prog := some { g with rep := none, pc := g.pc + 1 } }
      else { t with prog := some { g with rep := some (n - 1, k + 1) } }
    | none =>
      if g.slots = 1 then
        { t with
          prog := some { g with slots := 0, dest := none, rotate := false, pc := g.dest.getD (g.pc + 1) }
          rrb := if g.rotate then rotated t.rrb else t.rrb }
      else { t with prog := some { g with slots := g.slots - 1, pc := g.pc + 1 } }

/-- Opcodes that a delay slot may not hold (R137). -/
def noSlot (o : Nat) : Bool := o = 2 || o = 3 || o = 4 || o = 1 || o = 5 || o = 7

/-- Opcodes that read a vector register. -/
def readsVec (o : Nat) : Bool := o = 0x19 || (0x20 ≤ o && o ≤ 0x3C)

/-- What a row does with the tile: the tile after it, or a TVU fault's subcode. -/
abbrev TvuOut := Except Nat Tile

/-- Issue of the word at the pc by the row of opcode `opc` (R127, R130, R137, R147, R152): `f` gets the context, the
word and the tile, and gives the tile after the instruction, the next address included. -/
def tvuIssue (p : Nat) (hw : HwEvent) (opc : Nat) (f : Nat → Word32 → Tile → TvuOut) (s : State) : State :=
  let t := s.tile p
  match t.prog with
  | none => s
  | some g =>
    let c := g.ctx
    let w := tget 0 t.imem g.pc
    let o := tiOpc w
    if g.waitv.isSome || (g.boundary && g.eventPending (t.ctx c)) then s
    else if !t.pcOk c g.pc then s.tvuFault p c g.pc 1
    else if hw = .imemParity then s.tvuFault p c g.pc 5
    else if !tvuOpcOk o then s.tvuFault p c g.pc 1
    else if o ≠ opc then s
    else if !tvuLegal w || (g.slots ≠ 0 && noSlot o) then
      s.tvuFault p c g.pc 1
    else
      let run (s : State) : State := match f c w (s.tile p) with
        | .ok t' => (s.setTile p t').bump
        | .error sub => s.tvuFault p c g.pc sub
      match hw with
      | .regParity => if readsVec o then s.tvuFault p c g.pc 6 else s
      | .imemParity => s
      | h => s.underHw p c h false 0 g.pc
          (fun h => match h with
            | .opbufUe _ _ => decide (0x18 ≤ o && o ≤ 0x1A)
            | .accUe _ => decide (o = 0x18 || o = 0x19)
            | _ => false) run

/-- The row goes on to what follows. -/
def thenNext (r : TvuOut) : TvuOut :=
  match r with
  | .ok t => .ok t.advance
  | .error e => .error e

/-! ## Programs and events -/

/-- The waiting program that starts next (R129). -/
def Tile.nextStart (t : Tile) : Option (Nat × Nat) :=
  let both := t.starts.any (fun x => x.1 = 0) && t.starts.any (fun x => x.1 = 1)
  match (if both then t.lastCtx else none) with
  | some l => t.starts.find? (fun x => x.1 ≠ l)
  | none => t.starts.head?

/-- TVU_PROGRAM_START (R128, R129, R489). -/
def tvuProgramStart (p : Nat) (s : State) : State :=
  let t := s.tile p
  match t.prog, t.nextStart with
  | none, some (c, a) =>
    let w := match (t.ctx c).task with
      | some k => k.world
      | none => false
    let same := t.lastCtx = some c && t.lastWorld = some w
    s.setTile p { t with
      starts := t.starts.erase (c, a)
      prog := some { ctx := c, pc := a }
      sregs := [], vm := BitVec.allOnes 64, rrb := 0
      vregs := if same then t.vregs else []
      vtype := if same then t.vtype else []
      lastCtx := some c, lastWorld := some w }
  | _, _ => s

def Tile.endProg (t : Tile) : Tile := { t with prog := none }

/-- CANCELLATION_NOTICE (R152, R153): taken at a boundary, after a fault notice. -/
def cancellationNotice (p : Nat) (s : State) : State :=
  let t := s.tile p
  match t.prog with
  | some g =>
    let x := t.ctx g.ctx
    if g.boundary && x.cancelNote && !x.faultNote then
      s.setTile p (t.endProg.modCtx g.ctx (fun x => { x with cancelNote := false }))
    else s
  | none => s

/-- FAULT_NOTICE (R152, R153). -/
def faultNotice (p : Nat) (s : State) : State :=
  let t := s.tile p
  match t.prog with
  | some g =>
    if g.boundary && (t.ctx g.ctx).faultNote then
      s.setTile p (t.endProg.modCtx g.ctx (fun x => { x with faultNote := false, cancelNote := false }))
    else s
  | none => s

/-- PACELINE_EVENT (R152, R154): a waiting WAITV issues again after RETE (R149). -/
def pacelineEvent (p : Nat) (s : State) : State :=
  let t := s.tile p
  match t.prog with
  | some g =>
    let x := t.ctx g.ctx
    if g.boundary && g.pacePending x && !x.faultNote && !x.cancelNote then
      let t := { t with prog := some { g with saved := g.pc, pc := g.handler, inHandler := true, waitv := none, waitSaved := g.waitv } }
      s.setTile p (t.modCtx g.ctx (fun x => { x with plseen := x.plarr }))
    else s
  | none => s

/-! ## Control and scalar rows -/

/-- NOP. -/
def tvuNop (p : Nat) (hw : HwEvent) (s : State) : State := tvuIssue p hw 0x00 (fun _ _ t => .ok t.advance) s

/-- END (R136). -/
def tvuEnd (p : Nat) (hw : HwEvent) (s : State) : State := tvuIssue p hw 0x01 (fun _ _ t => .ok t.endProg) s

/-- Does a branch condition hold (R135)? -/
def Tile.condHolds (t : Tile) (c : Nat) (w : Word32) : Bool :=
  let v := t.sreg c (16 + tiCR w)
  match tiCond w with
  | 0 => true
  | 1 => v ≠ 0
  | 2 => v = 0
  | 3 => t.vm ≠ 0
  | _ => t.vm = 0

/-- Start the two delay slots of a branch (R146). -/
def Tile.branch (t : Tile) (dest : Option Nat) (rotate : Bool) : Tile :=
  match t.prog with
  | some g => { t with prog := some { g with slots := 2, dest := dest, rotate := rotate, pc := g.pc + 1 } }
  | none => t

/-- BR (R136, R146). -/
def tvuBr (p : Nat) (hw : HwEvent) (s : State) : State :=
  tvuIssue p hw 0x02 (fun c w t =>
    if t.condHolds c w then
      if t.pcOk c (tiTarget w) then .ok (t.branch (some (tiTarget w)) false) else .error 1
    else .ok (t.branch none false)) s

/-- BLOOP (R136, R146, R148). -/
def tvuBloop (p : Nat) (hw : HwEvent) (s : State) : State :=
  tvuIssue p hw 0x03 (fun c w t =>
    let v := t.sreg c (16 + tiCR w) - 1
    if v ≠ 0 && !t.pcOk c (tiTarget w) then .error 1
    else .ok ((t.setSreg (16 + tiCR w) v).branch (if v ≠ 0 then some (tiTarget w) else none) true)) s

/-- Does the REP at the pc repeat something that may not be repeated (R137)? The fault is the REP's (log entry 12). -/
def Tile.repBad (t : Tile) (c : Nat) : Bool :=
  match t.prog with
  | some g =>
    let o := tiOpc (tget 0 t.imem (g.pc + 1))
    t.pcOk c (g.pc + 1) && !(0x18 ≤ o && o ≤ 0x3D)
  | none => false

/-- REP (R137, R147). -/
def tvuRep (p : Nat) (hw : HwEvent) (s : State) : State :=
  tvuIssue p hw 0x04 (fun c w t =>
    let n := if tiImm16 w = 0 then (t.sreg c (tiSR w)).toNat else tiImm16 w
    if n = 0 || 65535 < n || t.repBad c then .error 1
    else .ok (match t.prog with
      | some g => { t with prog := some { g with rep := some (n, 0), pc := g.pc + 1 } }
      | none => t)) s

/-- RETE (R137, R154). -/
def tvuRete (p : Nat) (hw : HwEvent) (s : State) : State :=
  tvuIssue p hw 0x05 (fun _ _ t =>
    match t.prog with
    | some g => if g.inHandler then .ok { t with prog := some { g with inHandler := false, waitSaved := none, pc := g.saved } } else .error 1
    | none => .ok t) s

/-- EVEN (R136, R154). -/
def tvuEven (p : Nat) (hw : HwEvent) (s : State) : State :=
  tvuIssue p hw 0x06 (fun _ w t => thenNext (.ok (match t.prog with
    | some g =>
      if tiSFN w = 1 then { t with prog := some { g with evOn := true, handler := bits w 11 0 } }
      else { t with prog := some { g with evOn := false } }
    | none => t))) s

/-- WAITV (R149, R151). -/
def tvuWaitv (p : Nat) (hw : HwEvent) (s : State) : State :=
  tvuIssue p hw 0x07 (fun c w t =>
    let n := (t.sreg c (tiSR w)).toNat
    let x := t.ctx c
    if n ≤ x.outcnt then .ok t.advance
    else if x.deadlocked n then .error 4
    else .ok (match t.prog with
      | some g => { t with prog := some { g with waitv := some n } }
      | none => t)) s

/-- WAITV_COMPLETE (R149): the awaited outputs are written. -/
def waitvComplete (p : Nat) (s : State) : State :=
  let t := s.tile p
  match t.prog with
  | some g =>
    match g.waitv with
    | some n =>
      if n ≤ (t.ctx g.ctx).outcnt && !g.eventPending (t.ctx g.ctx) then
        s.setTile p { t with prog := some { g with waitv := none, pc := g.pc + 1 } }
      else s
    | none => s
  | none => s

/-- RREL (R150, R151). -/
def tvuRrel (p : Nat) (hw : HwEvent) (s : State) : State :=
  tvuIssue p hw 0x08 (fun c w t =>
    let x := t.ctx c
    let n := tiImm16 w
    if x.outcnt < x.relcnt + n then .error 3
    else .ok (t.modCtx c (fun x => { x with relcnt := x.relcnt + n })).advance) s

/-- FRD (R158). -/
def tvuFrd (p : Nat) (hw : HwEvent) (s : State) : State :=
  tvuIssue p hw 0x09 (fun c w t =>
    let e := tvuEngine c
    let v := (t.flag e).toWord.setWidth 32
    .ok (((t.setFlag e (t.flag e).read).setSreg (tiSR w) v).advance)) s

/-- FCLR (R158): generation from SR[31:24], status into SR. -/
def tvuFclr (p : Nat) (hw : HwEvent) (s : State) : State :=
  tvuIssue p hw 0x0A (fun c w t =>
    let e := tvuEngine c
    let gen := BitVec.ofNat 8 (bits (t.sreg c (tiSR w)) 31 24)
    let r := (t.flag e).clear (BitVec.ofNat 4 (bits w 3 0)) gen
    .ok (((t.setFlag e r.2).setSreg (tiSR w) (if r.1 then 0 else 0x41)).advance)) s

/-- ROT (R131). -/
def tvuRot (p : Nat) (hw : HwEvent) (s : State) : State :=
  tvuIssue p hw 0x0B (fun _ _ t => thenNext (.ok { t with rrb := rotated t.rrb })) s

def sext16 (v : Nat) : Word32 := BitVec.ofInt 32 (sext 16 v)

/-- SETL. -/
def tvuSetl (p : Nat) (hw : HwEvent) (s : State) : State :=
  tvuIssue p hw 0x10 (fun _ w t => thenNext (.ok (t.setSreg (tiSR w) (sext16 (tiImm16 w))))) s

/-- SETH. -/
def tvuSeth (p : Nat) (hw : HwEvent) (s : State) : State :=
  tvuIssue p hw 0x11 (fun c w t =>
    thenNext (.ok (t.setSreg (tiSR w) (BitVec.ofNat 16 (tiImm16 w) ++ (t.sreg c (tiSR w)).setWidth 16)))) s

/-- SADDI. -/
def tvuSaddi (p : Nat) (hw : HwEvent) (s : State) : State :=
  tvuIssue p hw 0x12 (fun c w t =>
    thenNext (.ok (t.setSreg (tiSR w) (t.sreg c (tiSR w) + sext16 (tiImm16 w))))) s

/-- SMOV. -/
def tvuSmov (p : Nat) (hw : HwEvent) (s : State) : State :=
  tvuIssue p hw 0x13 (fun c w t => thenNext (.ok (t.setSreg (tiSR w) (t.sreg c (tiSFN w))))) s

/-! ## Memory rows (R132 to R134, R140 to R143) -/

def arAddr (a : Word32) : Nat := bits a 19 0
def arLstr (a : Word32) : Nat := bits a 29 20
def arSpace (a : Word32) : Nat := bits a 31 30

/-- Footprint U of a format in a space (R133). -/
def footprint (fmt space : Nat) : Nat :=
  if space = 2 then 64
  else if is4 fmt then 32 else if fmt = 3 then 68 else if fmt = 4 then 128
  else if fmt = 7 || fmt = 8 then 256 else 64

/-- The address used, and the address register after the access (R133). -/
def Tile.memAddr (t : Tile) (c : Nat) (w : Word32) (fmt : Nat) : Int × Word32 :=
  let a := t.sreg c (tiAR w)
  let d : Int := tiImm9 w * (footprint fmt (arSpace a) : Int)
  let upd (v : Int) : Word32 := BitVec.ofNat 32 (a.toNat - arAddr a + (v % 2 ^ 20).toNat)
  match tiAM w with
  | 0 => (arAddr a, a)
  | 1 => (arAddr a, upd ((arAddr a : Int) + (t.sreg c (8 + tiAR w)).toInt))
  | 2 => ((arAddr a : Int) + d, a)
  | _ => (arAddr a, upd ((arAddr a : Int) + d))

/-- May context `c` touch bytes `[a, a + n)` of a bank (R134, R167)? -/
def Tile.bankOk (t : Tile) (c bank : Nat) (a : Int) (n : Nat) : Bool :=
  (!t.split || bank = c) && decide (0 ≤ a) &&
  (match (t.ctx c).task with
    | some k => k.inBank bank (some (a, a + (n : Int) - 1))
    | none => false)

/-- May context `c` touch the entries of lanes 0 to 63 (R132, R134, R167)? -/
def Tile.accOk (t : Tile) (c : Nat) (a : Int) (lstr : Nat) : Bool :=
  decide (0 ≤ a) &&
  (match (t.ctx c).task with
    | some k => k.inAcc (some (a, a + (63 * lstr : Nat)))
    | none => false)

/-- The four scales of an AB8 vector, as VSH takes them (R140). -/
def ab8Scales (rd : Nat → Byte) (a : Nat) : Word32 :=
  BitVec.ofNat 32 (natOfBytes ((List.range 4).map (fun g => rd (a + 17 * g + 16))))

/-- VLD (R140, R489). -/
def tvuVld (p : Nat) (hw : HwEvent) (s : State) : State :=
  tvuIssue p hw 0x18 (fun c w t =>
    let fmt := tiFmt w
    let ar := t.sreg c (tiAR w)
    let (a, ar') := t.memAddr c w fmt
    let ty := isInt fmt
    if arSpace ar = 3 then .error 2
    else if arSpace ar = 2 then
      if (fmt = 7 || fmt = 8) && t.accOk c a (arLstr ar) then
        let v := (List.range 64).map (fun j =>
          let x := t.acc_rd (a.toNat + j * arLstr ar)
          if ty then x else widen (.f (af32 x)))
        .ok (((t.setVreg (tiVD w) ty v).setSreg (tiAR w) ar').advance)
      else .error 2
    else if t.bankOk c (arSpace ar) a (footprint fmt 0) then
      let rd := t.rd (arSpace ar)
      let v := (List.range 64).map (fun j => widen (rdElem rd fmt a.toNat j))
      let t1 := t.setVreg (tiVD w) ty v
      let t2 := if fmt = 3 then t1.setSreg 20 (ab8Scales rd a.toNat) else t1
      .ok ((t2.setSreg (tiAR w) ar').advance)
    else .error 2) s

/-- Iteration number of an instruction under REP, or 0 (R157). -/
def Tile.iter (t : Tile) : Nat :=
  match t.prog with
  | some g => (match g.rep with
    | some (_, k) => k
    | none => 0)
  | none => 0

/-- Where a lane's event happened (R88, R157). -/
def Tile.laneAt (t : Tile) (c : Nat) (step : Word32) (lane : Nat) : EvAt :=
  ⟨(t.ctx c).tag, t.iter, lane, 0, step⟩

/-- Raise lane events, in order, in the TVU's flag word of context `c`. -/
def Tile.laneEvents (t : Tile) (c : Nat) (step : Word32) (es : List (Fl × Nat)) : Tile :=
  t.raise (tvuEngine c) c ((es.filter (fun e => e.1.any)).map (fun e => (e.1, t.laneAt c step e.2)))

/-- VST (R141 to R143). -/
def tvuVst (p : Nat) (hw : HwEvent) (s : State) : State :=
  tvuIssue p hw 0x19 (fun c w t =>
    let fmt := tiFmt w
    let ar := t.sreg c (tiAR w)
    let (a, ar') := t.memAddr c w fmt
    let ty := t.vty (tiVD w)
    let xs := t.vreg (tiVD w)
    let shs := groupShifts fmt (tiSC w) ty (tiRndM w) (t.sreg c 20) xs
    let outs := (xs.zipIdx).map (fun q => narrowTo fmt ty (tiRndM w) (shs.getD (q.2 / 16) 0) q.1)
    let codes := outs.map (·.1)
    let finish (t' : Tile) : TvuOut :=
      let t1 := t'.laneEvents c (Config.freeStep s.fresh) ((outs.zipIdx).map (fun q => (q.1.2, q.2)))
      .ok (((t1.setSreg 20 (vshOf shs)).setSreg (tiAR w) ar').advance)
    if arSpace ar = 3 then .error 2
    else if arSpace ar = 2 then
      if (fmt = 7 || fmt = 8) && tiSC w = 0 && arLstr ar ≠ 0 && t.accOk c a (arLstr ar) then
        finish ((codes.zipIdx).foldl (fun t q => t.acc_wr (a.toNat + q.2 * arLstr ar) (BitVec.ofNat 32 q.1)) t)
      else .error 2
    else if t.bankOk c (arSpace ar) a (footprint fmt 0) then
      finish (t.wrN (arSpace ar) a.toNat (packCodes fmt shs codes))
    else .error 2) s

/-- VSTSH (R134, R136). -/
def tvuVstsh (p : Nat) (hw : HwEvent) (s : State) : State :=
  tvuIssue p hw 0x1A (fun c w t =>
    let ar := t.sreg c (tiAR w)
    let (a, ar') := t.memAddr c w 0
    if arSpace ar ≤ 1 && t.bankOk c (arSpace ar) a 4 then
      .ok (((t.wrN (arSpace ar) a.toNat (bytesOf 4 (t.sreg c 20).toNat)).setSreg (tiAR w) ar').advance)
    else .error 2) s

/-! ## Vector rows (R136, R138, R139) -/

/-- Is lane `j` computed (R135, R138)? -/
def Tile.laneOn (t : Tile) (w : Word32) (j : Nat) : Bool := !tiMsk w || bit t.vm j

/-- A vector instruction: `f` gives each lane's value and its events in order; masked lanes keep VD. -/
def tvuVec (p : Nat) (hw : HwEvent) (opc : Nat) (f : Tile → Word32 → Nat → Word32 × List Fl) (s : State) : State :=
  tvuIssue p hw opc (fun c w t =>
    let old := t.vreg (tiVD w)
    let outs := (List.range 64).map (fun j => if t.laneOn w j then f t w j else (old.getD j 0, []))
    let evs := (outs.zipIdx).flatMap (fun q => q.1.2.map (fun e => (e, q.2)))
    let t1 := t.setVreg (tiVD w) (tiT w) (outs.map (·.1))
    .ok ((t1.laneEvents c (Config.freeStep s.fresh) evs).advance)) s

def laneOf (t : Tile) (n j : Nat) : Word32 := (t.vreg n).getD j 0

/-- Lanes of one and of two operands. -/
def lane1 (f : Word32 → Word32 → Word32 × Fl) (t : Tile) (w : Word32) (j : Nat) : Word32 × List Fl :=
  let r := f w (laneOf t (tiVA w) j)
  (r.1, [r.2])
def lane2 (f : Word32 → Word32 → Word32 → Word32 × Fl) (t : Tile) (w : Word32) (j : Nat) : Word32 × List Fl :=
  let r := f w (laneOf t (tiVA w) j) (laneOf t (tiVB w) j)
  (r.1, [r.2])

/-- VADD. -/
def tvuVadd (p : Nat) (hw : HwEvent) (s : State) : State :=
  tvuVec p hw 0x20 (lane2 (fun w a b => laneAdd (tiT w) (tiRnd w) a b)) s
/-- VSUB. -/
def tvuVsub (p : Nat) (hw : HwEvent) (s : State) : State :=
  tvuVec p hw 0x21 (lane2 (fun w a b => laneSub (tiT w) (tiRnd w) a b)) s
/-- VMUL. -/
def tvuVmul (p : Nat) (hw : HwEvent) (s : State) : State :=
  tvuVec p hw 0x22 (lane2 (fun w a b => laneMul (tiT w) (tiRnd w) a b)) s
/-- VMAD: the product rounded, then the sum rounded. -/
def tvuVmad (p : Nat) (hw : HwEvent) (s : State) : State :=
  tvuVec p hw 0x23 (fun t w j =>
    let m := laneMul (tiT w) (tiRnd w) (laneOf t (tiVA w) j) (laneOf t (tiVB w) j)
    let r := laneMadSum (tiT w) (tiRnd w) m.1 (laneOf t (tiVD w) j)
    (r.1, [m.2, r.2])) s
/-- VMAX. -/
def tvuVmax (p : Nat) (hw : HwEvent) (s : State) : State :=
  tvuVec p hw 0x24 (lane2 (fun w a b => laneMax (tiT w) a b)) s
/-- VMIN. -/
def tvuVmin (p : Nat) (hw : HwEvent) (s : State) : State :=
  tvuVec p hw 0x25 (lane2 (fun w a b => laneMin (tiT w) a b)) s

/-- VCMP: the destination is VM; a masked lane's bit is unchanged. -/
def tvuVcmp (p : Nat) (hw : HwEvent) (s : State) : State :=
  tvuIssue p hw 0x26 (fun c w t =>
    let outs := (List.range 64).map (fun j =>
      if t.laneOn w j then laneCmp (tiT w) (tiFN w) (laneOf t (tiVA w) j) (laneOf t (tiVB w) j)
      else (bit t.vm j, {}))
    let vm := BitVec.ofNat 64 ((outs.zipIdx).foldl (fun a q => a + b2n q.1.1 * 2 ^ q.2) 0)
    let evs := (outs.zipIdx).map (fun q => (q.1.2, q.2))
    .ok (({ t with vm := vm }.laneEvents c (Config.freeStep s.fresh) evs).advance)) s

/-- VSEL. -/
def tvuVsel (p : Nat) (hw : HwEvent) (s : State) : State :=
  tvuVec p hw 0x27 (fun t w j => (if bit t.vm j then laneOf t (tiVA w) j else laneOf t (tiVB w) j, [])) s
/-- VCVT. -/
def tvuVcvt (p : Nat) (hw : HwEvent) (s : State) : State :=
  tvuVec p hw 0x28 (lane1 (fun w a => laneCvt (tiFN w) (tiRnd w) a)) s
/-- VSHR. -/
def tvuVshr (p : Nat) (hw : HwEvent) (s : State) : State :=
  tvuVec p hw 0x29 (lane1 (fun w a => laneShr (tiRnd w) (tiFN w) a)) s
/-- VSHL. -/
def tvuVshl (p : Nat) (hw : HwEvent) (s : State) : State :=
  tvuVec p hw 0x2A (lane1 (fun w a => laneShl (tiFN w) a)) s
/-- VEXP. -/
def tvuVexp (p : Nat) (hw : HwEvent) (s : State) : State := tvuVec p hw 0x30 (lane1 (fun _ a => laneExp a)) s
/-- VRCP. -/
def tvuVrcp (p : Nat) (hw : HwEvent) (s : State) : State := tvuVec p hw 0x31 (lane1 (fun _ a => laneRcp a)) s
/-- VRSQ. -/
def tvuVrsq (p : Nat) (hw : HwEvent) (s : State) : State := tvuVec p hw 0x32 (lane1 (fun _ a => laneRsq a)) s
/-- VTANH. -/
def tvuVtanh (p : Nat) (hw : HwEvent) (s : State) : State := tvuVec p hw 0x33 (lane1 (fun _ a => laneTanh a)) s

/-- A reduction over the 64 lanes of VA, broadcast; a masked lane enters as `neutral` (R139). -/
def tvuReduce (p : Nat) (hw : HwEvent) (opc : Nat) (isMax : Bool) (neutral : Word32) (s : State) : State :=
  tvuIssue p hw opc (fun c w t =>
    let ns := (List.range 64).map (fun j =>
      ({ v := if t.laneOn w j then laneOf t (tiVA w) j else neutral, lane := j, operand := true } : Node))
    let r := tree isMax (tiT w) (tiRnd w) 6 ns
    let old := t.vreg (tiVD w)
    let t1 := t.setVreg (tiVD w) (tiT w)
      ((List.range 64).map (fun j => if t.laneOn w j then r.1 else old.getD j 0))
    .ok ((t1.laneEvents c (Config.freeStep s.fresh) r.2).advance)) s

/-- VRSUM. -/
def tvuVrsum (p : Nat) (hw : HwEvent) (s : State) : State := tvuReduce p hw 0x38 false 0 s
/-- VRMAX. -/
def tvuVrmax (p : Nat) (hw : HwEvent) (s : State) : State := tvuReduce p hw 0x39 true (infW true) s

/-- VBIN2. -/
def tvuVbin2 (p : Nat) (hw : HwEvent) (s : State) : State :=
  tvuVec p hw 0x3A (fun t w j =>
    if j < 32 then
      let r := laneAdd (tiT w) (tiRnd w) (laneOf t (tiVA w) (2 * j)) (laneOf t (tiVA w) (2 * j + 1))
      (r.1, [r.2])
    else (0, [])) s
/-- VSLIDE. -/
def tvuVslide (p : Nat) (hw : HwEvent) (s : State) : State :=
  tvuVec p hw 0x3B (fun t w j =>
    let k := j + tiFN w
    (if k < 64 then laneOf t (tiVA w) k else laneOf t (tiVB w) (k - 64), [])) s
/-- VBCST. -/
def tvuVbcst (p : Nat) (hw : HwEvent) (s : State) : State :=
  tvuVec p hw 0x3C (fun t w _ => (laneOf t (tiVA w) (tiFN w), [])) s
/-- VSPLAT: VA names a scalar register. -/
def tvuVsplat (p : Nat) (hw : HwEvent) (s : State) : State :=
  tvuIssue p hw 0x3D (fun c w t =>
    let v := t.sreg c (tiVA w)
    let old := t.vreg (tiVD w)
    .ok ((t.setVreg (tiVD w) (tiT w) ((List.range 64).map (fun j => if t.laneOn w j then v else old.getD j 0))).advance)) s

end Sys2Proof.Machine
end

