-- ==== Sys2Proof/Machine/Exec.lean ====
section
/-!
DEFINITION. One meaning per command: each completes with the state that its rules give, over the operations of the other files.
A command whose conditions do not hold changes nothing. A register write while the block takes no command has no effect; after
a step that can end a memory request, the responses for region ports and Vorot ports are delivered.
-/
set_option autoImplicit false
namespace Sys2Proof.Machine

/-! ## 01 The Package, Its Dies and the Spokes -/

/-- SPOKE_TOKEN_RECEIVED (R15). -/
def execSpokeTokenReceived (d : Fin 68) (groups : List (BitVec 4)) (s : State) : Host.Outcome State Fault Refusal :=
  .next (spokeTokenReceived d.val groups s)

/-- ACKNOWLEDGE_TRANSITION (R15). -/
def execAcknowledgeTransition (d : Fin 68) (s : State) : Host.Outcome State Fault Refusal :=
  .next ((acknowledgeTransition d.val s).deliver)

/-- CREDIT_RETURN (R29). -/
def execCreditReturn (d : Fin 68) (vc1 : Bool) (s : State) : Host.Outcome State Fault Refusal :=
  .next ((creditReturn d.val vc1 s).deliver)

/-- STALL_DETECTED (R17). -/
def execStallDetected (d : Fin 68) (s : State) : Host.Outcome State Fault Refusal :=
  .next (stallDetected d.val s)

/-- WIRE_TEST_COMPLETE (R20). -/
def execWireTestComplete (d : Fin 68) (w : WireTest) (s : State) : Host.Outcome State Fault Refusal :=
  .next (((wireTestComplete d.val w s).deliver).checkDies)


/-! ## 02 Clockless Timing, Pace and Operating Points -/

/-- HANDSHAKE_REQUEST (R36). -/
def execHandshakeRequest (b : Nat) (data : Word × Bool) (s : State) : Host.Outcome State Fault Refusal :=
  .next (handshakeRequest b data.1 data.2 s)

/-- HANDSHAKE_ACKNOWLEDGE (R36). -/
def execHandshakeAcknowledge (b : Nat) (s : State) : Host.Outcome State Fault Refusal :=
  .next (handshakeAcknowledge b s)

/-- PACE_WINDOW_CLOSE (R43). -/
def execPaceWindowClose (counts : List (BitVec 16)) (edges : List (Nat × Nat)) (s : State) : Host.Outcome State Fault Refusal :=
  .next (paceWindowClose counts edges s)

/-- CLRMIN (R48). -/
def execClrmin (w : World) (s : State) : Host.Outcome State Fault Refusal :=
  .next (s.whenUp (fun s => clrmin w s))

/-- REFCLK_LOST (R50). -/
def execRefclkLost (s : State) : Host.Outcome State Fault Refusal :=
  .next (refclkLost s)

/-- REFCLK_RETURN (R50). -/
def execRefclkReturn (s : State) : Host.Outcome State Fault Refusal :=
  .next (refclkReturn s)

/-- VDDF_CHANGE (R52 to R56): above 0.88 V no behaviour of the manual applies (R55), and the step faults. -/
def execVddfChange (mv : Nat) (s : State) : Host.Outcome State Fault Refusal :=
  if 880 < mv then .fault .supplyAboveFunctionalRange else .next (vddfSet mv s)

/-- SUPPLY_MONITOR_COLD_RESET (R56). -/
def execSupplyMonitorColdReset (s : State) : Host.Outcome State Fault Refusal :=
  .next (supplyMonitorColdReset s)

/-- CONVERSION (R58). -/
def execConversion (n : Fin 19) (tj : BitVec 12) (s : State) : Host.Outcome State Fault Refusal :=
  .next (conversion n.val tj s)


/-! ## 03 Number Formats, 04 The Matrix Tile -/

/-- FLAG_WORD_READ (R83). -/
def execFlagWordRead (p : Fin 832) (e : Engine) (w : World) (s : State) : Host.Outcome State Fault Refusal :=
  .next (flagWordRead p.val e w s)

/-- LOAD (R111). -/
def execLoad (p : Fin 832) (c : Fin 2) (s : State) : Host.Outcome State Fault Refusal :=
  .next (load p.val c.val s)

/-- LOAD_BEAT (R112). -/
def execLoadBeat (p : Fin 832) (c : Fin 2) (hw : HwEvent) (s : State) : Host.Outcome State Fault Refusal :=
  .next (loadBeat p.val c.val hw s)

/-- PLANE_COMPLETE (R111). -/
def execPlaneComplete (p : Fin 832) (c : Fin 2) (s : State) : Host.Outcome State Fault Refusal :=
  .next (planeComplete p.val c.val s)

/-- STREAM (R109). -/
def execStream (p : Fin 832) (c : Fin 2) (s : State) : Host.Outcome State Fault Refusal :=
  .next (stream p.val c.val s)

/-- ROW_ISSUE (R109). -/
def execRowIssue (p : Fin 832) (c : Fin 2) (hw : HwEvent) (s : State) : Host.Outcome State Fault Refusal :=
  .next (rowIssue p.val c.val hw s)

/-- OUTPUT_VECTOR_WRITTEN (R104). -/
def execOutputVectorWritten (p : Fin 832) (c : Fin 2) (hw : HwEvent) (s : State) : Host.Outcome State Fault Refusal :=
  .next (outputVectorWritten p.val c.val hw s)

/-- DRAIN (R488). -/
def execDrain (p : Fin 832) (c : Fin 2) (hw : HwEvent) (s : State) : Host.Outcome State Fault Refusal :=
  .next (drain p.val c.val hw s)

/-- MVP (R118). -/
def execMvp (p : Fin 832) (hw : HwEvent) (s : State) : Host.Outcome State Fault Refusal :=
  .next (mvp p.val hw s)

/-- FENCE (R120). -/
def execFence (p : Fin 832) (c : Fin 2) (s : State) : Host.Outcome State Fault Refusal :=
  .next (fence p.val c.val s)

/-- FENCE_COMPLETE (R120). -/
def execFenceComplete (p : Fin 832) (c : Fin 2) (s : State) : Host.Outcome State Fault Refusal :=
  .next (fenceComplete p.val c.val s)

/-- ARRAY_NOP (R99). -/
def execArrayNop (p : Fin 832) (c : Fin 2) (s : State) : Host.Outcome State Fault Refusal :=
  .next (arrayNop p.val c.val s)

/-- STALL (R123). -/
def execStall (p : Fin 832) (stage : Fin 3) (s : State) : Host.Outcome State Fault Refusal :=
  .next (stall p.val stage.val s)


/-! ## 05 The Tile Vector Unit -/

/-- TVU_PROGRAM_START (R128). -/
def execTvuProgramStart (p : Fin 832) (s : State) : Host.Outcome State Fault Refusal :=
  .next (tvuProgramStart p.val s)

/-- NOP (R136). -/
def execNop (p : Fin 832) (hw : HwEvent) (s : State) : Host.Outcome State Fault Refusal :=
  .next (tvuNop p.val hw s)

/-- END (R136). -/
def execTend (p : Fin 832) (hw : HwEvent) (s : State) : Host.Outcome State Fault Refusal :=
  .next (tvuEnd p.val hw s)

/-- BR (R146). -/
def execBr (p : Fin 832) (hw : HwEvent) (s : State) : Host.Outcome State Fault Refusal :=
  .next (tvuBr p.val hw s)

/-- BLOOP (R148). -/
def execBloop (p : Fin 832) (hw : HwEvent) (s : State) : Host.Outcome State Fault Refusal :=
  .next (tvuBloop p.val hw s)

/-- REP (R147). -/
def execRep (p : Fin 832) (hw : HwEvent) (s : State) : Host.Outcome State Fault Refusal :=
  .next (tvuRep p.val hw s)

/-- RETE (R154). -/
def execRete (p : Fin 832) (hw : HwEvent) (s : State) : Host.Outcome State Fault Refusal :=
  .next (tvuRete p.val hw s)

/-- EVEN (R154). -/
def execEven (p : Fin 832) (hw : HwEvent) (s : State) : Host.Outcome State Fault Refusal :=
  .next (tvuEven p.val hw s)

/-- WAITV (R149). -/
def execWaitv (p : Fin 832) (hw : HwEvent) (s : State) : Host.Outcome State Fault Refusal :=
  .next (tvuWaitv p.val hw s)

/-- WAITV_COMPLETE (R149). -/
def execWaitvComplete (p : Fin 832) (s : State) : Host.Outcome State Fault Refusal :=
  .next (waitvComplete p.val s)

/-- RREL (R150). -/
def execRrel (p : Fin 832) (hw : HwEvent) (s : State) : Host.Outcome State Fault Refusal :=
  .next (tvuRrel p.val hw s)

/-- FRD (R158). -/
def execFrd (p : Fin 832) (hw : HwEvent) (s : State) : Host.Outcome State Fault Refusal :=
  .next (tvuFrd p.val hw s)

/-- FCLR (R158). -/
def execFclr (p : Fin 832) (hw : HwEvent) (s : State) : Host.Outcome State Fault Refusal :=
  .next (tvuFclr p.val hw s)

/-- ROT (R131). -/
def execRot (p : Fin 832) (hw : HwEvent) (s : State) : Host.Outcome State Fault Refusal :=
  .next (tvuRot p.val hw s)

/-- SETL (R136). -/
def execSetl (p : Fin 832) (hw : HwEvent) (s : State) : Host.Outcome State Fault Refusal :=
  .next (tvuSetl p.val hw s)

/-- SETH (R136). -/
def execSeth (p : Fin 832) (hw : HwEvent) (s : State) : Host.Outcome State Fault Refusal :=
  .next (tvuSeth p.val hw s)

/-- SADDI (R136). -/
def execSaddi (p : Fin 832) (hw : HwEvent) (s : State) : Host.Outcome State Fault Refusal :=
  .next (tvuSaddi p.val hw s)

/-- SMOV (R136). -/
def execSmov (p : Fin 832) (hw : HwEvent) (s : State) : Host.Outcome State Fault Refusal :=
  .next (tvuSmov p.val hw s)

/-- VLD (R140). -/
def execVld (p : Fin 832) (hw : HwEvent) (s : State) : Host.Outcome State Fault Refusal :=
  .next (tvuVld p.val hw s)

/-- VST (R141). -/
def execVst (p : Fin 832) (hw : HwEvent) (s : State) : Host.Outcome State Fault Refusal :=
  .next (tvuVst p.val hw s)

/-- VSTSH (R136). -/
def execVstsh (p : Fin 832) (hw : HwEvent) (s : State) : Host.Outcome State Fault Refusal :=
  .next (tvuVstsh p.val hw s)

/-- VADD (R136). -/
def execVadd (p : Fin 832) (hw : HwEvent) (s : State) : Host.Outcome State Fault Refusal :=
  .next (tvuVadd p.val hw s)

/-- VSUB (R136). -/
def execVsub (p : Fin 832) (hw : HwEvent) (s : State) : Host.Outcome State Fault Refusal :=
  .next (tvuVsub p.val hw s)

/-- VMUL (R136). -/
def execVmul (p : Fin 832) (hw : HwEvent) (s : State) : Host.Outcome State Fault Refusal :=
  .next (tvuVmul p.val hw s)

/-- VMAD (R136). -/
def execVmad (p : Fin 832) (hw : HwEvent) (s : State) : Host.Outcome State Fault Refusal :=
  .next (tvuVmad p.val hw s)

/-- VMAX (R138). -/
def execVmax (p : Fin 832) (hw : HwEvent) (s : State) : Host.Outcome State Fault Refusal :=
  .next (tvuVmax p.val hw s)

/-- VMIN (R138). -/
def execVmin (p : Fin 832) (hw : HwEvent) (s : State) : Host.Outcome State Fault Refusal :=
  .next (tvuVmin p.val hw s)

/-- VCMP (R138). -/
def execVcmp (p : Fin 832) (hw : HwEvent) (s : State) : Host.Outcome State Fault Refusal :=
  .next (tvuVcmp p.val hw s)

/-- VSEL (R138). -/
def execVsel (p : Fin 832) (hw : HwEvent) (s : State) : Host.Outcome State Fault Refusal :=
  .next (tvuVsel p.val hw s)

/-- VCVT (R136). -/
def execVcvt (p : Fin 832) (hw : HwEvent) (s : State) : Host.Outcome State Fault Refusal :=
  .next (tvuVcvt p.val hw s)

/-- VSHR (R136). -/
def execVshr (p : Fin 832) (hw : HwEvent) (s : State) : Host.Outcome State Fault Refusal :=
  .next (tvuVshr p.val hw s)

/-- VSHL (R136). -/
def execVshl (p : Fin 832) (hw : HwEvent) (s : State) : Host.Outcome State Fault Refusal :=
  .next (tvuVshl p.val hw s)

/-- VEXP (R144). -/
def execVexp (p : Fin 832) (hw : HwEvent) (s : State) : Host.Outcome State Fault Refusal :=
  .next (tvuVexp p.val hw s)

/-- VRCP (R144). -/
def execVrcp (p : Fin 832) (hw : HwEvent) (s : State) : Host.Outcome State Fault Refusal :=
  .next (tvuVrcp p.val hw s)

/-- VRSQ (R144). -/
def execVrsq (p : Fin 832) (hw : HwEvent) (s : State) : Host.Outcome State Fault Refusal :=
  .next (tvuVrsq p.val hw s)

/-- VTANH (R144). -/
def execVtanh (p : Fin 832) (hw : HwEvent) (s : State) : Host.Outcome State Fault Refusal :=
  .next (tvuVtanh p.val hw s)

/-- VRSUM (R139). -/
def execVrsum (p : Fin 832) (hw : HwEvent) (s : State) : Host.Outcome State Fault Refusal :=
  .next (tvuVrsum p.val hw s)

/-- VRMAX (R139). -/
def execVrmax (p : Fin 832) (hw : HwEvent) (s : State) : Host.Outcome State Fault Refusal :=
  .next (tvuVrmax p.val hw s)

/-- VBIN2 (R136). -/
def execVbin2 (p : Fin 832) (hw : HwEvent) (s : State) : Host.Outcome State Fault Refusal :=
  .next (tvuVbin2 p.val hw s)

/-- VSLIDE (R136). -/
def execVslide (p : Fin 832) (hw : HwEvent) (s : State) : Host.Outcome State Fault Refusal :=
  .next (tvuVslide p.val hw s)

/-- VBCST (R136). -/
def execVbcst (p : Fin 832) (hw : HwEvent) (s : State) : Host.Outcome State Fault Refusal :=
  .next (tvuVbcst p.val hw s)

/-- VSPLAT (R136). -/
def execVsplat (p : Fin 832) (hw : HwEvent) (s : State) : Host.Outcome State Fault Refusal :=
  .next (tvuVsplat p.val hw s)

/-- CANCELLATION_NOTICE (R153). -/
def execCancellationNotice (p : Fin 832) (s : State) : Host.Outcome State Fault Refusal :=
  .next (cancellationNotice p.val s)

/-- FAULT_NOTICE (R153). -/
def execFaultNotice (p : Fin 832) (s : State) : Host.Outcome State Fault Refusal :=
  .next (faultNotice p.val s)

/-- PACELINE_EVENT (R154). -/
def execPacelineEvent (p : Fin 832) (s : State) : Host.Outcome State Fault Refusal :=
  .next (pacelineEvent p.val s)


/-! ## 06 Tiling, Task Descriptors and Issue Checks -/

/-- TASK_START (R160). -/
def execTaskStart (l : Fin 768) (s : State) : Host.Outcome State Fault Refusal :=
  .next (taskStart l.val s)

/-- SEQ_ARRAY_ENTRY (R166). -/
def execSeqArrayEntry (p : Fin 832) (c : Fin 2) (hw : HwEvent) (s : State) : Host.Outcome State Fault Refusal :=
  .next (seqArrayEntry p.val c.val hw s)

/-- SEQ_TVU_ENTRY (R176). -/
def execSeqTvuEntry (p : Fin 832) (c : Fin 2) (hw : HwEvent) (s : State) : Host.Outcome State Fault Refusal :=
  .next (seqTvuEntry p.val c.val hw s)

/-- XFER (R176). -/
def execXfer (p : Fin 832) (c : Fin 2) (hw : HwEvent) (s : State) : Host.Outcome State Fault Refusal :=
  .next (xfer p.val c.val hw s)

/-- LOOP (R176). -/
def execLoop (p : Fin 832) (c : Fin 2) (hw : HwEvent) (s : State) : Host.Outcome State Fault Refusal :=
  .next (loop p.val c.val hw s)

/-- WAIT (R176). -/
def execWait (p : Fin 832) (c : Fin 2) (hw : HwEvent) (s : State) : Host.Outcome State Fault Refusal :=
  .next (wait p.val c.val hw s)

/-- WAIT_SATISFIED (R193). -/
def execWaitSatisfied (p : Fin 832) (c : Fin 2) (s : State) : Host.Outcome State Fault Refusal :=
  .next (waitSatisfied p.val c.val s)

/-- SEQ_END (R176). -/
def execSeqEnd (p : Fin 832) (c : Fin 2) (hw : HwEvent) (s : State) : Host.Outcome State Fault Refusal :=
  .next (seqEnd p.val c.val hw s)

/-- TASK_COMPLETE (R176). -/
def execTaskComplete (p : Fin 832) (c : Fin 2) (s : State) : Host.Outcome State Fault Refusal :=
  .next (taskComplete p.val c.val s)


/-! ## 07 Streams, the Paceline and Work Counters -/

/-- READ (R189). -/
def execRead (p : Fin 832) (c : Fin 2) (s : State) : Host.Outcome State Fault Refusal :=
  .next (read p.val c.val s)

/-- WRITE (R189). -/
def execWrite (p : Fin 832) (c : Fin 2 × HwEvent) (s : State) : Host.Outcome State Fault Refusal :=
  .next (write p.val c.1.val c.2 s)

/-- REMOTE (R202). -/
def execRemote (p : Fin 832) (c : Fin 2 × HwEvent) (s : State) : Host.Outcome State Fault Refusal :=
  .next (remote p.val c.1.val c.2 s)

/-- PACE_ORIGIN (R204). -/
def execPaceOrigin (p : Fin 832) (c : Fin 2 × HwEvent) (s : State) : Host.Outcome State Fault Refusal :=
  .next (paceOrigin p.val c.1.val c.2 s)

/-- PACE_FORWARD (R207). -/
def execPaceForward (p : Fin 832) (c : Fin 2 × HwEvent) (s : State) : Host.Outcome State Fault Refusal :=
  .next (paceForward p.val c.1.val c.2 s)

/-- PEER (R209). -/
def execPeer (p : Fin 832) (c : Fin 2 × HwEvent) (s : State) : Host.Outcome State Fault Refusal :=
  .next (peer p.val c.1.val c.2 s)

/-- CTAKE (R212). -/
def execCtake (p : Fin 832) (c : Fin 2) (s : State) : Host.Outcome State Fault Refusal :=
  .next (ctake p.val c.val s)

/-- GRANT (R201). -/
def execGrant (p : Fin 832) (c : Fin 2) (s : State) : Host.Outcome State Fault Refusal :=
  .next (grant p.val c.val s)

/-- PRING (R203). -/
def execPring (p : Fin 832) (c : Fin 2) (s : State) : Host.Outcome State Fault Refusal :=
  .next (pring p.val c.val s)

/-- DESCRIPTOR_FETCH (R190). -/
def execDescriptorFetch (p : Fin 832) (c : Fin 2) (group : Nat) (s : State) : Host.Outcome State Fault Refusal :=
  .next (descriptorFetch p.val c.val group s)

/-- REQUEST_RESPONSE (R191). -/
def execRequestResponse (p : Fin 832) (c : Fin 2 × HwEvent) (xi : Nat) (s : State) : Host.Outcome State Fault Refusal :=
  .next (requestResponse p.val c.1.val xi c.2 s)

/-- TIMEOUT (R198). -/
def execTimeout (p : Fin 832) (c : Fin 2) (xi : Nat) (s : State) : Host.Outcome State Fault Refusal :=
  .next (timeout p.val c.val xi s)

/-- CANCELLATION (R199). -/
def execCancellation (p : Fin 832) (c : Fin 2) (s : State) : Host.Outcome State Fault Refusal :=
  .next (cancellation p.val c.val s)

/-- CANCELLATION_ACK (R199). -/
def execCancellationAck (p : Fin 832) (c : Fin 2) (s : State) : Host.Outcome State Fault Refusal :=
  .next (cancellationAck p.val c.val s)

/-- GRANT_RECEIVED (R201). -/
def execGrantReceived (p : Fin 832) (c : Fin 2) (s : State) : Host.Outcome State Fault Refusal :=
  .next (grantReceived p.val c.val s)

/-- REMOTE_TOKEN_RECEIVED (R202). -/
def execRemoteTokenReceived (p : Fin 832) (c : Fin 2) (s : State) : Host.Outcome State Fault Refusal :=
  .next (remoteTokenReceived p.val c.val s)

/-- PACELINE_BLOCK_STORED (R205). -/
def execPacelineBlockStored (p : Fin 832) (c : Fin 2) (s : State) : Host.Outcome State Fault Refusal :=
  .next (pacelineBlockStored p.val c.val s)

/-- BLOCK_RELEASE (R208). -/
def execBlockRelease (p : Fin 832) (c : Fin 2) (s : State) : Host.Outcome State Fault Refusal :=
  .next (blockRelease p.val c.val s)

/-- COUNTER_TAKE (R212). -/
def execCounterTake (ctr : Fin 4096) (s : State) : Host.Outcome State Fault Refusal :=
  .next (counterTake ctr.val s)


/-! ## 08 The Programmable Fabric -/

/-- CLOCK_GENERATOR_ENABLE (R222). -/
def execClockGeneratorEnable (r : Fin 128) (g : Fin 4) (on : Bool) (s : State) : Host.Outcome State Fault Refusal :=
  .next (clockGeneratorEnable r.val g.val on s)

/-- BLOCK_MEMORY_ACCESS (R232). -/
def execBlockMemoryAccess (r : Fin 128) (bm : Fin 256) (a b : Option BmAccess) (s : State) : Host.Outcome State Fault Refusal :=
  .next (blockMemoryAccess r.val bm.val a b s)

/-- BIND (R235). -/
def execBind (r : Fin 128) (q : Fin 48 × Option (Fin 4)) (dtile : Fin 768) (dctx : BitVec 2) (drec : Fin 16) (enable : Bool) (s : State) :
    Host.Outcome State Fault Refusal :=
  .next (bind r.val q.1.val dtile.val dctx.toNat drec.val enable q.2 s)

/-- QUEUE_DATA_WORD (R235). -/
def execQueueDataWord (r : Fin 128) (q : Fin 48 × Option (Fin 4)) (w : Word) (s : State) : Host.Outcome State Fault Refusal :=
  .next (queueDataWord r.val q.1.val w q.2 s)

/-- QUEUE_GRANT (R236). -/
def execQueueGrant (r : Fin 128) (q : Fin 48) (s : State) : Host.Outcome State Fault Refusal :=
  .next (queueGrant r.val q.val s)

/-- QUEUE_TOKEN_SEND (R237). -/
def execQueueTokenSend (r : Fin 128) (q : Fin 48 × Bool) (s : State) : Host.Outcome State Fault Refusal :=
  .next (queueTokenSend r.val q.1.val q.2 s)

/-- REGION_PORT_REQUEST (R239). -/
def execRegionPortRequest (r : Fin 128) (write : Bool) (addr : BitVec 40) (len : Nat) (data : List Byte) (s : State) : Host.Outcome State Fault Refusal :=
  .next (regionPortRequest r.val write addr.toNat len data s)

/-- REGION_PORT_INBOUND_TOKEN (R240). -/
def execRegionPortInboundToken (r : Fin 128) (taken : Nat) (s : State) : Host.Outcome State Fault Refusal :=
  .next (regionPortInboundToken r.val taken s)

/-- REGION_CLOSE_COMPLETE (R242). -/
def execRegionCloseComplete (r : Fin 128) (s : State) : Host.Outcome State Fault Refusal :=
  .next (regionCloseComplete r.val s)

/-- GPIOCFG_WRITE (R245). -/
def execGpiocfgWrite (w : World) (m : Fin 2) (p : Fin 128) (v : Word) (s : State) : Host.Outcome State Fault Refusal :=
  .next (s.whenUp (fun s => gpiocfgWrite w m.val p.val v s))

/-- IO_OUTPUT_CHANGE (R246). -/
def execIoOutputChange (r : Fin 128) (val oe : Word) (s : State) : Host.Outcome State Fault Refusal :=
  .next (ioOutputChange r.val val oe s)

/-- IO_INPUT_CHANGE (R246). -/
def execIoInputChange (m : Fin 2) (p : Fin 128) (level : Option Bool) (s : State) : Host.Outcome State Fault Refusal :=
  .next (ioInputChange m.val p.val level s)

/-- IO_CHANNEL_TOKEN (R247). -/
def execIoChannelToken (m : Fin 2) (s : State) : Host.Outcome State Fault Refusal :=
  .next (ioChannelToken m.val s)


/-! ## 09 Configuration Images, Loading and Scrubbing -/

/-- ISL_STORE_WRITE (R254). -/
def execIslStoreWrite (c : Fin 64) (ecc : List CodeWordError) (s : State) : Host.Outcome State Fault Refusal :=
  .next ((islStoreWrite c.val ecc s).deliver)

/-- ISL_IMAGE_LOAD (R265). -/
def execIslImageLoad (c : Fin 64) (env : LoadEnv) (s : State) : Host.Outcome State Fault Refusal :=
  .next (islImageLoad c.val env s)

/-- ISL_REGION_LOAD (R265). -/
def execIslRegionLoad (c : Fin 64) (env : LoadEnv) (s : State) : Host.Outcome State Fault Refusal :=
  .next (islRegionLoad c.val env s)

/-- WEEVIL_READ (R272). -/
def execWeevilRead (n : Fin 16) (r : List EccResult) (crc : Option Word32) (s : State) : Host.Outcome State Fault Refusal :=
  .next (weevilRead n.val r crc s)

/-- WEEVIL_CHECK (R274). -/
def execWeevilCheck (n : Fin 16) (s : State) : Host.Outcome State Fault Refusal :=
  .next (weevilCheck n.val s)

/-- WVCTL_WRITE (R275). -/
def execWvctlWrite (w : World) (n : Fin 16) (v : Word) (s : State) : Host.Outcome State Fault Refusal :=
  .next (s.whenUp (fun s => wvctlWrite w n.val v s))


/-! ## 10 LPDDR5X Memory Controllers -/

/-- MEMORY_REQUEST (R283). -/
def execMemoryRequest (m : Fin 2) (port : Fin 40) (s : State) : Host.Outcome State Fault Refusal :=
  .next ((memoryRequest m.val port.val s).deliver)

/-- COMMAND_SLOT (R295). -/
def execCommandSlot (m : Fin 2) (ch : Fin 40) (busy : List (Fin 16)) (ecc : List CodeWordError) (s : State) : Host.Outcome State Fault Refusal :=
  .next ((commandSlot m.val ch.val busy ecc s).deliver)

/-- MIRROR_COPY (R289). -/
def execMirrorCopy (m : Fin 2) (ch : Fin 40) (s : State) : Host.Outcome State Fault Refusal :=
  .next ((mirrorCopy m.val ch.val s).deliver)

/-- REFRESH_DUE (R302). -/
def execRefreshDue (m : Fin 2) (ch : Fin 40) (s : State) : Host.Outcome State Fault Refusal :=
  .next (refreshDue m.val ch.val s)

/-- COMMAND_TIMEOUT (R291). -/
def execCommandTimeout (m : Fin 2) (ch : Fin 40) (s : State) : Host.Outcome State Fault Refusal :=
  .next ((commandTimeout m.val ch.val s).deliver)

/-- MRT_WRITE (R288). -/
def execMrtWrite (w : World) (m : Fin 2) (e : Fin 256) (v : Word) (s : State) : Host.Outcome State Fault Refusal :=
  .next (s.whenUp (fun s => mrtWrite w m.val e.val v s))

/-- RELEASE_FILL_COMPLETE (R416). -/
def execReleaseFillComplete (m : Fin 2) (e : Fin 256) (s : State) : Host.Outcome State Fault Refusal :=
  .next (releaseFillComplete m.val e.val s)

/-- RTPORT_WRITE (R298). -/
def execRtportWrite (w : World) (m : Fin 2) (p : Fin 16) (v : Word) (s : State) : Host.Outcome State Fault Refusal :=
  .next (s.whenUp (fun s => rtportWrite w m.val p.val v s))

/-- ISL_MEM_TRAIN (R310). -/
def execIslMemTrain (c : Fin 64) (s : State) : Host.Outcome State Fault Refusal :=
  .next (islMemTrain c.val s)

/-- TRAINING_COMPLETE (R310). -/
def execTrainingComplete (m : Fin 2) (ch : Fin 40) (ok : Bool) (results : List Word) (s : State) : Host.Outcome State Fault Refusal :=
  .next ((trainingComplete m.val ch.val ok results s).deliver)


/-! ## 11 Serial Lanes, Vorot Links and the Peloton -/

/-- LNCFG_WRITE (R315). -/
def execLncfgWrite (w : World) (m : Fin 2) (l : Fin 48) (v : Word) (s : State) : Host.Outcome State Fault Refusal :=
  .next (s.whenUp (fun s => lncfgWrite w m.val l.val v s))

/-- LANE_ACQUIRE_TIMEOUT (R318). -/
def execLaneAcquireTimeout (m : Fin 2) (l : Fin 48) (s : State) : Host.Outcome State Fault Refusal :=
  .next (laneAcquireTimeout m.val l.val s)

/-- LANE_RECEIVE (R321). -/
def execLaneReceive (m : Fin 2) (l : Fin 48) (raw : List Word) (blocks : List (BitVec 2 × Word)) (s : State) :
    Host.Outcome State Fault Refusal :=
  .next (laneReceive m.val l.val (if blocks.isEmpty then .raw raw else .blocks blocks) s)

/-- LANE_TRANSMIT_TOKEN (R321). -/
def execLaneTransmitToken (r : Fin 128) (m : Fin 2) (words : List Word) (s : State) : Host.Outcome State Fault Refusal :=
  .next (laneTransmitToken r.val m.val words s)

/-- MARKER (R325). -/
def execMarker (m : Fin 2) (l : Fin 48) (lip : Fin 8) (sport : BitVec 4) (count : BitVec 16) (parity : Byte) (skewNs : Nat) (s : State) : Host.Outcome State Fault Refusal :=
  .next (marker m.val l.val lip.val sport.toNat count.toNat parity.toNat skewNs s)

/-- LINK (R327). -/
def execLink (v : Fin 12) (ack : BitVec 16) (nak : Bool) (c0 c1 c2 : Byte) (s : State) : Host.Outcome State Fault Refusal :=
  .next (link v.val ack nak c0 c1 c2 s)

/-- RESEND_TIMEOUT (R328). -/
def execResendTimeout (v : Fin 12) (s : State) : Host.Outcome State Fault Refusal :=
  .next (resendTimeout v.val s)

/-- PEER_WRITE_FRAME (R209). -/
def execPeerWriteFrame (v : Fin 12) (f : Frame) (s : State) : Host.Outcome State Fault Refusal :=
  .next (peerWriteFrame v.val f s)

/-- PEER_ACKNOWLEDGE_FRAME (R192). -/
def execPeerAcknowledgeFrame (v : Fin 12) (f : Frame × HwEvent) (s : State) : Host.Outcome State Fault Refusal :=
  .next (peerAcknowledgeFrame v.val f.1 f.2 s)

/-- PEER_REFUSAL_FRAME (R333). -/
def execPeerRefusalFrame (v : Fin 12) (f : Frame) (s : State) : Host.Outcome State Fault Refusal :=
  .next (peerRefusalFrame v.val f s)

/-- COMMAND_FRAME (R337). -/
def execCommandFrame (v : Fin 12) (f : Frame) (s : State) : Host.Outcome State Fault Refusal :=
  .next (commandFrame v.val f s)

/-- REPLY_FRAME (R337). -/
def execReplyFrame (v : Fin 12) (f : Frame) (s : State) : Host.Outcome State Fault Refusal :=
  .next (replyFrame v.val f s)

/-- LINK_INIT (R334). -/
def execLinkInit (v : Fin 12) (f : Frame) (i : LinkInit) (s : State) : Host.Outcome State Fault Refusal :=
  .next (linkInit v.val f i s)

/-- ACKNOWLEDGE_TIMEOUT (R330). -/
def execAcknowledgeTimeout (v : Fin 12) (s : State) : Host.Outcome State Fault Refusal :=
  .next (acknowledgeTimeout v.val s)


/-! ## 12 Web Ingress, Position and Actions -/

/-- COUNT_STEP (R340). -/
def execCountStep (m : Fin 2) (c : Fin 4) (a b : Bool) (s : State) : Host.Outcome State Fault Refusal :=
  .next (countStep m.val c.val a b s)

/-- POSITION_COMPARISON (R345). -/
def execPositionComparison (c : Fin 4) (s : State) : Host.Outcome State Fault Refusal :=
  .next (positionComparison c.val s)

/-- ODOCFG_WRITE (R342). -/
def execOdocfgWrite (w : World) (c : Fin 4) (v : Word) (s : State) : Host.Outcome State Fault Refusal :=
  .next (s.whenUp (fun s => odocfgWrite w c.val v s))

/-- INGRESS_TOKEN (R354). -/
def execIngressToken (m : Fin 2) (r : Fin 128) (words : List Word) (s : State) : Host.Outcome State Fault Refusal :=
  .next ((ingressToken m.val r.val words s).deliver)

/-- LINE_PART_WRITTEN (R360). -/
def execLinePartWritten (st : Fin 32) (s : State) : Host.Outcome State Fault Refusal :=
  .next ((linePartWritten st.val s).deliver)

/-- INGCFG_WRITE (R356). -/
def execIngcfgWrite (w : World) (m : Fin 2) (p : Fin 16) (k : Fin 3) (v : Word) (s : State) : Host.Outcome State Fault Refusal :=
  .next (s.whenUp (fun s => ingcfgWrite w m.val p.val k.val v s))

/-- ISL_ING_RELEASE (R364). -/
def execIslIngRelease (c : Fin 64) (s : State) : Host.Outcome State Fault Refusal :=
  .next (islIngRelease c.val s)


/-! ## 13 Islamon Commands and the Ledger -/

/-- PACKET_INTAKE (R375). -/
def execPacketIntake (src : IntakeSrc) (s : State) : Host.Outcome State Fault Refusal :=
  .next (packetIntake src s)

/-- ISL_ACK (R378). -/
def execIslAck (src : IntakeSrc) (s : State) : Host.Outcome State Fault Refusal :=
  .next (islAck src s)

/-- ACCEPTANCE (R390). -/
def execAcceptance (c : Fin 64) (s : State) : Host.Outcome State Fault Refusal :=
  .next (acceptance c.val s)

/-- COMMAND_START (R384). -/
def execCommandStart (c : Fin 64) (s : State) : Host.Outcome State Fault Refusal :=
  .next (commandStart c.val s)

/-- REPLY_SEND (R386). -/
def execReplySend (c : Fin 64) (s : State) : Host.Outcome State Fault Refusal :=
  .next (replySend c.val s)

/-- EVENT_RECORD_SEND (R400). -/
def execEventRecordSend (s : State) : Host.Outcome State Fault Refusal :=
  .next (eventRecordSend s)

/-- ISL_NOP (R393). -/
def execIslNop (c : Fin 64) (s : State) : Host.Outcome State Fault Refusal :=
  .next (islNop c.val s)

/-- ISL_CHANNEL_SET (R395). -/
def execIslChannelSet (c : Fin 64) (s : State) : Host.Outcome State Fault Refusal :=
  .next (islChannelSet c.val s)

/-- ISL_READ (R395). -/
def execIslRead (c : Fin 64) (ecc : List CodeWordError) (s : State) : Host.Outcome State Fault Refusal :=
  .next (islRead c.val ecc s)

/-- ISL_WRITE (R395). -/
def execIslWrite (c : Fin 64) (ecc : List CodeWordError) (s : State) : Host.Outcome State Fault Refusal :=
  .next ((islWrite c.val ecc s).deliver)

/-- ISL_REGION_CLOSE (R395). -/
def execIslRegionClose (c : Fin 64) (s : State) : Host.Outcome State Fault Refusal :=
  .next (islRegionClose c.val s)

/-- ISL_ARM (R387). -/
def execIslArm (c : Fin 64) (s : State) : Host.Outcome State Fault Refusal :=
  .next (islArm c.val s)

/-- ISL_RUN (R387). -/
def execIslRun (c : Fin 64) (s : State) : Host.Outcome State Fault Refusal :=
  .next (islRunCmd c.val s)

/-- ISL_FREEWHEEL_ENTER (R367). -/
def execIslFreewheelEnter (c : Fin 64) (s : State) : Host.Outcome State Fault Refusal :=
  .next (islFreewheelEnter c.val s)

/-- ISL_FREEWHEEL_LEAVE (R367). -/
def execIslFreewheelLeave (c : Fin 64) (s : State) : Host.Outcome State Fault Refusal :=
  .next (islFreewheelLeave c.val s)

/-- ISL_QUIESCE (R387). -/
def execIslQuiesce (c : Fin 64) (s : State) : Host.Outcome State Fault Refusal :=
  .next (islQuiesce c.val s)

/-- QUIESCE_DRAIN_END (R387). -/
def execQuiesceDrainEnd (s : State) : Host.Outcome State Fault Refusal :=
  .next (quiesceDrainEnd s)

/-- ISL_RESET_WARM (R447). -/
def execIslResetWarm (c : Fin 64) (s : State) : Host.Outcome State Fault Refusal :=
  .next (islResetWarm c.val s)

/-- ISL_RESET_TILE (R445). -/
def execIslResetTile (c : Fin 64) (s : State) : Host.Outcome State Fault Refusal :=
  .next (islResetTile c.val s)

/-- ISL_RESET_FIELD_DIE (R445). -/
def execIslResetFieldDie (c : Fin 64) (s : State) : Host.Outcome State Fault Refusal :=
  .next (islResetFieldDie c.val s)

/-- ISL_RESET_RIM (R445). -/
def execIslResetRim (c : Fin 64) (s : State) : Host.Outcome State Fault Refusal :=
  .next ((islResetRim c.val s).deliver)

/-- ISL_RESET_LANE (R445). -/
def execIslResetLane (c : Fin 64) (s : State) : Host.Outcome State Fault Refusal :=
  .next (islResetLane c.val s)

/-- ISL_RESET_SPOKE (R445). -/
def execIslResetSpoke (c : Fin 64) (s : State) : Host.Outcome State Fault Refusal :=
  .next (islResetSpoke c.val s)

/-- ISL_RESET_REGION (R445). -/
def execIslResetRegion (c : Fin 64) (s : State) : Host.Outcome State Fault Refusal :=
  .next (islResetRegion c.val s)

/-- PART_RESET_COMPLETE (R445). -/
def execPartResetComplete (u : ResetUnit) (wires : List (SpokeDir × WireTest)) (s : State) : Host.Outcome State Fault Refusal :=
  .next ((partResetComplete u wires s).deliver)

/-- PART_RESET_TIMEOUT (R445). -/
def execPartResetTimeout (u : ResetUnit) (stuck : List (Fin 4)) (s : State) : Host.Outcome State Fault Refusal :=
  .next (partResetTimeout u stuck s)

/-- ISL_TASK_ISSUE (R178). -/
def execIslTaskIssue (c : Fin 64) (ecc : List CodeWordError) (s : State) : Host.Outcome State Fault Refusal :=
  .next (islTaskIssue c.val ecc s)

/-- ISL_TASK_CANCEL (R397). -/
def execIslTaskCancel (c : Fin 64) (s : State) : Host.Outcome State Fault Refusal :=
  .next (islTaskCancel c.val s)

/-- ISL_FLAGS_CLEAR (R85). -/
def execIslFlagsClear (c : Fin 64) (s : State) : Host.Outcome State Fault Refusal :=
  .next (islFlagsClear c.val s)

/-- ISL_CTR_SET (R215). -/
def execIslCtrSet (c : Fin 64) (s : State) : Host.Outcome State Fault Refusal :=
  .next (islCtrSet c.val s)

/-- ISL_ODO_PRESET (R344). -/
def execIslOdoPreset (c : Fin 64) (s : State) : Host.Outcome State Fault Refusal :=
  .next (islOdoPreset c.val s)

/-- ISL_ACT_ARM (R348). -/
def execIslActArm (c : Fin 64) (s : State) : Host.Outcome State Fault Refusal :=
  .next (islActArm c.val s)

/-- ISL_ACT_CANCEL (R352). -/
def execIslActCancel (c : Fin 64) (s : State) : Host.Outcome State Fault Refusal :=
  .next (islActCancel c.val s)

/-- ISL_WORLD_SET_TILE (R414). -/
def execIslWorldSetTile (c : Fin 64) (s : State) : Host.Outcome State Fault Refusal :=
  .next (islWorldSetTile c.val s)

/-- ISL_WORLD_SET_COUNTER_BANK (R415). -/
def execIslWorldSetCounterBank (c : Fin 64) (s : State) : Host.Outcome State Fault Refusal :=
  .next (islWorldSetCounterBank c.val s)

/-- ISL_WORLD_SET_LANE_GROUP (R413). -/
def execIslWorldSetLaneGroup (c : Fin 64) (s : State) : Host.Outcome State Fault Refusal :=
  .next (islWorldSetLaneGroup c.val s)

/-- ISL_ATTEST (R423). -/
def execIslAttest (c : Fin 64) (ecc : List CodeWordError) (s : State) : Host.Outcome State Fault Refusal :=
  .next ((islAttest c.val ecc s).deliver)

/-- PATH_LOSS (R408). -/
def execPathLoss (p : PathId) (s : State) : Host.Outcome State Fault Refusal :=
  .next (pathLoss p s)

/-- PATH_RESTART (R408). -/
def execPathRestart (p : PathId) (s : State) : Host.Outcome State Fault Refusal :=
  .next (pathRestart p s)

/-- FUSE_BLOW_OWNER_ROOT (R419). -/
def execFuseBlowOwnerRoot (w : World) (chk : Word32) (blown : Bool) (s : State) : Host.Outcome State Fault Refusal :=
  .next (s.whenUp (fun s => fuseBlowOwnerRoot w chk blown s))

/-- FUSE_DISABLE_VENDOR_ROOT (R419). -/
def execFuseDisableVendorRoot (w : World) (chk : Word32) (blown : Bool) (s : State) : Host.Outcome State Fault Refusal :=
  .next (s.whenUp (fun s => fuseDisableVendorRoot w chk blown s))


/-! ## 15 Faults, Spares and Recovery -/

/-- SPARE_SUBSTITUTION (R432). -/
def execSpareSubstitution (s : State) : Host.Outcome State Fault Refusal :=
  .next (spareSubstitution s)

/-- ROUTE_TABLE_SWAP (R434). -/
def execRouteTableSwap (holder : Fin 19) (s : State) : Host.Outcome State Fault Refusal :=
  .next ((routeTableSwap holder.val s).deliver)

/-- EJECTION_REPORT (R436). -/
def execEjectionReport (holder dest : Fin 19) (s : State) : Host.Outcome State Fault Refusal :=
  .next ((ejectionReport holder.val dest.val s).deliver)

/-- DIE_CONTROL_TIMEOUT (R440). -/
def execDieControlTimeout (n : Fin 16) (router : Bool) (s : State) : Host.Outcome State Fault Refusal :=
  .next (dieControlTimeout n.val router s)

/-- TANDEM_WATCHDOG (R443). -/
def execTandemWatchdog (s : State) : Host.Outcome State Fault Refusal :=
  .next (tandemWatchdog s)

/-- TANDEM_FAILOVER (R443). -/
def execTandemFailover (cause : FailoverCause) (bad : List (Nat × BitVec 3)) (s : State) : Host.Outcome State Fault Refusal :=
  .next (tandemFailover cause bad s)


/-! ## 16 Power-Up and Start-Up, 17 Signals -/

/-- COLD_RESET (R453). -/
def execColdReset (s : State) : Host.Outcome State Fault Refusal :=
  .next (coldReset s)

/-- COLD_RESET_RELEASE (R454). -/
def execColdResetRelease (env : BootEnv) (s : State) : Host.Outcome State Fault Refusal :=
  .next (coldResetRelease env s)

/-- TILE_PLACEMENT (R428). -/
def execTilePlacement (s : State) : Host.Outcome State Fault Refusal :=
  .next (tilePlacement s)

/-- SEALED_ENTRY (R454). -/
def execSealedEntry (s : State) : Host.Outcome State Fault Refusal :=
  .next (sealedEntry s)

/-- ATTSTAT_READY (R423). -/
def execAttstatReady (ecc : List CodeWordError) (s : State) : Host.Outcome State Fault Refusal :=
  .next ((attstatReady ecc s).deliver)

/-- WARM_RESET (R476). -/
def execWarmReset (s : State) : Host.Outcome State Fault Refusal :=
  .next (warmReset s)

/-- WARM_RESET_RELEASE (R476). -/
def execWarmResetRelease (bad : List (Nat × BitVec 3)) (wires : List (SpokeDir × WireTest)) (s : State) : Host.Outcome State Fault Refusal :=
  .next ((warmResetRelease bad wires s).deliver)

/-- LANE_GROUP_REENABLE (R466). -/
def execLaneGroupReenable (g : Fin 12) (s : State) : Host.Outcome State Fault Refusal :=
  .next (laneGroupReenable g.val s)

/-- SSP_WRITE (R479). -/
def execSspWrite (bytes : List Byte) (s : State) : Host.Outcome State Fault Refusal :=
  .next (sspWrite bytes s)

/-- SSP_READ (R479). -/
def execSspRead (bytes : Nat) (s : State) : Host.Outcome State Fault Refusal :=
  .next (sspRead bytes s)

/-- SSP_CS_RISE (R480). -/
def execSspCsRise (s : State) : Host.Outcome State Fault Refusal :=
  .next (sspCsRise s)

/-- REGISTER_WRITE (R9). -/
def execRegisterWrite (w : World) (addr : BitVec 40) (v : Word) (s : State) : Host.Outcome State Fault Refusal :=
  .next (registerWrite w addr.toNat v s)

/-- CDR_LOCK_CHANGE (R316). -/
def execCdrLockChange (m : Fin 2) (l : Fin 48) (locked : Bool) (s : State) : Host.Outcome State Fault Refusal :=
  .next (cdrLockChange m.val l.val locked s)

/-- TRANSMIT_UNDERRUN (R321). -/
def execTransmitUnderrun (m : Fin 2) (l : Fin 48) (s : State) : Host.Outcome State Fault Refusal :=
  .next (transmitUnderrun m.val l.val s)

/-- STANDBY_SELF_TEST (R443). -/
def execStandbySelfTest (pass : Bool) (s : State) : Host.Outcome State Fault Refusal :=
  .next (standbySelfTest pass s)

end Sys2Proof.Machine
end

