-- ==== Sys2Proof/Machine/Dispatch.lean ====
section
/-! DEFINITION. The dispatch: one arm per command, each a direct call of its meaning. -/
namespace Sys2Proof.Machine

def exec (i : Instr) (s : State) : Host.Outcome State Fault Refusal :=
  match i with
  -- 01 The Package, Its Dies and the Spokes
  | .spokeTokenReceived d groups => Sys2Proof.Machine.execSpokeTokenReceived d groups s
  | .acknowledgeTransition d => Sys2Proof.Machine.execAcknowledgeTransition d s
  | .creditReturn d vc1 => Sys2Proof.Machine.execCreditReturn d vc1 s
  | .stallDetected d => Sys2Proof.Machine.execStallDetected d s
  | .wireTestComplete d w => Sys2Proof.Machine.execWireTestComplete d w s
  -- 02 Clockless Timing, Pace and Operating Points
  | .handshakeRequest b data => Sys2Proof.Machine.execHandshakeRequest b data s
  | .handshakeAcknowledge b => Sys2Proof.Machine.execHandshakeAcknowledge b s
  | .paceWindowClose counts edges => Sys2Proof.Machine.execPaceWindowClose counts edges s
  | .clrmin w => Sys2Proof.Machine.execClrmin w s
  | .refclkLost => Sys2Proof.Machine.execRefclkLost s
  | .refclkReturn => Sys2Proof.Machine.execRefclkReturn s
  | .vddfChange mv => Sys2Proof.Machine.execVddfChange mv s
  | .supplyMonitorColdReset => Sys2Proof.Machine.execSupplyMonitorColdReset s
  | .conversion n tj => Sys2Proof.Machine.execConversion n tj s
  -- 03 Number Formats, 04 The Matrix Tile
  | .flagWordRead p e w => Sys2Proof.Machine.execFlagWordRead p e w s
  | .load p c => Sys2Proof.Machine.execLoad p c s
  | .loadBeat p c hw => Sys2Proof.Machine.execLoadBeat p c hw s
  | .planeComplete p c => Sys2Proof.Machine.execPlaneComplete p c s
  | .stream p c => Sys2Proof.Machine.execStream p c s
  | .rowIssue p c hw => Sys2Proof.Machine.execRowIssue p c hw s
  | .outputVectorWritten p c hw => Sys2Proof.Machine.execOutputVectorWritten p c hw s
  | .drain p c hw => Sys2Proof.Machine.execDrain p c hw s
  | .mvp p hw => Sys2Proof.Machine.execMvp p hw s
  | .fence p c => Sys2Proof.Machine.execFence p c s
  | .fenceComplete p c => Sys2Proof.Machine.execFenceComplete p c s
  | .arrayNop p c => Sys2Proof.Machine.execArrayNop p c s
  | .stall p stage => Sys2Proof.Machine.execStall p stage s
  -- 05 The Tile Vector Unit
  | .tvuProgramStart p => Sys2Proof.Machine.execTvuProgramStart p s
  | .nop p hw => Sys2Proof.Machine.execNop p hw s
  | .tend p hw => Sys2Proof.Machine.execTend p hw s
  | .br p hw => Sys2Proof.Machine.execBr p hw s
  | .bloop p hw => Sys2Proof.Machine.execBloop p hw s
  | .rep p hw => Sys2Proof.Machine.execRep p hw s
  | .rete p hw => Sys2Proof.Machine.execRete p hw s
  | .even p hw => Sys2Proof.Machine.execEven p hw s
  | .waitv p hw => Sys2Proof.Machine.execWaitv p hw s
  | .waitvComplete p => Sys2Proof.Machine.execWaitvComplete p s
  | .rrel p hw => Sys2Proof.Machine.execRrel p hw s
  | .frd p hw => Sys2Proof.Machine.execFrd p hw s
  | .fclr p hw => Sys2Proof.Machine.execFclr p hw s
  | .rot p hw => Sys2Proof.Machine.execRot p hw s
  | .setl p hw => Sys2Proof.Machine.execSetl p hw s
  | .seth p hw => Sys2Proof.Machine.execSeth p hw s
  | .saddi p hw => Sys2Proof.Machine.execSaddi p hw s
  | .smov p hw => Sys2Proof.Machine.execSmov p hw s
  | .vld p hw => Sys2Proof.Machine.execVld p hw s
  | .vst p hw => Sys2Proof.Machine.execVst p hw s
  | .vstsh p hw => Sys2Proof.Machine.execVstsh p hw s
  | .vadd p hw => Sys2Proof.Machine.execVadd p hw s
  | .vsub p hw => Sys2Proof.Machine.execVsub p hw s
  | .vmul p hw => Sys2Proof.Machine.execVmul p hw s
  | .vmad p hw => Sys2Proof.Machine.execVmad p hw s
  | .vmax p hw => Sys2Proof.Machine.execVmax p hw s
  | .vmin p hw => Sys2Proof.Machine.execVmin p hw s
  | .vcmp p hw => Sys2Proof.Machine.execVcmp p hw s
  | .vsel p hw => Sys2Proof.Machine.execVsel p hw s
  | .vcvt p hw => Sys2Proof.Machine.execVcvt p hw s
  | .vshr p hw => Sys2Proof.Machine.execVshr p hw s
  | .vshl p hw => Sys2Proof.Machine.execVshl p hw s
  | .vexp p hw => Sys2Proof.Machine.execVexp p hw s
  | .vrcp p hw => Sys2Proof.Machine.execVrcp p hw s
  | .vrsq p hw => Sys2Proof.Machine.execVrsq p hw s
  | .vtanh p hw => Sys2Proof.Machine.execVtanh p hw s
  | .vrsum p hw => Sys2Proof.Machine.execVrsum p hw s
  | .vrmax p hw => Sys2Proof.Machine.execVrmax p hw s
  | .vbin2 p hw => Sys2Proof.Machine.execVbin2 p hw s
  | .vslide p hw => Sys2Proof.Machine.execVslide p hw s
  | .vbcst p hw => Sys2Proof.Machine.execVbcst p hw s
  | .vsplat p hw => Sys2Proof.Machine.execVsplat p hw s
  | .cancellationNotice p => Sys2Proof.Machine.execCancellationNotice p s
  | .faultNotice p => Sys2Proof.Machine.execFaultNotice p s
  | .pacelineEvent p => Sys2Proof.Machine.execPacelineEvent p s
  -- 06 Tiling, Task Descriptors and Issue Checks
  | .taskStart l => Sys2Proof.Machine.execTaskStart l s
  | .seqArrayEntry p c hw => Sys2Proof.Machine.execSeqArrayEntry p c hw s
  | .seqTvuEntry p c hw => Sys2Proof.Machine.execSeqTvuEntry p c hw s
  | .xfer p c hw => Sys2Proof.Machine.execXfer p c hw s
  | .loop p c hw => Sys2Proof.Machine.execLoop p c hw s
  | .wait p c hw => Sys2Proof.Machine.execWait p c hw s
  | .waitSatisfied p c => Sys2Proof.Machine.execWaitSatisfied p c s
  | .seqEnd p c hw => Sys2Proof.Machine.execSeqEnd p c hw s
  | .taskComplete p c => Sys2Proof.Machine.execTaskComplete p c s
  -- 07 Streams, the Paceline and Work Counters
  | .read p c => Sys2Proof.Machine.execRead p c s
  | .write p c => Sys2Proof.Machine.execWrite p c s
  | .remote p c => Sys2Proof.Machine.execRemote p c s
  | .paceOrigin p c => Sys2Proof.Machine.execPaceOrigin p c s
  | .paceForward p c => Sys2Proof.Machine.execPaceForward p c s
  | .peer p c => Sys2Proof.Machine.execPeer p c s
  | .ctake p c => Sys2Proof.Machine.execCtake p c s
  | .grant p c => Sys2Proof.Machine.execGrant p c s
  | .pring p c => Sys2Proof.Machine.execPring p c s
  | .descriptorFetch p c group => Sys2Proof.Machine.execDescriptorFetch p c group s
  | .requestResponse p c xi => Sys2Proof.Machine.execRequestResponse p c xi s
  | .timeout p c xi => Sys2Proof.Machine.execTimeout p c xi s
  | .cancellation p c => Sys2Proof.Machine.execCancellation p c s
  | .cancellationAck p c => Sys2Proof.Machine.execCancellationAck p c s
  | .grantReceived p c => Sys2Proof.Machine.execGrantReceived p c s
  | .remoteTokenReceived p c => Sys2Proof.Machine.execRemoteTokenReceived p c s
  | .pacelineBlockStored p c => Sys2Proof.Machine.execPacelineBlockStored p c s
  | .blockRelease p c => Sys2Proof.Machine.execBlockRelease p c s
  | .counterTake ctr => Sys2Proof.Machine.execCounterTake ctr s
  -- 08 The Programmable Fabric
  | .clockGeneratorEnable r g on => Sys2Proof.Machine.execClockGeneratorEnable r g on s
  | .blockMemoryAccess r bm a b => Sys2Proof.Machine.execBlockMemoryAccess r bm a b s
  | .bind r q dtile dctx drec enable => Sys2Proof.Machine.execBind r q dtile dctx drec enable s
  | .queueDataWord r q w => Sys2Proof.Machine.execQueueDataWord r q w s
  | .queueGrant r q => Sys2Proof.Machine.execQueueGrant r q s
  | .queueTokenSend r q => Sys2Proof.Machine.execQueueTokenSend r q s
  | .regionPortRequest r write addr len data => Sys2Proof.Machine.execRegionPortRequest r write addr len data s
  | .regionPortInboundToken r taken => Sys2Proof.Machine.execRegionPortInboundToken r taken s
  | .regionCloseComplete r => Sys2Proof.Machine.execRegionCloseComplete r s
  | .gpiocfgWrite w m p v => Sys2Proof.Machine.execGpiocfgWrite w m p v s
  | .ioOutputChange r val oe => Sys2Proof.Machine.execIoOutputChange r val oe s
  | .ioInputChange m p level => Sys2Proof.Machine.execIoInputChange m p level s
  | .ioChannelToken m => Sys2Proof.Machine.execIoChannelToken m s
  -- 09 Configuration Images, Loading and Scrubbing
  | .islStoreWrite c ecc => Sys2Proof.Machine.execIslStoreWrite c ecc s
  | .islImageLoad c env => Sys2Proof.Machine.execIslImageLoad c env s
  | .islRegionLoad c env => Sys2Proof.Machine.execIslRegionLoad c env s
  | .weevilRead n r crc => Sys2Proof.Machine.execWeevilRead n r crc s
  | .weevilCheck n => Sys2Proof.Machine.execWeevilCheck n s
  | .wvctlWrite w n v => Sys2Proof.Machine.execWvctlWrite w n v s
  -- 10 LPDDR5X Memory Controllers
  | .memoryRequest m port => Sys2Proof.Machine.execMemoryRequest m port s
  | .commandSlot m ch busy ecc => Sys2Proof.Machine.execCommandSlot m ch busy ecc s
  | .mirrorCopy m ch => Sys2Proof.Machine.execMirrorCopy m ch s
  | .refreshDue m ch => Sys2Proof.Machine.execRefreshDue m ch s
  | .commandTimeout m ch => Sys2Proof.Machine.execCommandTimeout m ch s
  | .mrtWrite w m e v => Sys2Proof.Machine.execMrtWrite w m e v s
  | .releaseFillComplete m e => Sys2Proof.Machine.execReleaseFillComplete m e s
  | .rtportWrite w m p v => Sys2Proof.Machine.execRtportWrite w m p v s
  | .islMemTrain c => Sys2Proof.Machine.execIslMemTrain c s
  | .trainingComplete m ch ok results => Sys2Proof.Machine.execTrainingComplete m ch ok results s
  -- 11 Serial Lanes, Vorot Links and the Peloton
  | .lncfgWrite w m l v => Sys2Proof.Machine.execLncfgWrite w m l v s
  | .laneAcquireTimeout m l => Sys2Proof.Machine.execLaneAcquireTimeout m l s
  | .laneReceive m l raw blocks => Sys2Proof.Machine.execLaneReceive m l raw blocks s
  | .laneTransmitToken r m words => Sys2Proof.Machine.execLaneTransmitToken r m words s
  | .marker m l lip sport count parity skewNs => Sys2Proof.Machine.execMarker m l lip sport count parity skewNs s
  | .link v ack nak c0 c1 c2 => Sys2Proof.Machine.execLink v ack nak c0 c1 c2 s
  | .resendTimeout v => Sys2Proof.Machine.execResendTimeout v s
  | .peerWriteFrame v f => Sys2Proof.Machine.execPeerWriteFrame v f s
  | .peerAcknowledgeFrame v f => Sys2Proof.Machine.execPeerAcknowledgeFrame v f s
  | .peerRefusalFrame v f => Sys2Proof.Machine.execPeerRefusalFrame v f s
  | .commandFrame v f => Sys2Proof.Machine.execCommandFrame v f s
  | .replyFrame v f => Sys2Proof.Machine.execReplyFrame v f s
  | .linkInit v f i0 => Sys2Proof.Machine.execLinkInit v f i0 s
  | .acknowledgeTimeout v => Sys2Proof.Machine.execAcknowledgeTimeout v s
  -- 12 Web Ingress, Position and Actions
  | .countStep m c a b => Sys2Proof.Machine.execCountStep m c a b s
  | .positionComparison c => Sys2Proof.Machine.execPositionComparison c s
  | .odocfgWrite w c v => Sys2Proof.Machine.execOdocfgWrite w c v s
  | .ingressToken m r words => Sys2Proof.Machine.execIngressToken m r words s
  | .linePartWritten st => Sys2Proof.Machine.execLinePartWritten st s
  | .ingcfgWrite w m p k v => Sys2Proof.Machine.execIngcfgWrite w m p k v s
  | .islIngRelease c => Sys2Proof.Machine.execIslIngRelease c s
  -- 13 Islamon Commands and the Ledger
  | .packetIntake src => Sys2Proof.Machine.execPacketIntake src s
  | .islAck src => Sys2Proof.Machine.execIslAck src s
  | .acceptance c => Sys2Proof.Machine.execAcceptance c s
  | .commandStart c => Sys2Proof.Machine.execCommandStart c s
  | .replySend c => Sys2Proof.Machine.execReplySend c s
  | .eventRecordSend => Sys2Proof.Machine.execEventRecordSend s
  | .islNop c => Sys2Proof.Machine.execIslNop c s
  | .islChannelSet c => Sys2Proof.Machine.execIslChannelSet c s
  | .islRead c ecc => Sys2Proof.Machine.execIslRead c ecc s
  | .islWrite c ecc => Sys2Proof.Machine.execIslWrite c ecc s
  | .islRegionClose c => Sys2Proof.Machine.execIslRegionClose c s
  | .islArm c => Sys2Proof.Machine.execIslArm c s
  | .islRun c => Sys2Proof.Machine.execIslRun c s
  | .islFreewheelEnter c => Sys2Proof.Machine.execIslFreewheelEnter c s
  | .islFreewheelLeave c => Sys2Proof.Machine.execIslFreewheelLeave c s
  | .islQuiesce c => Sys2Proof.Machine.execIslQuiesce c s
  | .quiesceDrainEnd => Sys2Proof.Machine.execQuiesceDrainEnd s
  | .islResetWarm c => Sys2Proof.Machine.execIslResetWarm c s
  | .islResetTile c => Sys2Proof.Machine.execIslResetTile c s
  | .islResetFieldDie c => Sys2Proof.Machine.execIslResetFieldDie c s
  | .islResetRim c => Sys2Proof.Machine.execIslResetRim c s
  | .islResetLane c => Sys2Proof.Machine.execIslResetLane c s
  | .islResetSpoke c => Sys2Proof.Machine.execIslResetSpoke c s
  | .islResetRegion c => Sys2Proof.Machine.execIslResetRegion c s
  | .partResetComplete u wires => Sys2Proof.Machine.execPartResetComplete u wires s
  | .partResetTimeout u stuck => Sys2Proof.Machine.execPartResetTimeout u stuck s
  | .islTaskIssue c ecc => Sys2Proof.Machine.execIslTaskIssue c ecc s
  | .islTaskCancel c => Sys2Proof.Machine.execIslTaskCancel c s
  | .islFlagsClear c => Sys2Proof.Machine.execIslFlagsClear c s
  | .islCtrSet c => Sys2Proof.Machine.execIslCtrSet c s
  | .islOdoPreset c => Sys2Proof.Machine.execIslOdoPreset c s
  | .islActArm c => Sys2Proof.Machine.execIslActArm c s
  | .islActCancel c => Sys2Proof.Machine.execIslActCancel c s
  | .islWorldSetTile c => Sys2Proof.Machine.execIslWorldSetTile c s
  | .islWorldSetCounterBank c => Sys2Proof.Machine.execIslWorldSetCounterBank c s
  | .islWorldSetLaneGroup c => Sys2Proof.Machine.execIslWorldSetLaneGroup c s
  | .islAttest c ecc => Sys2Proof.Machine.execIslAttest c ecc s
  | .pathLoss p => Sys2Proof.Machine.execPathLoss p s
  | .pathRestart p => Sys2Proof.Machine.execPathRestart p s
  | .fuseBlowOwnerRoot w chk blown => Sys2Proof.Machine.execFuseBlowOwnerRoot w chk blown s
  | .fuseDisableVendorRoot w chk blown => Sys2Proof.Machine.execFuseDisableVendorRoot w chk blown s
  -- 15 Faults, Spares and Recovery
  | .spareSubstitution => Sys2Proof.Machine.execSpareSubstitution s
  | .routeTableSwap holder => Sys2Proof.Machine.execRouteTableSwap holder s
  | .ejectionReport holder dest => Sys2Proof.Machine.execEjectionReport holder dest s
  | .dieControlTimeout n router => Sys2Proof.Machine.execDieControlTimeout n router s
  | .tandemWatchdog => Sys2Proof.Machine.execTandemWatchdog s
  | .tandemFailover cause bad => Sys2Proof.Machine.execTandemFailover cause bad s
  -- 16 Power-Up and Start-Up, 17 Signals
  | .coldReset => Sys2Proof.Machine.execColdReset s
  | .coldResetRelease env => Sys2Proof.Machine.execColdResetRelease env s
  | .tilePlacement => Sys2Proof.Machine.execTilePlacement s
  | .sealedEntry => Sys2Proof.Machine.execSealedEntry s
  | .attstatReady ecc => Sys2Proof.Machine.execAttstatReady ecc s
  | .warmReset => Sys2Proof.Machine.execWarmReset s
  | .warmResetRelease bad wires => Sys2Proof.Machine.execWarmResetRelease bad wires s
  | .laneGroupReenable g => Sys2Proof.Machine.execLaneGroupReenable g s
  | .sspWrite bytes => Sys2Proof.Machine.execSspWrite bytes s
  | .sspRead bytes => Sys2Proof.Machine.execSspRead bytes s
  | .sspCsRise => Sys2Proof.Machine.execSspCsRise s
  | .registerWrite w addr v => Sys2Proof.Machine.execRegisterWrite w addr v s
  | .cdrLockChange m l locked => Sys2Proof.Machine.execCdrLockChange m l locked s
  | .transmitUnderrun m l => Sys2Proof.Machine.execTransmitUnderrun m l s
  | .standbySelfTest pass => Sys2Proof.Machine.execStandbySelfTest pass s

end Sys2Proof.Machine
end

