-- ==== Sys2Proof/Machine/Tick.lean ====
section
/-!
DEFINITION. What happens of itself in a step that has no command to take (R39, R219, R222, R227, R239, R321; log entry 99).
-/
set_option autoImplicit false
namespace Sys2Proof.Machine

/-- Has generator `g` of region `r` a source that gives edges: its ring, or a forwarded line on which they arrive (R222, R225)? -/
def State.sourceRuns (s : State) (r g : Nat) : Bool :=
  let x : ClockGen := tget {} (s.region r).gens g
  !x.fwdSrc || bit (s.fwdckWord x.fwd.toNat) 16

/-- One event that the block's own clocks and controllers bring about. -/
def State.happen (s : State) : Config.TickEvent → State
  | .laneTime => s.laneTime
  | .edge r g => if s.sourceRuns r.val g.val then s.clockEdge r.val g.val else s
  | .fall r g => s.clockFall r.val g.val
  | .hc r key => s.hcStep r.val key
  | .portTake r => s.modRegion r.val Region.portTake

/-- The event that comes next, which the spec does not order. -/
def State.tick (s : State) : State := (s.happen (Config.tickEvent s.fresh)).bump

end Sys2Proof.Machine
end

