-- ==== Sys2Proof/Safety.lean ====
section
/-! DEFINITION. What counts as a safe step: one that answers a next state. -/
set_option autoImplicit false
namespace Sys2Proof

/-- The step from `s` runs: the supply is not commanded above its functional range, the one stop of the model. -/
def Safe (s : Machine.State) : Prop := ∃ t, Machine.step s = .next t

/-- Does a command leave the functional range of the supply (R55)? -/
def Instr.outOfRange : Instr → Bool
  | .vddfChange mv => decide (880 < mv)
  | _ => false

end Sys2Proof
end

