-- ==== Sys2Proof/WellFormed.lean ====
section
/-! DEFINITION. What an operand of a command may hold, where its type does not already say so (log entry 1). -/
set_option autoImplicit false
namespace Sys2Proof

/-- One port access stays within the depth of its word width (R229). -/
def BmAccess.wf (a : BmAccess) : Bool :=
  decide (a.addr < ([65536, 32768, 16384, 8192, 4096, 2048, 1024] : List Nat).getD a.shape.val 1024)

/-- A frame carries at most 516 data words: a packet of 4,128 bytes (R326, R373). -/
def Frame.wf (f : Frame) : Bool := decide (f.data.length ≤ 516)

/-- A segment has one spare, and each single wire counts at most three; a keel spoke has segments 0, 1 and 8 only (R13, R18). -/
def WireTest.wf (d : SpokeDir) (w : WireTest) : Bool :=
  (decide (d.val < 64) || (w.badSegs ++ w.badSpares).all (fun g => g.val = 0 || g.val = 1 || g.val = 8)) &&
  decide w.badSpares.Nodup && decide (w.ackBad ≤ 3) && decide (w.cred0Bad ≤ 3) && decide (w.cred1Bad ≤ 3)

/-- A packet on a module's stream has its header (R371). -/
def IntakeSrc.wf : IntakeSrc → Bool
  | .host _ bs => decide (32 ≤ bs.length)
  | .arrived => true

/-- What the error code shows names each code word of the data space once (R281, R282). -/
def eccWf (l : List CodeWordError) : Bool :=
  l.all (fun x => decide (x.off % 128 = 0) && decide (x.off < 0xF0000000)) && decide (l.map (fun x => (x.chan, x.off))).Nodup

/-- What the error code shows during a load. -/
def LoadEnv.wf (x : LoadEnv) : Bool := eccWf x.hashEcc && eccWf x.recEcc && eccWf x.goldenEcc

/-- Is a command well formed? -/
def Instr.wf : Instr → Bool
  | .spokeTokenReceived _ gs => decide (gs.length = 1040)
  | .wireTestComplete d w => w.wf d
  | .paceWindowClose cs _ => decide (cs.length = 16)
  | .blockMemoryAccess _ _ a b => a.all BmAccess.wf && b.all BmAccess.wf && (a.isSome || b.isSome)
  | .regionPortRequest _ wr _ len data => decide (1 ≤ len) && decide (len ≤ 4096) && (!wr || decide (data.length = len))
  | .trainingComplete _ _ ok results => !ok || decide (results.length = 8)
  | .laneReceive _ _ raw blocks => raw.isEmpty != blocks.isEmpty
  | .laneTransmitToken _ _ ws => decide (1 ≤ ws.length) && decide (ws.length ≤ 32)
  | .ingressToken _ _ ws => decide (1 ≤ ws.length) && decide (ws.length ≤ 32)
  | .peerWriteFrame _ f => f.wf
  | .peerAcknowledgeFrame _ f => f.1.wf
  | .peerRefusalFrame _ f => f.wf
  | .commandFrame _ f => f.wf
  | .replyFrame _ f => f.wf
  | .linkInit _ f i => f.wf && decide (i.credits.length = 3)
  | .packetIntake src => src.wf
  | .islAck src => src.wf
  | .partResetComplete _ ws => ws.all (fun w => w.2.wf w.1)
  | .warmResetRelease _ ws => ws.all (fun w => w.2.wf w.1)
  | .coldResetRelease env => env.wires.all (fun w => w.2.wf w.1) && decide env.tileFails.Nodup
  | .islRead _ ecc => eccWf ecc
  | .islWrite _ ecc => eccWf ecc
  | .islStoreWrite _ ecc => eccWf ecc
  | .islImageLoad _ env => env.wf
  | .islRegionLoad _ env => env.wf
  | .weevilRead _ r _ => decide (r.length = 8)
  | .commandSlot _ _ _ ecc => eccWf ecc
  | .islTaskIssue _ ecc => eccWf ecc
  | .islAttest _ ecc => eccWf ecc
  | .attstatReady ecc => eccWf ecc
  | .acknowledgeTransition .. | .creditReturn .. | .stallDetected .. | .handshakeRequest .. | .handshakeAcknowledge ..
  | .clrmin .. | .refclkLost .. | .refclkReturn .. | .vddfChange .. | .supplyMonitorColdReset .. | .conversion ..
  | .flagWordRead .. | .load .. | .loadBeat .. | .planeComplete .. | .stream .. | .rowIssue .. | .outputVectorWritten ..
  | .drain .. | .mvp .. | .fence .. | .fenceComplete .. | .arrayNop .. | .stall .. | .tvuProgramStart .. | .nop .. | .tend ..
  | .br .. | .bloop .. | .rep .. | .rete .. | .even .. | .waitv .. | .waitvComplete .. | .rrel .. | .frd .. | .fclr ..
  | .rot .. | .setl .. | .seth .. | .saddi .. | .smov .. | .vld .. | .vst .. | .vstsh .. | .vadd .. | .vsub .. | .vmul ..
  | .vmad .. | .vmax .. | .vmin .. | .vcmp .. | .vsel .. | .vcvt .. | .vshr .. | .vshl .. | .vexp .. | .vrcp .. | .vrsq ..
  | .vtanh .. | .vrsum .. | .vrmax .. | .vbin2 .. | .vslide .. | .vbcst .. | .vsplat .. | .cancellationNotice ..
  | .faultNotice .. | .pacelineEvent .. | .taskStart .. | .seqArrayEntry .. | .seqTvuEntry .. | .xfer .. | .loop .. | .wait ..
  | .waitSatisfied .. | .seqEnd .. | .taskComplete .. | .read .. | .write .. | .remote .. | .paceOrigin .. | .paceForward ..
  | .peer .. | .ctake .. | .grant .. | .pring .. | .descriptorFetch .. | .requestResponse .. | .timeout .. | .cancellation ..
  | .cancellationAck .. | .grantReceived .. | .remoteTokenReceived .. | .pacelineBlockStored .. | .blockRelease ..
  | .counterTake .. | .clockGeneratorEnable .. | .bind .. | .queueDataWord .. | .queueGrant .. | .queueTokenSend ..
  | .regionPortInboundToken .. | .regionCloseComplete .. | .gpiocfgWrite .. | .ioOutputChange .. | .ioInputChange ..
  | .ioChannelToken .. | .weevilCheck ..
  | .wvctlWrite .. | .memoryRequest .. | .mirrorCopy .. | .refreshDue .. | .commandTimeout .. | .mrtWrite ..
  | .releaseFillComplete .. | .rtportWrite .. | .islMemTrain .. | .lncfgWrite .. | .laneAcquireTimeout .. | .marker ..
  | .link .. | .resendTimeout .. | .acknowledgeTimeout .. | .countStep .. | .positionComparison .. | .odocfgWrite ..
  | .linePartWritten .. | .ingcfgWrite .. | .islIngRelease .. | .acceptance .. | .commandStart .. | .replySend ..
  | .eventRecordSend .. | .islNop .. | .islChannelSet .. | .islRegionClose .. | .islArm ..
  | .islRun .. | .islFreewheelEnter .. | .islFreewheelLeave .. | .islQuiesce .. | .quiesceDrainEnd .. | .islResetWarm ..
  | .islResetTile .. | .islResetFieldDie .. | .islResetRim .. | .islResetLane .. | .islResetSpoke .. | .islResetRegion ..
  | .partResetTimeout .. | .islTaskCancel .. | .islFlagsClear .. | .islCtrSet .. | .islOdoPreset ..
  | .islActArm .. | .islActCancel .. | .islWorldSetTile .. | .islWorldSetCounterBank .. | .islWorldSetLaneGroup ..
  | .pathLoss .. | .pathRestart .. | .fuseBlowOwnerRoot .. | .fuseDisableVendorRoot .. | .spareSubstitution ..
  | .routeTableSwap .. | .ejectionReport .. | .dieControlTimeout .. | .tandemWatchdog .. | .tandemFailover .. | .coldReset ..
  | .tilePlacement .. | .sealedEntry .. | .warmReset .. | .laneGroupReenable .. | .sspWrite .. | .sspRead ..
  | .sspCsRise .. | .registerWrite .. | .cdrLockChange .. | .transmitUnderrun .. | .standbySelfTest .. => true

end Sys2Proof
end

