-- ==== Sys2Proof/Certificates/Slice0/Obligations.lean ====
section
/-! DEFINITION. The statements of this row: what the commands do, over all states and operands, by the rules that each names. -/
set_option autoImplicit false
open Sys2Proof Sys2Proof.Machine

namespace Sys2Proof.Machine

/-! ## How the statements are written -/

/-- Command `i` completes on `s`, and the next state is as `P` says. -/
def Answers (i : Instr) (s : State) (P : State → Prop) : Prop := ∃ t, exec i s = .next t ∧ P t

/-- Nothing but tile `p` has changed (and the model's counter of free values, log entry 3). -/
def OnlyTile (p : Nat) (s t : State) : Prop :=
  t = { s with tiles := t.tiles, fresh := t.fresh } ∧ ∀ q, q ≠ p → t.tile q = s.tile q

/-- Nothing but context `c` of tile `p` has changed. -/
def OnlyCtx (p c : Nat) (s t : State) : Prop := OnlyTile p s t ∧ t.tile p = (s.tile p).setCtx c (t.ctx p c)

/-- Nothing but the spokes and their routers has changed, and of the spoke directions only `d`. -/
def OnlySide (d : Nat) (s t : State) : Prop := t = { s with spk := t.spk } ∧ ∀ e, e ≠ d → t.side e = s.side e

/-- Nothing waits at a port or in a router, and the memory has no answer waiting. -/
def Still (s : State) : Prop := (∀ x ∈ s.spk.inj, x.2 = []) ∧ (∀ x ∈ s.spk.rerouted, x.2 = []) ∧ s.mem.resps = []

/-- The load of a token has come to the port of the die at which the token was ejected. -/
def Arrived (s t : State) (n : Nat) (k : Token) : Prop :=
  t.msgs = s.msgs ++ (match k.load with
    | some (.msg m) => [m]
    | _ => []) ∧
  t.mem = { s.mem with
    net := s.mem.net ++ (match k.load with
      | some (.req r) => [r]
      | _ => [])
    resps := match k.load with
      | some (.resp r) => [r]
      | _ => [] } ∧
  t.spk.ejected = s.spk.ejected ++ (match k.load with
    | none => [(n, k)]
    | _ => [])

/-- An array command has changed nothing of its tile but context `c`, accumulator memory and the flags of engine `e`. -/
def ArrayOnly (p c : Nat) (e : Engine) (s t : State) : Prop :=
  OnlyTile p s t ∧ (t.tile p).bankA = (s.tile p).bankA ∧ (t.tile p).bankB = (s.tile p).bankB ∧
  (∀ d, d < 2 → d ≠ c → (t.tile p).ctx d = (s.tile p).ctx d) ∧ (∀ f, f ≠ e → (t.tile p).flag f = (s.tile p).flag f) ∧
  (t.tile p).vregs = (s.tile p).vregs ∧ (t.tile p).sregs = (s.tile p).sregs ∧ (t.tile p).prog = (s.tile p).prog

/-- Context `c` of tile `p` is at work on `k`, its engine is offered instruction `i` of opcode `opc`, and no range check fails. -/
def OfferedTo (s : State) (p c opc : Nat) (i : ArrInstr) (k : Task) : Prop :=
  (s.ctx p c).offered opc = some i ∧ (s.ctx p c).task = some k ∧ rangeCheck (s.tile p) k i = none

/-- The sequencer of a context has moved on past the instruction that it offered. -/
def MovedOn (x y : CtxSt) : Prop := y.offer = none ∧ y.pos = x.pos + 1 ∧ y.task = x.task ∧ y.ending = x.ending

/-- The program `g` of tile `p` is about to issue the well-formed word `w`, outside delay slots and repeats. -/
def Issues (s : State) (p : Nat) (g : Prog) (w : Word32) : Prop :=
  (s.tile p).prog = some g ∧ tget 0 (s.tile p).imem g.pc = w ∧ g.waitv = none ∧ g.slots = 0 ∧ g.rep = none ∧
  g.eventPending ((s.tile p).ctx g.ctx) = false ∧ (s.tile p).pcOk g.ctx g.pc = true ∧ tvuOpcOk (tiOpc w) = true ∧
  tvuLegal w = true

/-- The program goes on to the next word. -/
def GoesOn (g : Prog) (t : Tile) : Prop := t.prog = some { g with pc := g.pc + 1 }

/-- A vector instruction has left in VD, of the type that it names, the value `f j` in each lane that is computed, and in each
other lane what was there; everything of the tile but VD, the flags and the program counter is as before. -/
def VectorResult (p : Nat) (g : Prog) (w : Word32) (f : Nat → Word32) (s t : State) : Prop :=
  OnlyTile p s t ∧ GoesOn g (t.tile p) ∧ (t.tile p).vty (tiVD w) = tiT w ∧
  (∀ j, j < 64 → ((t.tile p).vreg (tiVD w)).getD j 0 =
    if (s.tile p).laneOn w j then f j else ((s.tile p).vreg (tiVD w)).getD j 0) ∧
  (∀ n, n < 32 → n ≠ tiVD w → (t.tile p).vreg n = (s.tile p).vreg n ∧ (t.tile p).vty n = (s.tile p).vty n) ∧
  (t.tile p).sregs = (s.tile p).sregs ∧ (t.tile p).vm = (s.tile p).vm ∧ (t.tile p).rrb = (s.tile p).rrb ∧
  (t.tile p).bankA = (s.tile p).bankA ∧ (t.tile p).bankB = (s.tile p).bankB ∧ (t.tile p).acc = (s.tile p).acc

/-- A scalar instruction has changed nothing of its tile but the scalar registers, VM and the program counter. -/
def ScalarOnly (p : Nat) (g : Prog) (s t : State) : Prop :=
  OnlyTile p s t ∧ GoesOn g (t.tile p) ∧
  t.tile p = { s.tile p with sregs := (t.tile p).sregs, vm := (t.tile p).vm, prog := (t.tile p).prog }

/-- Only the running program of tile `p` has changed. -/
def ProgOnly (p : Nat) (s t : State) : Prop :=
  OnlyTile p s t ∧ t.tile p = { s.tile p with prog := (t.tile p).prog }

/-- A VLD or VST of `w` in context `c` meets none of the conditions of ADDR_RANGE (R134). -/
def AccessOk (t : Tile) (c : Nat) (w : Word32) (store : Bool) : Bool :=
  let ar := t.sreg c (tiAR w)
  let a := (t.memAddr c w (tiFmt w)).1
  if arSpace ar = 3 then false
  else if arSpace ar = 2 then
    decide (tiFmt w = 7 ∨ tiFmt w = 8) && (!store || decide (tiSC w = 0 ∧ arLstr ar ≠ 0)) && t.accOk c a (arLstr ar)
  else t.bankOk c (arSpace ar) a (footprint (tiFmt w) 0)

/-- The program of tile `p` has met a TVU fault of subcode 2 at the word that it was to issue, and the word has neither read nor
written anything. -/
def AddrRange (p : Nat) (g : Prog) (s t : State) : Prop :=
  (t.ctx p g.ctx).fCode = 0x0B ∧ (t.ctx p g.ctx).fLoc2 = 2 ∧ (t.ctx p g.ctx).fLoc1 = BitVec.ofNat 32 g.pc ∧
  (t.tile p).prog = none ∧ (t.ctx p g.ctx).ending.isSome ∧ (t.tile p).bankA = (s.tile p).bankA ∧
  (t.tile p).bankB = (s.tile p).bankB ∧ (t.tile p).acc = (s.tile p).acc ∧ (t.tile p).vregs = (s.tile p).vregs ∧
  (t.tile p).sregs = (s.tile p).sregs

/-- Shifts and codes of a VST. -/
def storeShifts (t : Tile) (c : Nat) (w : Word32) : List Int :=
  groupShifts (tiFmt w) (tiSC w) (t.vty (tiVD w)) (tiRndM w) (t.sreg c 20) (t.vreg (tiVD w))
def storeCode (t : Tile) (c : Nat) (w : Word32) (j : Nat) : Nat :=
  (narrowTo (tiFmt w) (t.vty (tiVD w)) (tiRndM w) ((storeShifts t c w).getD (j / 16) 0) (laneOf t (tiVD w) j)).1

/-- The sequencer of context `c` stands at entry `e` of kind `kind` of task `k`. -/
def StandsAt (s : State) (p c kind : Nat) (k : Task) (e : List Word) : Prop :=
  (s.tile p).entryAt c = some (k, e) ∧ sqKind e = kind

/-- Of the whole state, only context `c` of tile `p` has changed, which is now `y`. -/
def CtxNow (p c : Nat) (y : CtxSt) (s u : State) : Prop :=
  u = { s with tiles := u.tiles } ∧ (∀ q, q ≠ p → u.tile q = s.tile q) ∧ u.tile p = (s.tile p).setCtx c y

/-- The sequencer offers transfer `xi` of task `k`, whose descriptor `d` of kind `kind` is in the store, and the engine has room. -/
def OffersAny (s : State) (p c kind : Nat) (fwd : Bool) (k : Task) (xi : Nat) (d : List Word) : Prop :=
  (s.ctx p c).task = some k ∧ (s.ctx p c).offerX = some xi ∧ (s.ctx p c).descOf xi = some d ∧ (s.ctx p c).active = true ∧
  xfKind d = kind ∧ xfFwd d = fwd ∧ (kind ≤ 5 → (s.ctx p c).xfers.length < xferLimit (s.tile p)) ∧
  ∀ f ∈ (s.ctx p c).xfers, f.id ≠ (s.ctx p c).nextX

/-- The transfer is offered, no guard holds, and `v` are the indices that it uses. -/
def OffersXfer (s : State) (p c kind : Nat) (fwd : Bool) (k : Task) (xi : Nat) (d : List Word) (v : Ixs) : Prop :=
  OffersAny s p c kind fwd k xi d ∧ (xfGuard d = true → ((s.ctx p c).xreg (xfXr d)).exh = false) ∧
  if xfNext d then nextTile k (s.ctx p c).idx = some v else v = (s.ctx p c).idx

/-- The context once its engine has taken the offered transfer as `f`. -/
def CtxSt.took (x : CtxSt) (f : Transfer) : CtxSt :=
  { x.xTaken with xfers := x.xfers ++ [{ f with id := x.nextX }], nextX := x.nextX + 1 }

/-- The context once its waiting transfer `f` has sent `n` bytes from `la` against `amt` of credit under a key. -/
def CtxSt.sent (x : CtxSt) (f : Transfer) (key amt n : Nat) (la : Int) : CtxSt :=
  { x.spend key amt with
    xfers := x.xfers.map (fun g => if g.id = f.id then { g with credited := true, inFlight := n, la := la } else g) }

/-- External address and bytes of the first request of a row transfer. -/
def firstXa (s : State) (p c : Nat) (d : List Word) (v : Ixs) : Int := extAddr (s.ctx p c) d v
def firstLen (s : State) (p c : Nat) (d : List Word) (v : Ixs) : Nat :=
  min (xfLen d) (4096 - (firstXa s p c d v % 4096).toNat)
/-- Local address of a transfer's first byte. -/
def firstLa (k : Task) (d : List Word) (v : Ixs) : Int := ((k.record (xfSb d)).2.1 : Int) + locOff k d v

/-- A row transfer as it is taken, with `n` bytes requested. -/
def rowXfer (s : State) (p c kind n : Nat) (k : Task) (xi : Nat) (d : List Word) (v : Ixs) : Transfer :=
  { id := 0, xi := xi, kind := kind, desc := d, xa := firstXa s p c d v, la := firstLa k d v, done := 0, inFlight := n }

/-- A transfer between tiles as it is taken, before it is sent. -/
def tileXfer (kind xi : Nat) (d : List Word) (la : Int) : Transfer :=
  { id := 0, xi := xi, kind := kind, desc := d, xa := 0, la := la, done := 0, inFlight := 0 }

/-- The tokens of a REMOTE of descriptor `d` with its bytes `data`, in order. -/
def remoteMsgs (p c id : Nat) (d : List Word) (data : List Byte) : List Msg :=
  let toks := (chunks 256 (xfLen d) data).zipIdx
  toks.map (fun q => .remote (xf d 1 9 0) (xf d 1 11 10) (xf d 1 15 12) (xfKey d) (xf d 1 50 32 + 256 * q.2) q.1
    (decide (q.2 + 1 = toks.length)) (.tile p c id))

/-- The paceline receive buffer of a task: bank, base and record. -/
def plBuf (k : Task) : Nat × Nat × Nat :=
  k.record (((List.range 16).find? (fun i => decide (i < k.nstr) && bits (k.sb i) 1 0 = 2)).getD 0)

/-- Nothing but region `r` has changed. -/
def OnlyRegion (r : Nat) (s t : State) : Prop :=
  t = { s with fab := { s.fab with regions := t.fab.regions } } ∧ ∀ q, q ≠ r → t.region q = s.region q

/-- Nothing but the Weevil of die `n` has changed. -/
def OnlyWeevil (n : Nat) (s t : State) : Prop :=
  t = { s with weevils := t.weevils } ∧ ∀ m, m ≠ n → t.weevil m = s.weevil m

/-- The command of entry `i` with opcode `opc` on channel `c` has started and has its effect now. -/
def Running (s : State) (c opc i : Nat) (e : LgEntry) : Prop :=
  s.keel.current = some i ∧ s.entry i = some e ∧ e.chan.toNat = c ∧ e.opc.toNat = opc ∧ e.state ≠ .complete

/-- The entry is complete with this reply, no other entry has changed, and no command is between its start and its effect. -/
def Replied (s t : State) (i : Nat) (r : Reply) : Prop :=
  (∃ e', t.entry i = some e' ∧ e'.state = .complete ∧ e'.reply = some r) ∧ (∀ j, j ≠ i → t.entry j = s.entry j) ∧
  t.keel.current = none

/-- Of the keel only the ledger and the place of the started command have changed. -/
def OnlyLedger (s t : State) : Prop :=
  t.keel = { s.keel with
    current := none, ledger := t.keel.ledger, ledgerW := t.keel.ledgerW, ledgerE := t.keel.ledgerE }

/-- A record of source `src` with word 1 `w1` stands behind the records that waited. -/
def Emitted (s t : State) (src : BitVec 8) (w1 : Word) : Prop :=
  ∃ r rest, t.keel.events = s.keel.events ++ r :: rest ∧ r.src = src ∧ r.w1 = w1

/-- The state in which a waiting load command has its image checked, after the reads of the hash pass. -/
def loadTaken (s : State) (sl : Nat) (env : LoadEnv) : State :=
  let u := ((s.modLdr (fun l => { l with waiting := l.waiting.drop 1 })).modSlot sl (fun x => { x with busy := true })).modLdr
    (fun l => { l with slot := BitVec.ofNat 3 sl })
  u.eccRange (slotBase sl) (min slotSize ((u.headerAt sl).paylen + 3076)) env.hashEcc

/-- The state in which a store write into slot `sl` reaches the store. -/
def storeTaken (s : State) (sl : Nat) : State :=
  ({ s with keel := { s.keel with current := none } } : State).modSlot sl (fun x =>
    { x with good := false, writes := satInc x.writes })

/-- The load of entry `i` has closed region `r` and is to configure it. -/
def LoadsRegion (t : State) (i sl r : Nat) (full : Bool) : Prop :=
  (t.region r).closing = some .load ∧ (t.region r).state = 2 ∧
  ∃ j, t.ldr.job = some j ∧ j.entry = i ∧ j.slot = sl ∧ j.full = full ∧ j.at_ = r ∧ j.golden = none

/-- Nothing of pin `j` has changed but the level that its bus keeper holds. -/
def PinKept (s t : State) (j : Nat) : Prop := t.pin j = { s.pin j with kept := (t.pin j).kept }

/-- A row of a block memory with data `d` and check bits `e` (R229). -/
def bmRow (d : Word) (e : Byte) : BitVec 72 := BitVec.ofNat 72 (d.toNat + e.toNat * 2 ^ 64)

/-- A block memory after an access at port A, or at port B, where there is one whose clock runs. -/
def Region.accessA (x : Region) (a : Option BmAccess) (m : BlockMem) : BlockMem :=
  match a with
  | some q => if x.clocked q.clk then m.portA q else m
  | none => m
def Region.accessB (x : Region) (b : Option BmAccess) (m : BlockMem) : BlockMem :=
  match b with
  | some q => if x.clocked q.clk then m.portB q else m
  | none => m

/-- Nothing but memory channel `ch` has changed. -/
def OnlyMchan (ch : Nat) (s t : State) : Prop :=
  t = { s with mem := { s.mem with chans := t.mem.chans } } ∧ ∀ k, k ≠ ch → t.mchan k = s.mchan k

/-- Nothing but entry `ix` of the region table, and what the memory holds, have changed. -/
def OnlyMrt (ix : Nat) (s t : State) : Prop :=
  t = { s with mem := { s.mem with mrt := t.mem.mrt, cells := t.mem.cells, coded := t.mem.coded, bad := t.mem.bad } } ∧
  ∀ k, k ≠ ix → t.mrtE k = s.mrtE k

/-- Key `k` is that of a byte in the area of entry `ix`, its mirror area included (R282). -/
def InArea (ix : Nat) (e : MrtEntry) (k : Nat) : Prop :=
  ∃ c, c < 40 ∧ (
    (memKey (40 * (ix / 256) + c) (homeBase ix) ≤ k ∧ k < memKey (40 * (ix / 256) + c) (homeBase ix) + 8 * mib) ∨
    (e.mirror = true ∧ memKey (40 * (1 - ix / 256) + c) (mirrorBase e) ≤ k ∧
      k < memKey (40 * (1 - ix / 256) + c) (mirrorBase e) + 8 * mib))

/-- Every byte of the area of an entry holds no defined value, and every other byte is as it was. -/
def AreaForgotten (ix : Nat) (e : MrtEntry) (s t : State) : Prop :=
  ∀ k, (InArea ix e k → tlook k t.mem.cells = none) ∧ (¬ InArea ix e k → tlook k t.mem.cells = tlook k s.mem.cells)

/-- The fields of a region table entry as a write of `v` leaves them, its world apart (R287, R288). -/
def MrtEntry.asWritten (x : MrtEntry) (v : Word) : MrtEntry :=
  { x with
    valid := bit v 0, mirror := if x.valid then x.mirror else bit v 2, ilv := if x.valid then x.ilv else bit v 3
    codec := if x.valid then x.codec else bit v 6, cls := BitVec.ofNat 2 (bits v 5 4)
    mslot := if x.valid = false ∧ bits v 15 8 < 160 then BitVec.ofNat 8 (bits v 15 8) else x.mslot }

/-- Another entry of the rim has, or is still to release, the mirror slot of `e`. -/
def SlotTaken (s : State) (ix : Nat) (e : MrtEntry) : Prop :=
  ∃ x ∈ s.mem.mrt, x.1 ≠ ix ∧ x.1 / 256 = ix / 256 ∧ (x.2.valid = true ∨ x.2.release.isSome) ∧ x.2.mirror = true ∧
    x.2.mslot = e.mslot

/-- The parts stand in the queues of their channels, behind what waited there, under the present AGE of their rim. -/
def Queued (ps : List (Nat × Part)) (s t : State) : Prop :=
  ∀ ch, (t.mchan ch).queue = (s.mchan ch).queue ++
    (ps.filter (fun x => decide (x.1 = ch))).map (fun x => { x.2 with lim := (tget ({} : Mctl) s.mem.mctl (ch / 40)).age.toNat })

/-- Part `p` no longer waits in the queue of channel `ch`; nothing but that channel, the bytes, the pending requests and the records
of what is wrong in the memory has changed. -/
def PartIssued (ch rid : Nat) (s u : State) : Prop :=
  u = { s with mem := u.mem } ∧ (∀ k, k ≠ ch → u.mchan k = s.mchan k) ∧ u.mem.net = s.mem.net ∧ u.mem.resps = s.mem.resps ∧
  u.mem.mrt = s.mem.mrt ∧ u.mem.copies = s.mem.copies ∧ (∀ j, j ≠ rid → tlook j u.mem.pend = tlook j s.mem.pend) ∧
  (u.mchan ch).queue.length + 1 = (s.mchan ch).queue.length

/-- The pieces of a write lie in memory. -/
def putPieces (ch : Nat) (p : Part) (m : List Host.Cell) : List Host.Cell :=
  p.pieces.foldl (fun m q => memPut (memKey ch q.off) ((p.data.drop q.pos).take q.len) m) m

/-- A bank's activation count lowered by a refresh or an RFM. -/
def loweredRaa (s : State) (ch b : Nat) : Table Nat :=
  match s.mem.raaimt with
  | some t => tput b (tget 0 (s.mchan ch).raa b - t.1) (s.mchan ch).raa
  | none => (s.mchan ch).raa

/-- Nothing but lane `i` has changed. -/
def OnlyLane (i : Nat) (s t : State) : Prop :=
  t = { s with ser := { s.ser with lanes := t.ser.lanes } } ∧ ∀ j, j ≠ i → t.lane j = s.lane j

/-- Nothing but Vorot port `v` has changed. -/
def OnlyPort (v : Nat) (s t : State) : Prop :=
  t = { s with ser := { s.ser with ports := t.ser.ports } } ∧ ∀ u, u ≠ v → t.port u = s.port u

/-- Port `v` accepts frame `f` of kind `kind`: aligned or up, the check value sound, and the number the expected one. -/
def AcceptsFrame (s : State) (v kind : Nat) (f : Frame) : Prop :=
  2 ≤ (s.port v).state.toNat ∧ fsKind f.hdr = kind ∧ f.crc = frameCrc f.hdr f.data ∧ fsSeq f.hdr = (s.port v).rxSeq

/-- The port expects the next number, and has sent a LINK block with `units` credit of channel `vc` for the frame. -/
def FrameTaken (s t : State) (v vc units : Nat) : Prop :=
  (t.port v).rxSeq = (s.port v).rxSeq + 1 ∧
  (t.port v).links = (s.port v).links ++ [((s.port v).rxSeq, false, if vc = 0 then units else 0,
    if vc = 1 then units else 0, if vc = 2 then units else 0)]

/-- The lane receives words for its region. -/
def LaneReceives (x : Lane) : Prop := x.en = true ∧ (x.state = 1 ∨ x.state = 2) ∧ x.cdr = true ∧ x.prbs = 0

/-- The raw words that a lane hears: its own in a near-end loop, else those at its pins, in its polarity (R315, R323). -/
def rawHeard (x : Lane) (ws : List Word) : List Word :=
  if x.loopMode = 2 then x.sent.map (·.2)
  else if x.loopMode = 1 then (if bit x.cfg 10 = bit x.cfg 11 then x.sent.map (·.2) else x.sent.map (fun w => ~~~ w.2))
  else if bit x.cfg 11 then ws.map (fun w => ~~~ w) else ws

/-- What the lane has on its transmitter after it has heard them: the far-end loop sends them out again (R323). -/
def rawResent (x : Lane) (gs : List Word) : List (BitVec 2 × Word) :=
  if x.loopMode = 0 then x.sent else if x.loopMode = 3 then gs.map (fun w => (0, w)) else []

/-- Nothing but the stream `st` and the fill of its port has changed. -/
def OnlyStream (st : Nat) (s t : State) : Prop :=
  t = { s with web := { s.web with streams := t.web.streams }, mem := { s.mem with rtport := t.mem.rtport } } ∧
  (∀ j, j ≠ st → t.stream_ j = s.stream_ j) ∧
  ∀ j, j ≠ st → tget ({} : RtPort) t.mem.rtport j = tget ({} : RtPort) s.mem.rtport j

/-- Fill of a stream's port buffer (R360). -/
def State.fillOf (s : State) (st : Nat) : Nat := (tget ({} : RtPort) s.mem.rtport st).fill

/-- Channel `c` counts on rim `m` at pins `ia` and `ib`, on which levels `a` and `b` now stand; `na` and `nb` are its phases. -/
def Counts (s : State) (m c ia ib : Nat) (a b na nb : Bool) : Prop :=
  (s.odo c).en = true ∧ s.phasePin m c 0 = some ia ∧ s.phasePin m c 1 = some ib ∧ na = (a != (s.pin ia).inv) ∧
  nb = (b != (s.pin ib).inv)

/-- The entries of the action table that wait on channel `c` of rim `m`: armed or pulsing. -/
def State.waitingActs (s : State) (m c : Nat) : List Nat :=
  s.actsWhere (fun a => decide (a.st ≠ 0) && decide (a.ch = c) && decide (a.rim = m))

/-- Nothing but the levels at pins `is`, the channels and the action table has changed, and of the channels only `c`. -/
def OnlyOdo (c : Nat) (is : List Nat) (s t : State) : Prop :=
  t = { s with web := { s.web with odo := t.web.odo, acts := t.web.acts }, fab := { s.fab with pins := t.fab.pins }, keel := t.keel } ∧
  (∀ d, d ≠ c → t.odo d = s.odo d) ∧ ∀ i, i ∉ is → t.pin i = s.pin i

/-- The channel after one step to `next`: a preset armed at that position puts its value there and ends. -/
def OdoCh.stepped (o : OdoCh) (m : Nat) (next : BitVec 48) : OdoCh :=
  match o.pre m with
  | some (at_, v) => if at_ = next then { (o.setPos m v).setPre m none with split := false } else o.setPos m next
  | none => o.setPos m next

/-- The action record of entry `k`. -/
def State.actRec (s : State) (k outcome : Nat) (x : ActEntry) (pos : BitVec 48) : State :=
  s.emit 5 x.world (packF [(0, 14, k), (14, 2, outcome), (16, 2, x.ch)]) (pos.setWidth 64) (BitVec.ofNat 64 x.tag)

/-- The latch of an action pin after an entry fires (R350). -/
def firedLatch (op : Nat) (old : Bool) : Bool := if op = 0 then true else if op = 1 then false else if op = 2 then old else !old

/-- Packet `p` of `src` reaches the keel on `path`: the path carries packets, and no earlier packet of the channel is being accepted.
`s'` is the state without the packet. -/
def Arrives (s s' : State) (src : IntakeSrc) (path : OutPath) (p : Packet) : Prop :=
  s.up = true ∧ (∀ a ∈ s.keel.accepting, a.chan ≠ p.chan) ∧
  match src with
  | .host m bytes => s.lostPath (.host m) = false ∧ packetOfBytes bytes = some p ∧ path = .host m ∧ s' = s
  | .arrived => ∃ code rest, s.keel.arrived = (code, p) :: rest ∧ path = (if code = 2 then .ssp else .vorot) ∧
      s' = { s with keel := { s.keel with arrived := rest } }

/-- A lead has the packet for another member. -/
def ForOther (s : State) (path : OutPath) (p : Packet) : Prop :=
  s.lead = true ∧ path ≠ .vorot ∧ 1 ≤ p.member ∧ p.member ≤ 63 ∧ p.member ≠ s.pelNum

/-- A check notice for `p` with a reason has been handed to `path` (R375, R380). -/
def Noticed (s t : State) (path : OutPath) (p : Packet) (member reason : Nat) : Prop :=
  let x := s.chan p.chan
  t = (if x.isOpen then s.modChan p.chan (fun y => { y with devAlive := y.devAlive + 1 }) else s).sendOut path
    (rpPacket 1 true false x.world 0x14 p.seq p.chan member 0 0 (if x.isOpen then x.devAlive.toNat else 0) (BitVec.ofNat 64 reason)
      (x.next.setWidth 64))

/-- The entries of channel `c` that a RACK frees (R378, R390): those whose reply has been sent and is covered. -/
def freedBy (s : State) (c rack : Nat) : List (Nat × LgEntry) :=
  s.keel.ledger.filter (fun x => decide (x.2.chan.toNat = c) && decide (x.2.state = .complete) && decide (x.2.seq.toNat ≤ rack) &&
    decide (x.2.seq.toNat < (s.chan c).replyNext))

/-- R377, R378, R390: a packet of channel `c` has passed: its alive count has advanced, the entries that its RACK covers are free, no
other is touched, and their cost is the host's again: as credit when no reply of the channel waits, else to ride in that reply. -/
def Passed (s t : State) (c rack : Nat) : Prop :=
  let n := (freedBy s c rack).length
  let units := (freedBy s c rack).foldl (fun a x => a + unitsOf x.2.plen.toNat) 0
  let x := s.chan c
  let y := t.chan c
  (∀ j, (∃ e, (j, e) ∈ freedBy s c rack) → t.entry j = none) ∧ (∀ j, (∀ e, (j, e) ∉ freedBy s c rack) → t.entry j = s.entry j) ∧
  y.alivExp = x.alivExp + 1 ∧ y.next = x.next ∧ y.replyNext = x.replyNext ∧ y.isOpen = x.isOpen ∧ y.world = x.world ∧
  y.heldE + y.freedE = x.heldE + x.freedE + n ∧ y.heldP + y.freedP = x.heldP + x.freedP + units ∧
  (s.replyWaits c = true → y.heldE = x.heldE ∧ y.heldP = x.heldP ∧ t.keel.out = s.keel.out) ∧
  (s.replyWaits c = false → x.freedE + n ≤ 524288 → x.freedP + units ≤ 524288 → y.freedE = 0 ∧ y.freedP = 0) ∧
  (∀ d, d ≠ c → t.chan d = s.chan d) ∧
  t.keel = { s.keel with
    chans := t.keel.chans, ledger := t.keel.ledger, ledgerW := t.keel.ledgerW, ledgerE := t.keel.ledgerE, pstoreW := t.keel.pstoreW
    pstoreE := t.keel.pstoreE, rebuilt := t.keel.rebuilt, out := t.keel.out, accepting := t.keel.accepting } ∧
  t = { s with keel := t.keel, ssp := t.ssp, ser := t.ser }

/-- A command changes the device state, leaves its mark there and replies OK (R387, R403). -/
def Enters (s t : State) (i : Nat) (e : LgEntry) (d : DevState) : Prop :=
  Replied s t i { status := 0x00 } ∧ t.keel.dstate = d ∧ t.keel.prev = s.keel.dstate ∧
  t.keel.stateMark = some (e.markOf 0x00) ∧ t = { s with keel := t.keel } ∧
  t.keel = { s.keel with
    current := none, ledger := t.keel.ledger, ledgerW := t.keel.ledgerW, ledgerE := t.keel.ledgerE, dstate := d
    prev := s.keel.dstate, stateMark := t.keel.stateMark }

/-- The state with no command between its start and its effect. -/
def State.begun (s : State) : State := { s with keel := { s.keel with current := none } }

/-- The command is answered with a status and nothing else happens. -/
def Refuses (i : Instr) (s : State) (n : Nat) (st : BitVec 8) : Prop :=
  Answers i s (fun t => Replied s t n { status := st } ∧ OnlyLedger s t ∧ t = { s with keel := t.keel })

/-- What bars a world from a range that `ISL_READ` names (R254, R286, R395): 3 its world, 4 its place, 0 nothing. -/
def readBar (s : State) (w : World) (a n : Nat) : Nat :=
  if slotBase 0 ≤ a ∧ a + n ≤ 0xF400000000 then (if w = false ∧ slotWorld ((a - slotBase 0) / slotSize) = true then 3 else 0)
  else if 0xF800000000 ≤ a ∧ a + n ≤ 0xF801000000 then (if w then 0 else 3)
  else s.memCheck w a n

/-- Entry `i` is complete with this reply. -/
def RepliedWith (t : State) (i : Nat) (r : Reply) : Prop := ∃ e', t.entry i = some e' ∧ e'.state = .complete ∧ e'.reply = some r

/-- Neither context of tile `p` has a task, its banks and accumulator memory read as zero, and so do its flag words. -/
def TileCleared (t : State) (p : Nat) : Prop :=
  (t.ctx p 0).task = none ∧ (t.ctx p 1).task = none ∧ (∀ b a, (t.tile p).rd b a = 0) ∧ (∀ n, (t.tile p).acc_rd n = 0) ∧
  ∀ g, (t.tile p).flag g = {}

/-- A reset command of kind `k` and target `n` has been entered: its job waits, and its mark is left. -/
def ResetEntered (s t : State) (i k n : Nat) (e : LgEntry) : Prop :=
  t.flt.resets = s.flt.resets ++ [{ kind := k, target := n, entry := some i }] ∧ t.keel.resetMark = some (e.markOf 0x00) ∧
  t.keel.current = none

/-- The started command is a reset of kind `k` with an existing target `n`. -/
def ResetOf (s : State) (c i k n : Nat) (e : LgEntry) : Prop :=
  Running s c 0x28 i e ∧ bits (s.pw i 0) 2 0 = k ∧ bits (s.pw i 0) 15 8 = n ∧ s.rsvd i [(0, 7, 3), (0, 63, 16)] = false

/-- No spoke has failed. -/
def SpokesSound (s : State) : Prop := ∀ i, i < 34 → (s.side (2 * i)).state ≠ 2

/-- A record of source `src` is the last that was emitted. -/
def LastEmitted (t : State) (src : Nat) (w1 w2 : Word) : Prop :=
  ∃ (u : State) (w : World) (w3 : Word), t.keel.events = (u.emit src w w1 w2 w3).keel.events

/-- A side of a spoke that stops for its wire test. -/
def SpokeSide.stopped (x : SpokeSide) : SpokeSide :=
  if x.state = 0 then { x with state := 1, onWire := false, ackDue := false } else x

/-- Side `d` of `t` is `x` but for what the tokens that it holds carry. -/
def SideLike (t : State) (d : Nat) (x : SpokeSide) : Prop :=
  { t.side d with rx0 := x.rx0, rx1 := x.rx1, held := x.held } = x ∧ (t.side d).rx0.length = x.rx0.length ∧
  (t.side d).rx1.length = x.rx1.length ∧ (t.side d).held.isSome = x.held.isSome

/-- What holds in every state that a run reaches: the listed bytes of memory in their canonical form, the three copies of the
ledger equal, and at most 16,384 event records waiting. -/
def BlockInv (s : State) : Prop :=
  Memory.wf s.mem ∧ s.keel.ledgerW = s.keel.ledger ∧ s.keel.ledgerE = s.keel.ledger ∧ s.keel.events.length ≤ 16384

end Sys2Proof.Machine

/-- The step of the block: with command `c` at the front of its queue it is `exec` of `c` on the state with the queue's rest.
The queue is the model's (log entry 2). -/
def Obligations.StepRunsFrontCommand : Prop :=
  ∀ (c : Instr) (rest : List Instr) (s : State),
    step { s with pending := c :: rest } = exec c { s with pending := rest }

/-- R14 to R20, R28 to R30: spoke ends. A receiver stores a whole token that is new and has a buffer, discards one whose toggle
it has seen, and acknowledges both; a code error stops the direction for repair. An acknowledge frees the sender's buffer.
The oldest token of a receive buffer is ejected at its die, or driven on, when its turn at the output comes, and its credit
goes back. A stall is counted and stops the direction. A wire test that passes sets the spare map and resends the held
token; one that fails marks the spoke failed, hands its tokens back to the routers and asks for new tables. No other spoke
changes. R36, R38: the four-phase handshake of one boundary. A request raised while acknowledge is low puts new data on the
lines, and acknowledge rises once the receiver has stored it; a sender that lowers request before that leaves the
acknowledge to fall as soon as it comes; once acknowledge is high both fall. While acknowledge is high a request changes
nothing. -/
def Obligations.SpokesAndBoundaries : Prop :=
  ((∀ (d : Fin 68) (gs : List (BitVec 4)) (s : State) (k : Token),
    s.spokesRun = true → (s.side d.val).state = 0 → (s.side d.val).onWire = true → (s.side d.val).held = some k →
    codeError gs = false → tokenOf d.val gs = some (k.data, k.route) → (s.side d.val).lastTog ≠ some k.toggle →
    ((s.side d.val).rx k.vc1).length < 4 →
    Answers (.spokeTokenReceived d gs) s (fun t => OnlySide d.val s t ∧
      t.side d.val = { (s.side d.val).setRx k.vc1 ((s.side d.val).rx k.vc1 ++ [k]) with
        lastTog := some k.toggle, ack := !(s.side d.val).ack, ackDue := true, onWire := false })) ∧
  (∀ (d : Fin 68) (gs : List (BitVec 4)) (s : State) (k : Token),
    s.spokesRun = true → (s.side d.val).state = 0 → (s.side d.val).onWire = true → (s.side d.val).held = some k →
    codeError gs = false → tokenOf d.val gs = some (k.data, k.route) → (s.side d.val).lastTog = some k.toggle →
    Answers (.spokeTokenReceived d gs) s (fun t => OnlySide d.val s t ∧
      t.side d.val = { s.side d.val with ack := !(s.side d.val).ack, ackDue := true, onWire := false })) ∧
  (∀ (d : Fin 68) (gs : List (BitVec 4)) (s : State),
    s.spokesRun = true → (s.side d.val).state = 0 → (s.side d.val).onWire = true → codeError gs = true →
    Answers (.spokeTokenReceived d gs) s (fun t => OnlySide d.val s t ∧
      t.side d.val = { s.side d.val with
        codeErr := satInc (s.side d.val).codeErr, state := 1, onWire := false, ackDue := false })) ∧
  (∀ (d : Fin 68) (s : State), s.spokesRun = true → (s.side d.val).state = 0 → (s.side d.val).ackDue = true → Still s →
    Answers (.acknowledgeTransition d) s (fun t => OnlySide d.val s t ∧
      t.side d.val = { s.side d.val with held := none, ackDue := false })) ∧
  (∀ (d : Fin 68) (vc1 : Bool) (s : State) (k : Token) (rest : List Token),
    s.spokesRun = true → Still s → (s.side d.val).rx vc1 = k :: rest → k.dst = dirTo d.val →
    (∀ r, k.load = some (.resp r) → ∃ p c x, r.src = .xfer p c x) →
    s.turn (dirTo d.val) (68 + k.dstPort) d.val k = true →
    Answers (.creditReturn d vc1) s (fun t => Arrived s t (dirTo d.val) k ∧
      t = { s with spk := t.spk, msgs := t.msgs, mem := t.mem } ∧
      t.side d.val = ((s.side d.val).setRx vc1 rest).refund vc1 ∧ ∀ e, e ≠ d.val → t.side e = s.side e)) ∧
  (∀ (d : Fin 68) (vc1 : Bool) (s : State) (k : Token) (rest : List Token) (o : Nat),
    s.spokesRun = true → Still s → (s.side d.val).rx vc1 = k :: rest → o ≠ d.val → s.outDir (dirTo d.val) k = some o → o < 68 →
    s.turn (dirTo d.val) o d.val k = true →
    Answers (.creditReturn d vc1) s (fun t => t = { s with spk := t.spk } ∧
      t.side d.val = ((s.side d.val).setRx vc1 rest).refund vc1 ∧
      t.side o = { (s.side o).spend k.vc1 with
        held := some { k.setToggle (!(s.side o).txToggle) with via := dirFrom o :: k.via }
        onWire := true, txToggle := !(s.side o).txToggle } ∧
      ∀ e, e ≠ d.val → e ≠ o → t.side e = s.side e)) ∧
  (∀ (d : Fin 68) (s : State), s.spokesRun = true → (s.side d.val).state = 0 → (s.side d.val).held.isSome →
    Answers (.stallDetected d) s (fun t => OnlySide d.val s t ∧
      t.side d.val = { s.side d.val with
        stalls := satInc (s.side d.val).stalls, state := 1, onWire := false, ackDue := false })) ∧
  (∀ (d : Fin 68) (w : WireTest) (s : State), s.spokesRun = true → (s.side d.val).state = 1 → wireFails d.val w = false →
    (∀ i, i < 34 → (s.side (2 * i)).state ≠ 2) → Still s →
    Answers (.wireTestComplete d w) s (fun t => (∀ e, e ≠ d.val → t.side e = s.side e) ∧
      t.side d.val = { s.side d.val with
        state := 0, segMask := wireMask d.val w, onWire := (s.side d.val).held.isSome } ∧
      t = { s with spk := t.spk, keel := t.keel } ∧ (wireMask d.val w = 0 → t.keel = s.keel))) ∧
  (∀ (d : Fin 68) (w : WireTest) (s : State), s.spokesRun = true → (s.side d.val).state = 1 → wireFails d.val w = true →
    (s.side (2 * (d.val / 2))).state ≠ 2 → Still s →
    (∀ n, n < 16 → ∃ i ∈ spokesOf n, i ≠ d.val / 2 ∧ (s.side (2 * i)).state ≠ 2) →
    Answers (.wireTestComplete d w) s (fun t =>
      (t.side (2 * (d.val / 2))).state = 2 ∧ (t.side (2 * (d.val / 2) + 1)).state = 2 ∧
      (t.side (2 * (d.val / 2))).held = none ∧ (t.side (2 * (d.val / 2) + 1)).held = none ∧
      (∀ e, e / 2 ≠ d.val / 2 → t.side e = s.side e) ∧
      ∃ j, t.flt.swaps = s.flt.swaps ++ [j] ∧ j.dieTab = true ∧ j.bg.spokes = d.val / 2 :: s.lastRoutes.spokes))) ∧
  ((∀ (b : Nat) (data : Word) (s : State),
    (tget ({} : Boundary) s.tim.boundaries b).req = false → (tget ({} : Boundary) s.tim.boundaries b).ack = false →
    Answers (.handshakeRequest b (data, true)) s (fun t =>
      t = { s with tim := { s.tim with boundaries := t.tim.boundaries } } ∧
      tget ({} : Boundary) t.tim.boundaries b = { data := data, req := true, ack := true, captured := some data, early := false } ∧
      ∀ a, a ≠ b → tget ({} : Boundary) t.tim.boundaries a = tget {} s.tim.boundaries a)) ∧
  (∀ (b : Nat) (data : Word) (s : State),
    (tget ({} : Boundary) s.tim.boundaries b).req = false → (tget ({} : Boundary) s.tim.boundaries b).ack = false →
    Answers (.handshakeRequest b (data, false)) s (fun t =>
      t = { s with tim := { s.tim with boundaries := t.tim.boundaries } } ∧
      tget ({} : Boundary) t.tim.boundaries b =
        { tget ({} : Boundary) s.tim.boundaries b with data := data, req := true, early := false } ∧
      ∀ a, a ≠ b → tget ({} : Boundary) t.tim.boundaries a = tget {} s.tim.boundaries a)) ∧
  (∀ (b : Nat) (data : Word) (stored : Bool) (s : State), (tget ({} : Boundary) s.tim.boundaries b).ack = true →
    exec (.handshakeRequest b (data, stored)) s = .next s) ∧
  (∀ (b : Nat) (data : Word) (s : State),
    (tget ({} : Boundary) s.tim.boundaries b).req = true → (tget ({} : Boundary) s.tim.boundaries b).ack = false →
    Answers (.handshakeRequest b (data, true)) s (fun t =>
      t = { s with tim := { s.tim with boundaries := t.tim.boundaries } } ∧
      (tget ({} : Boundary) t.tim.boundaries b).captured = some (tget ({} : Boundary) s.tim.boundaries b).data ∧
      (tget ({} : Boundary) t.tim.boundaries b).data = (tget ({} : Boundary) s.tim.boundaries b).data ∧
      (tget ({} : Boundary) t.tim.boundaries b).req = !(tget ({} : Boundary) s.tim.boundaries b).early ∧
      (tget ({} : Boundary) t.tim.boundaries b).ack = !(tget ({} : Boundary) s.tim.boundaries b).early)) ∧
  (∀ (b : Nat) (s : State), (tget ({} : Boundary) s.tim.boundaries b).req = true →
    Answers (.handshakeAcknowledge b) s (fun t =>
      t = { s with tim := { s.tim with boundaries := t.tim.boundaries } } ∧
      ((tget ({} : Boundary) s.tim.boundaries b).ack = true → tget ({} : Boundary) t.tim.boundaries b =
        { tget ({} : Boundary) s.tim.boundaries b with req := false, ack := false }) ∧
      ((tget ({} : Boundary) s.tim.boundaries b).ack = false → tget ({} : Boundary) t.tim.boundaries b =
        { tget ({} : Boundary) s.tim.boundaries b with early := true }) ∧
      ∀ a, a ≠ b → tget ({} : Boundary) t.tim.boundaries a = tget {} s.tim.boundaries a)))

/-- R43 to R48: the first close after the reference has come opens a window. At each close after that a die that is not isolated
takes its count as `CUR`, its `MIN` falls to it or is loaded with it when a clear was requested, `SEQ` advances and `VALID`
is set; an isolated die keeps `CUR`. The device takes the count of the slowest die and names it in `SLOW`. CLRMIN from the
secure world asks for a clear, and one from the other world has no effect. R50: the loss of REFCLK_K closes the window that
was open, ends the transaction of the serial slave port, and loses that path. While it is missing every `PACE.STATE` reads
2, every `VALID` bit 0, `CUR` and `MIN` keep their values, and no window closes. Its return changes nothing else, and no
window is open then. R58, R59: a conversion outside a cold reset, or after a trip, stores the temperature of its die, its
alarm, and a trip that stays; at 15 °C above the top of the grade THERMTRIP_N is driven. When the die is above the top with
its record armed, record 0x02 goes out and is no longer armed; at 5 °C below the top it is armed again. Nothing else
changes. That the open window is discarded, and that words of isolated dies stay, is the model's reading (log entry 46). -/
def Obligations.PaceAndTemperature : Prop :=
  ((∀ (cs : List (BitVec 16)) (es : List (Nat × Nat)) (s : State),
    s.tim.refclk = true → s.boot.phase ≠ .held → s.tim.windowOpen = false →
    exec (.paceWindowClose cs es) s = .next { s with tim := { s.tim with windowOpen := true } }) ∧
  (∀ (cs : List (BitVec 16)) (es : List (Nat × Nat)) (s : State),
    s.tim.refclk = true → s.boot.phase ≠ .held → s.tim.windowOpen = true →
    Answers (.paceWindowClose cs es) s (fun t =>
      t = { s with tim := t.tim, keel := t.keel, fab := t.fab } ∧ t.fab.pins = s.fab.pins ∧ t.tim.clrReq = false ∧
      (∀ n, n < 16 → (tget ({} : PaceWord) t.tim.pace n).seq = (tget ({} : PaceWord) s.tim.pace n).seq + 1) ∧
      (∀ n, n < 16 → s.dieState n ≠ 3 →
        (tget ({} : PaceWord) t.tim.pace n).cur = cs.getD n 0 ∧ (tget ({} : PaceWord) t.tim.pace n).valid = true ∧
        (s.tim.clrReq = true → (tget ({} : PaceWord) t.tim.pace n).min = cs.getD n 0) ∧
        (s.tim.clrReq = false → (tget ({} : PaceWord) t.tim.pace n).min.toNat =
          min (cs.getD n 0).toNat (tget ({} : PaceWord) s.tim.pace n).min.toNat) ∧
        t.tim.dpace.cur.toNat ≤ (cs.getD n 0).toNat ∧ t.tim.dpace.valid = true ∧
        t.tim.slow.toNat < 16 ∧ s.dieState t.tim.slow.toNat ≠ 3 ∧ t.tim.dpace.cur = cs.getD t.tim.slow.toNat 0) ∧
      (∀ n, n < 16 → s.dieState n = 3 →
        (tget ({} : PaceWord) t.tim.pace n).cur = (tget ({} : PaceWord) s.tim.pace n).cur ∧
        (tget ({} : PaceWord) t.tim.pace n).valid = (tget ({} : PaceWord) s.tim.pace n).valid ∧
        (tget ({} : PaceWord) t.tim.pace n).min =
          if s.tim.clrReq then (tget ({} : PaceWord) s.tim.pace n).cur else (tget ({} : PaceWord) s.tim.pace n).min))) ∧
  (∀ s : State, s.up = true → exec (.clrmin true) s = .next { s with tim := { s.tim with clrReq := true } }) ∧
  (∀ s : State, exec (.clrmin false) s = .next s)) ∧
  ((∀ s : State,
    Answers .refclkLost s (fun t =>
      t = { s with tim := { s.tim with refclk := false, windowOpen := false }, ssp := t.ssp
                   keel := { s.keel with lostPaths := t.keel.lostPaths } } ∧
      (∀ q, q ∈ t.keel.lostPaths ↔ (q = .ssp ∨ q ∈ s.keel.lostPaths)) ∧
      t.ssp.active = false ∧ t.ssp.rx = [] ∧ t.ssp.held = s.ssp.held ∧
      (∀ n, bits (t.paceWord n) 42 41 = 2 ∧ bit (t.paceWord n) 40 = false ∧
        bits (t.paceWord n) 15 0 = bits (s.paceWord n) 15 0 ∧ bits (t.paceWord n) 31 16 = bits (s.paceWord n) 31 16) ∧
      bit t.dpaceWord 40 = false ∧ bits t.dpaceWord 31 0 = bits s.dpaceWord 31 0 ∧
      ∀ (cs : List (BitVec 16)) (es : List (Nat × Nat)), exec (.paceWindowClose cs es) t = .next t)) ∧
  (∀ s : State, exec .refclkReturn s = .next { s with tim := { s.tim with refclk := true } })) ∧
  (∀ (n : Fin 19) (tj : BitVec 12) (s : State),
    (s.boot.phase = .held → s.tim.thermTrip = false → exec (.conversion n tj) s = .next s) ∧
    (s.boot.phase ≠ .held ∨ s.tim.thermTrip = true →
    let old : TempWord := tget {} s.tim.temps n.val
    let new : TempWord := {
      tj := tj, valid := true, alarm := decide (s.gradeTop < tj.toInt), trip := old.trip || decide (s.gradeTop + 120 ≤ tj.toInt)
      armed := !decide (s.gradeTop < tj.toInt) && (old.armed || decide (tj.toInt ≤ s.gradeTop - 40)) }
    Answers (.conversion n tj) s (fun t =>
      tget ({} : TempWord) t.tim.temps n.val = new ∧
      (∀ m, m ≠ n.val → tget ({} : TempWord) t.tim.temps m = tget {} s.tim.temps m) ∧
      t = { s with tim := { s.tim with temps := t.tim.temps, thermTrip := s.tim.thermTrip || decide (s.gradeTop + 120 ≤ tj.toInt) }
                   keel := t.keel } ∧
      (s.gradeTop < tj.toInt → old.armed = true →
        t.keel = (s.emit 2 false new.word (packF [(0, 16, s.tim.dpace.cur.toNat), (16, 5, n.val)]) 0).keel) ∧
      ((tj.toInt ≤ s.gradeTop ∨ old.armed = false) → t.keel = s.keel))))

/-- R49: a window that closes with DPACE.CUR below the floor emits one pace record with the DPACE word and the temperature word
of the slowest die, and no further one until a window closes with DPACE.CUR at or above the floor. -/
def Obligations.PaceEvent : Prop :=
  ∀ (cs : List (BitVec 16)) (es : List (Nat × Nat)) (s : State),
    s.tim.refclk = true → s.boot.phase ≠ .held → s.tim.windowOpen = true →
    Answers (.paceWindowClose cs es) s (fun t =>
      (t.tim.dpace.valid = true → t.tim.dpace.cur.toNat < s.tim.floor.toNat → s.tim.floorArmed = true →
        s.keel.events.length < 16384 →
        t.tim.floorArmed = false ∧
        ∃ r, t.keel.events = s.keel.events ++ [r] ∧ r.src = 1 ∧ r.w1 = t.dpaceWord ∧
          r.w2 = (tget ({} : TempWord) t.tim.temps t.tim.slow.toNat).word) ∧
      (t.tim.dpace.valid = true → t.tim.dpace.cur.toNat < s.tim.floor.toNat → s.tim.floorArmed = false →
        t.tim.floorArmed = false ∧ t.keel = s.keel) ∧
      (s.tim.floor.toNat ≤ t.tim.dpace.cur.toNat → t.tim.floorArmed = true ∧ t.keel = s.keel) ∧
      t = { s with tim := t.tim, keel := t.keel, fab := { s.fab with regions := t.fab.regions, edges := t.fab.edges } })

/-- R55: VDDF_CHANGE stops exactly above 880 mV, the model's one fault; up to there it sets the supply. Only VDDF_CHANGE can
stop: every other command completes in every state. That a command whose condition does not hold changes nothing is the
model's choice (log entry 2), as is the fault (log entry 88). -/
def Obligations.CommandsComplete : Prop :=
  (∀ (mv : Nat) (s : State),
    (exec (.vddfChange mv) s = .fault .supplyAboveFunctionalRange ↔ 880 < mv) ∧
    (mv ≤ 880 → Answers (.vddfChange mv) s (fun t =>
      t = { s with tim := { s.tim with vddf := mv, supplyHold := s.tim.supplyHold && decide (mv ≤ 520) } }))) ∧
  (∀ (i : Instr) (s : State), i.outOfRange = false ↔ ∃ t, exec i s = .next t)

/-- R83, R92: a read of a flag word returns it and sets its read mark; from the non-secure world a word of the secure world
reads zero and is untouched. R84, R89: an event that raises a clear bit or meets the read mark advances GEN, once; flags
only ever rise by events; the capture keeps the first invalid event and notes that more came. R85, R89: a clear with the
present GEN clears the named flags, and the capture with INV; one with another GEN changes no flag. Both count as a read.
That a refused read sets no read mark is the model's reading (log entry 87). -/
def Obligations.FlagWords : Prop :=
  ((∀ (p : Fin 832) (e : Engine) (w : World) (s : State), (w = true ∨ s.engineWorld p.val e = false) →
    Answers (.flagWordRead p e w) s (fun t =>
      t.readData = ((s.tile p.val).flag e).toWord ∧
      (t.tile p.val).flag e = { (s.tile p.val).flag e with readMark := true } ∧
      (∀ f, f ≠ e → (t.tile p.val).flag f = (s.tile p.val).flag f) ∧
      t = { s with readData := t.readData, tiles := t.tiles } ∧ ∀ q, q ≠ p.val → t.tile q = s.tile q)) ∧
  (∀ (p : Fin 832) (e : Engine) (s : State), s.engineWorld p.val e = true →
    Answers (.flagWordRead p e false) s (fun t => t = { s with readData := 0 }))) ∧
  (∀ (w : FlagWord) (f : Fl) (at_ : EvAt),
    let v := w.event f at_
    (f.any = false → v = w) ∧
    (f.any = true → v.ovf = (w.ovf || f.ovf) ∧ v.unf = (w.unf || f.unf) ∧ v.inx = (w.inx || f.inx) ∧ v.inv = (w.inv || f.inv) ∧
      v.gen = (if w.raises f = true ∨ w.readMark = true then w.gen + 1 else w.gen) ∧
      (w.raises f = true ∨ w.readMark = true → v.readMark = false)) ∧
    (w.cValid = true → v.cTask = w.cTask ∧ v.cGen = w.cGen ∧ v.cCause = w.cCause ∧ (f.inv = true → v.cMore = true)) ∧
    (w.cValid = false → f.inv = true → v.cValid = true ∧ v.cMore = false ∧ v.cTask = at_.task ∧ v.cCause = f.cause)) ∧
  (∀ (w : FlagWord) (mask : BitVec 4) (gen : BitVec 8),
    ((w.clear mask gen).1 = true ↔ gen = w.gen) ∧ (w.clear mask gen).2.readMark = true ∧
    (w.clear mask gen).2.gen = w.gen ∧
    (gen ≠ w.gen → (w.clear mask gen).2 = { w with readMark := true }) ∧
    (gen = w.gen → (w.clear mask gen).2.ovf = (w.ovf && !mask.getLsbD 0) ∧
      (w.clear mask gen).2.unf = (w.unf && !mask.getLsbD 1) ∧ (w.clear mask gen).2.inx = (w.inx && !mask.getLsbD 2) ∧
      (w.clear mask gen).2.inv = (w.inv && !mask.getLsbD 3) ∧
      (w.clear mask gen).2.cValid = (w.cValid && !mask.getLsbD 3)))

/-- R99, R109, R113, R120: what the array takes from the sequencer. A LOAD takes the LOAD slot; a STREAM the STREAM slot with
the output vectors that it will number; a FENCE holds the sequencer until every earlier output is written; NOP only moves
on. -/
def Obligations.ArrayTakesInstructions : Prop :=
  (∀ (p : Fin 832) (c : Fin 2) (s : State) (i : ArrInstr) (k : Task), OfferedTo s p.val c.val 1 i k →
    (s.ctx p.val c.val).load = none →
    Answers (.load p c) s (fun t => OnlyCtx p.val c.val s t ∧
      t.ctx p.val c.val = { s.ctx p.val c.val with
        offer := none, pos := (s.ctx p.val c.val).pos + 1, load := some { ins := i } })) ∧
  (∀ (p : Fin 832) (c : Fin 2) (s : State) (i : ArrInstr) (k : Task), OfferedTo s p.val c.val 2 i k →
    (s.ctx p.val c.val).strm = none → (s.ctx p.val c.val).load = none → (s.ctx p.val c.val).planeEmpty i = false →
    (s.tile p.val).prog = none →
    Answers (.stream p c) s (fun t => OnlyCtx p.val c.val s t ∧
      t.ctx p.val c.val = { s.ctx p.val c.val with
        offer := none, pos := (s.ctx p.val c.val).pos + 1
        strm := some { ins := i, outBase := (s.ctx p.val c.val).outs }, outs := (s.ctx p.val c.val).outs + i.outVecs })) ∧
  (∀ (p : Fin 832) (c : Fin 2) (s : State) (i : ArrInstr), (s.ctx p.val c.val).offered 5 = some i →
    Answers (.fence p c) s (fun t => OnlyCtx p.val c.val s t ∧
      t.ctx p.val c.val = { s.ctx p.val c.val with offer := none, fencing := true })) ∧
  (∀ (p : Fin 832) (c : Fin 2) (s : State), (s.ctx p.val c.val).active = true → (s.ctx p.val c.val).fencing = true →
    (s.ctx p.val c.val).strm = none → (s.ctx p.val c.val).flight = [] →
    Answers (.fenceComplete p c) s (fun t => OnlyCtx p.val c.val s t ∧
      t.ctx p.val c.val = { s.ctx p.val c.val with fencing := false, pos := (s.ctx p.val c.val).pos + 1 })) ∧
  (∀ (p : Fin 832) (c : Fin 2) (s : State), (s.ctx p.val c.val).flight ≠ [] ∨ (s.ctx p.val c.val).strm ≠ none →
    exec (.fenceComplete p c) s = .next s) ∧
  (∀ (p : Fin 832) (c : Fin 2) (s : State) (i : ArrInstr), (s.ctx p.val c.val).offered 0 = some i →
    Answers (.arrayNop p c) s (fun t => OnlyCtx p.val c.val s t ∧
      t.ctx p.val c.val = { s.ctx p.val c.val with offer := none, pos := (s.ctx p.val c.val).pos + 1 }))

/-- R111, R487: the beats of a LOAD enter their plane in order, the first removing what the plane held; after the last the LOAD
slot is free and the plane is complete once PLANE_COMPLETE finds it so. R109, R110: the next row of a WS or IS STREAM issues
only on a complete plane that no earlier LOAD is still to fill; its vector joins those in the array, and after the last row
the STREAM slot is free. An OS step adds to the plane's sums and puts nothing into the array. -/
def Obligations.PlanesAndRows : Prop :=
  ((∀ (p : Fin 832) (c : Fin 2) (s : State) (ip : InProg) (k : Task),
    (s.ctx p.val c.val).load = some ip → (s.ctx p.val c.val).task = some k → (s.ctx p.val c.val).active = true →
    (s.ctx p.val c.val).beatHeld ip = false → awSrc ip.ins.w1 = false →
    Answers (.loadBeat p c .none) s (fun t => OnlyCtx p.val c.val s t ∧
      ((t.ctx p.val c.val).plane (aiPlane ip.ins.w0)).pes =
        (placeBeat ip.ins ip.next
          (wkVector ((s.tile p.val).rd (wkBank ((s.tile p.val).walk (awWalk ip.ins.w1))))
            ((s.tile p.val).walk (awWalk ip.ins.w1)) ip.ins.base1 (ip.ins.org1 + ip.next) (beatLen ip.ins.w0))).foldl pePut
          (if ip.next = 0 then [] else ((s.ctx p.val c.val).plane (aiPlane ip.ins.w0)).pes) ∧
      (ip.next + 1 < loadBeats ip.ins.w0 → (t.ctx p.val c.val).load = some { ip with next := ip.next + 1 } ∧
        ((t.ctx p.val c.val).plane (aiPlane ip.ins.w0)).st = .loading) ∧
      (loadBeats ip.ins.w0 ≤ ip.next + 1 → (t.ctx p.val c.val).load = none ∧
        ((t.ctx p.val c.val).plane (aiPlane ip.ins.w0)).st = .entered))) ∧
  (∀ (p : Fin 832) (c : Fin 2) (s : State), (s.ctx p.val c.val).plane0.st = .entered →
    Answers (.planeComplete p c) s (fun t => OnlyCtx p.val c.val s t ∧
      t.ctx p.val c.val = { s.ctx p.val c.val with plane0 := { (s.ctx p.val c.val).plane0 with st := .complete } })) ∧
  (∀ (p : Fin 832) (c : Fin 2) (s : State), (s.ctx p.val c.val).plane0.st ≠ .entered → (s.ctx p.val c.val).plane1.st = .entered →
    Answers (.planeComplete p c) s (fun t => OnlyCtx p.val c.val s t ∧
      t.ctx p.val c.val = { s.ctx p.val c.val with plane1 := { (s.ctx p.val c.val).plane1 with st := .complete } }))) ∧
  ((∀ (p : Fin 832) (c : Fin 2) (s : State) (ip : InProg), (s.ctx p.val c.val).strm = some ip →
    (s.ctx p.val c.val).active = true → aiMode ip.ins.w0 ≠ 2 →
    (s.ctx p.val c.val).rowHeld ip = false →
    Answers (.rowIssue p c .none) s (fun t => OnlyTile p.val s t ∧
      (t.ctx p.val c.val).flight = (s.ctx p.val c.val).flight ++
        [(streamRow (s.tile p.val) (s.ctx p.val c.val) ip (Config.freeStep s.fresh)).1] ∧
      (t.ctx p.val c.val).strm = (if ip.ins.count ≤ ip.next + 1 then none else some { ip with next := ip.next + 1 }) ∧
      (t.tile p.val).acc = (s.tile p.val).acc ∧ (t.ctx p.val c.val).outcnt = (s.ctx p.val c.val).outcnt)) ∧
  (∀ (p : Fin 832) (c : Fin 2) (s : State) (ip : InProg), (s.ctx p.val c.val).strm = some ip →
    (s.ctx p.val c.val).active = true → aiMode ip.ins.w0 = 2 →
    Answers (.rowIssue p c .none) s (fun t => OnlyTile p.val s t ∧
      (t.ctx p.val c.val).flight = (s.ctx p.val c.val).flight ∧
      ((t.ctx p.val c.val).plane (aiPlane ip.ins.w0)) =
        (osStep (s.tile p.val) (s.ctx p.val c.val) ip (Config.freeStep s.fresh)).1 ∧
      (t.ctx p.val c.val).strm = (if ip.ins.count ≤ ip.next + 1 then none else some { ip with next := ip.next + 1 }))) ∧
  (∀ (p : Fin 832) (c : Fin 2) (s : State) (ip : InProg) (hw : HwEvent), (s.ctx p.val c.val).strm = some ip →
    aiMode ip.ins.w0 ≠ 2 → (s.ctx p.val c.val).rowHeld ip = true →
    exec (.rowIssue p c hw) s = .next s))

/-- R103 to R105, R118, R488: outputs reach accumulator memory in the order in which they were issued, a ring slot holding the
vector back until it is released. DRAIN, once the array is empty, writes the sums of its plane row by row and keeps them;
MVP writes its vectors. Each counts its vectors and changes no bank, no other context and no flag of another engine. DRAIN
and MVP in one step are the model's choice (log entry 28). -/
def Obligations.OutputsReachAccumulators : Prop :=
  (∀ (p : Fin 832) (c : Fin 2) (s : State) (v : OutVec) (rest : List OutVec), (s.ctx p.val c.val).flight = v :: rest →
    (s.tile p.val).ringHeld c.val v = false →
    Answers (.outputVectorWritten p c .none) s (fun t => ArrayOnly p.val c.val (arrEngine c.val) s t ∧
      (t.ctx p.val c.val).flight = rest ∧ (t.ctx p.val c.val).outcnt = (s.ctx p.val c.val).outcnt + 1 ∧
      (t.ctx p.val c.val).strm = (s.ctx p.val c.val).strm ∧
      (t.tile p.val).acc = (writeVec (s.tile p.val) v.ins v.vec v.sums (s.ctx p.val c.val).tag (Config.freeStep s.fresh)).1.acc ∧
      (t.tile p.val).flag (arrEngine c.val) = ((s.tile p.val).flag (arrEngine c.val)).events
        (writeVec (s.tile p.val) v.ins v.vec v.sums (s.ctx p.val c.val).tag (Config.freeStep s.fresh)).2)) ∧
  (∀ (p : Fin 832) (c : Fin 2) (hw : HwEvent) (s : State) (v : OutVec) (rest : List OutVec),
    (s.ctx p.val c.val).flight = v :: rest → (s.tile p.val).ringHeld c.val v = true →
    exec (.outputVectorWritten p c hw) s = .next s) ∧
  (∀ (p : Fin 832) (c : Fin 2) (s : State) (i : ArrInstr) (k : Task), OfferedTo s p.val c.val 3 i k →
    (s.ctx p.val c.val).load = none → (s.ctx p.val c.val).strm = none → (s.ctx p.val c.val).flight = [] →
    ((s.ctx p.val c.val).plane (aiPlane i.w0)).st = .sums →
    Answers (.drain p c .none) s (fun t => ArrayOnly p.val c.val (arrEngine c.val) s t ∧
      MovedOn (s.ctx p.val c.val) (t.ctx p.val c.val) ∧
      (t.ctx p.val c.val).outs = (s.ctx p.val c.val).outs + 64 ∧ (t.ctx p.val c.val).outcnt = (s.ctx p.val c.val).outcnt + 64 ∧
      (∀ q, (t.ctx p.val c.val).plane q = (s.ctx p.val c.val).plane q) ∧
      (t.tile p.val).acc = ((List.range 64).foldl (fun (u : Tile) r =>
        (writeVec u i r
          ((List.range (tgtCols i.w0)).map (fun j => tlook (64 * r + j) ((s.ctx p.val c.val).plane (aiPlane i.w0)).sums))
          (s.ctx p.val c.val).tag (Config.freeStep s.fresh)).1) (s.tile p.val)).acc)) ∧
  (∀ (p : Fin 832) (s : State) (i : ArrInstr) (k : Task), OfferedTo s p.val 0 4 i k →
    (s.ctx p.val 0).load = none → (s.ctx p.val 0).strm = none → (s.ctx p.val 0).flight = [] →
    Answers (.mvp p .none) s (fun t => ArrayOnly p.val 0 .mvp s t ∧ MovedOn (s.ctx p.val 0) (t.ctx p.val 0) ∧
      (t.ctx p.val 0).outs = (s.ctx p.val 0).outs + i.count ∧ (t.ctx p.val 0).outcnt = (s.ctx p.val 0).outcnt + i.count ∧
      (t.tile p.val).acc = (mvpRun (s.tile p.val) i (s.ctx p.val 0).tag (Config.freeStep s.fresh)).1.acc ∧
      (t.tile p.val).flag .mvp = ((s.tile p.val).flag .mvp).events
        (mvpRun (s.tile p.val) i (s.ctx p.val 0).tag (Config.freeStep s.fresh)).2))

/-- R116, R117, R122: a tile fault records its code, locations and task, counts once, empties the planes and the rows in flight,
and begins the end of the task. A stall of a stage that holds a row or beat which could go on is code 0x0A; a LOAD whose
walk leaves the task's bank is WALK_RANGE, code 0x04. How often a fault counts is the model's reading (log entry 16). -/
def Obligations.TileFaultRecorded : Prop :=
  (∀ (s : State) (p c : Nat) (mvp : Bool) (code loc1 loc2 : Nat) (k : Task), c < 2 → (s.ctx p c).task = some k →
    ((s.tileFault p c mvp code loc1 loc2).ctx p c).fValid = true ∧
    ((s.tileFault p c mvp code loc1 loc2).ctx p c).fCode = BitVec.ofNat 8 code ∧
    ((s.tileFault p c mvp code loc1 loc2).ctx p c).fCount = satInc (s.ctx p c).fCount ∧
    ((s.tileFault p c mvp code loc1 loc2).ctx p c).fTask = k.tag ∧
    ((s.tileFault p c mvp code loc1 loc2).ctx p c).fLoc1 = BitVec.ofNat 32 loc1 ∧
    ((s.tileFault p c mvp code loc1 loc2).ctx p c).fLoc2 = BitVec.ofNat 32 loc2 ∧
    ((s.tileFault p c mvp code loc1 loc2).ctx p c).plane0 = {} ∧
    ((s.tileFault p c mvp code loc1 loc2).ctx p c).plane1 = {} ∧
    ((s.tileFault p c mvp code loc1 loc2).ctx p c).flight = [] ∧
    ((s.tileFault p c mvp code loc1 loc2).ctx p c).ending.isSome ∧
    ∀ q, q ≠ p → (s.tileFault p c mvp code loc1 loc2).tile q = s.tile q) ∧
  (∀ (p : Fin 832) (stage : Fin 3) (s : State), (s.ctx p.val 0).active = true → (s.ctx p.val 1).task = none →
    (s.tile p.val).holds 0 stage.val = true →
    Answers (.stall p stage) s (fun t =>
      (t.ctx p.val 0).fValid = true ∧ (t.ctx p.val 0).fCode = 0x0A ∧ (t.ctx p.val 0).fLoc1 = BitVec.ofNat 32 stage.val ∧
      (t.ctx p.val 0).ending.isSome ∧ t.ctx p.val 1 = s.ctx p.val 1 ∧ ∀ q, q ≠ p.val → t.tile q = s.tile q)) ∧
  (∀ (p : Fin 832) (c : Fin 2) (s : State) (i : ArrInstr) (k : Task) (l2 : Nat),
    (s.ctx p.val c.val).offered 1 = some i → (s.ctx p.val c.val).task = some k → (s.ctx p.val c.val).load = none →
    rangeCheck (s.tile p.val) k i = some (4, l2) →
    Answers (.load p c) s (fun t => (t.ctx p.val c.val).fCode = 4 ∧ (t.ctx p.val c.val).fLoc1 = BitVec.ofNat 32 i.entry ∧
      (t.ctx p.val c.val).fLoc2 = BitVec.ofNat 32 l2 ∧ (t.ctx p.val c.val).load = none ∧ (t.ctx p.val c.val).ending.isSome))

/-- R130, R136: SETL, SETH, SADDI and SMOV write one scalar register and leave the others; NOP changes nothing. Each goes on to
the next word. -/
def Obligations.TvuScalarRows : Prop :=
  (∀ (p : Fin 832) (s : State) (g : Prog) (w : Word32), Issues s p.val g w → tiOpc w = 0x10 →
    Answers (.setl p .none) s (fun t => ScalarOnly p.val g s t ∧
      (t.tile p.val).sreg g.ctx (tiSR w) = BitVec.ofInt 32 (sext 16 (tiImm16 w)))) ∧
  (∀ (p : Fin 832) (s : State) (g : Prog) (w : Word32), Issues s p.val g w → tiOpc w = 0x11 →
    Answers (.seth p .none) s (fun t => ScalarOnly p.val g s t ∧
      bits ((t.tile p.val).sreg g.ctx (tiSR w)) 31 16 = tiImm16 w ∧
      bits ((t.tile p.val).sreg g.ctx (tiSR w)) 15 0 = bits ((s.tile p.val).sreg g.ctx (tiSR w)) 15 0)) ∧
  (∀ (p : Fin 832) (s : State) (g : Prog) (w : Word32), Issues s p.val g w → tiOpc w = 0x12 →
    Answers (.saddi p .none) s (fun t => ScalarOnly p.val g s t ∧
      (t.tile p.val).sreg g.ctx (tiSR w) =
        (s.tile p.val).sreg g.ctx (tiSR w) + BitVec.ofInt 32 (sext 16 (tiImm16 w)))) ∧
  (∀ (p : Fin 832) (s : State) (g : Prog) (w : Word32), Issues s p.val g w → tiOpc w = 0x13 →
    Answers (.smov p .none) s (fun t => ScalarOnly p.val g s t ∧
      (t.tile p.val).sreg g.ctx (tiSR w) = (s.tile p.val).sreg g.ctx (tiSFN w))) ∧
  (∀ (t : Tile) (c i j : Nat) (v : Word32), j < 32 → j ≠ i → (t.setSreg i v).sreg c j = t.sreg c j) ∧
  (∀ (p : Fin 832) (s : State) (g : Prog) (w : Word32), Issues s p.val g w → tiOpc w = 0x00 →
    Answers (.nop p .none) s (fun t => ProgOnly p.val s t ∧ GoesOn g (t.tile p.val)))

/-- R131: V0 to V15 do not rotate and V16 + i reaches physical register 16 + ((i + RRB) mod 16); RRB goes down by one modulo 16
when a ROT completes and at the end of the second delay slot of a BLOOP, and at no other end of an instruction; what is
written to V16 + i is then read as V16 + i + 1. -/
def Obligations.RegisterRotation : Prop :=
  (∀ (t : Tile) (n : Nat), n < 16 → t.vphys n = n) ∧
  (∀ (t : Tile) (i : Nat), i < 16 → t.vphys (16 + i) = 16 + (i + t.rrb) % 16) ∧
  (∀ (p : Fin 832) (s : State) (g : Prog) (w : Word32), Issues s p.val g w → tiOpc w = 0x0B →
    Answers (.rot p .none) s (fun t => OnlyTile p.val s t ∧
      t.tile p.val = { s.tile p.val with rrb := ((s.tile p.val).rrb + 15) % 16, prog := some { g with pc := g.pc + 1 } })) ∧
  (∀ (p : Fin 832) (s : State) (g : Prog) (w : Word32), Issues s p.val g w → tiOpc w = 0x03 →
    (s.tile p.val).pcOk g.ctx (tiTarget w) = true →
    Answers (.bloop p .none) s (fun t => ∃ h, (t.tile p.val).prog = some h ∧ h.slots = 2 ∧ h.rotate = true ∧
      (t.tile p.val).rrb = (s.tile p.val).rrb)) ∧
  (∀ (t : Tile) (g : Prog), t.prog = some g → t.advance.rrb =
    if g.rep = none ∧ g.slots = 1 ∧ g.rotate = true then (t.rrb + 15) % 16 else t.rrb) ∧
  (∀ (t : Tile) (i : Nat) (ty : Bool) (v : List Word32), i < 16 →
    ({ t.setVreg (16 + i) ty v with rrb := (t.rrb + 15) % 16 } : Tile).vreg (16 + (i + 1) % 16) = v ∧
    ({ t.setVreg (16 + i) ty v with rrb := (t.rrb + 15) % 16 } : Tile).vty (16 + (i + 1) % 16) = ty)

/-- R136, R146 to R148: a taken branch goes to its target after two delay slots, one not taken falls through after them; BLOOP
counts its register down and turns the register base; REP repeats the next word; END ends the program. Which address a bad
REP faults at is the model's reading (log entry 12) and not stated here. -/
def Obligations.TvuControlRows : Prop :=
  (∀ (p : Fin 832) (s : State) (g : Prog) (w : Word32), Issues s p.val g w → tiOpc w = 0x02 →
    (s.tile p.val).pcOk g.ctx (tiTarget w) = true →
    Answers (.br p .none) s (fun t => ProgOnly p.val s t ∧
      (t.tile p.val).prog = some { g with
        pc := g.pc + 1, slots := 2, rotate := false
        dest := if (s.tile p.val).condHolds g.ctx w then some (tiTarget w) else none })) ∧
  (∀ (p : Fin 832) (s : State) (g : Prog) (w : Word32), Issues s p.val g w → tiOpc w = 0x03 →
    (s.tile p.val).pcOk g.ctx (tiTarget w) = true →
    Answers (.bloop p .none) s (fun t => OnlyTile p.val s t ∧
      (t.tile p.val).sreg g.ctx (16 + tiCR w) = (s.tile p.val).sreg g.ctx (16 + tiCR w) - 1 ∧
      (t.tile p.val).prog = some { g with
        pc := g.pc + 1, slots := 2, rotate := true
        dest := if (s.tile p.val).sreg g.ctx (16 + tiCR w) = 1 then none else some (tiTarget w) })) ∧
  (∀ (p : Fin 832) (s : State) (g : Prog) (w : Word32), Issues s p.val g w → tiOpc w = 0x04 → tiImm16 w ≠ 0 →
    (s.tile p.val).repBad g.ctx = false →
    Answers (.rep p .none) s (fun t => ProgOnly p.val s t ∧
      (t.tile p.val).prog = some { g with pc := g.pc + 1, rep := some (tiImm16 w, 0) })) ∧
  (∀ (p : Fin 832) (s : State) (g : Prog) (w : Word32), Issues s p.val g w → tiOpc w = 0x01 →
    Answers (.tend p .none) s (fun t => ProgOnly p.val s t ∧ (t.tile p.val).prog = none)) ∧
  (∀ (t : Tile) (g : Prog) (d : Option Nat) (r : Bool), t.prog = some { g with slots := 1, dest := d, rotate := r, rep := none } →
    t.advance = { t with
      prog := some { g with slots := 0, dest := none, rotate := false, rep := none, pc := d.getD (g.pc + 1) }
      rrb := if r then (t.rrb + 15) % 16 else t.rrb }) ∧
  (∀ (t : Tile) (g : Prog) (n k : Nat), t.prog = some { g with rep := some (n + 2, k) } →
    t.advance = { t with prog := some { g with rep := some (n + 1, k + 1) } }) ∧
  (∀ (t : Tile) (g : Prog) (k : Nat), t.prog = some { g with rep := some (1, k) } →
    t.advance = { t with prog := some { g with rep := none, pc := g.pc + 1 } })

/-- R129, R149 to R154: starts, waits, releases and events of TVU programs. A start resets the scalar registers, VM and the
register base; a WAITV goes on once the awaited outputs are written; an event is taken at a boundary, fault notice before
cancellation notice before paceline event; RETE returns to where the event was taken. -/
def Obligations.TvuEvents : Prop :=
  (∀ (p : Fin 832) (s : State) (c a : Nat), (s.tile p.val).prog = none → (s.tile p.val).nextStart = some (c, a) →
    Answers (.tvuProgramStart p) s (fun t => OnlyTile p.val s t ∧ (t.tile p.val).prog = some { ctx := c, pc := a } ∧
      (∀ i, i ≤ 20 → (t.tile p.val).sreg c i = 0) ∧ (t.tile p.val).vm = BitVec.allOnes 64 ∧ (t.tile p.val).rrb = 0 ∧
      (t.tile p.val).starts = (s.tile p.val).starts.erase (c, a))) ∧
  (∀ (p : Fin 832) (s : State) (g : Prog) (w : Word32), Issues s p.val g w → tiOpc w = 0x06 →
    Answers (.even p .none) s (fun t => ProgOnly p.val s t ∧
      (tiSFN w = 1 → (t.tile p.val).prog = some { g with pc := g.pc + 1, evOn := true, handler := bits w 11 0 }) ∧
      (tiSFN w ≠ 1 → (t.tile p.val).prog = some { g with pc := g.pc + 1, evOn := false }))) ∧
  (∀ (p : Fin 832) (s : State) (g : Prog) (w : Word32), Issues s p.val g w → tiOpc w = 0x05 → g.inHandler = true →
    Answers (.rete p .none) s (fun t => ProgOnly p.val s t ∧
      (t.tile p.val).prog = some { g with pc := g.saved, inHandler := false, waitSaved := none })) ∧
  (∀ (p : Fin 832) (s : State) (g : Prog) (w : Word32), Issues s p.val g w → tiOpc w = 0x07 →
    ((s.tile p.val).sreg g.ctx (tiSR w)).toNat ≤ ((s.tile p.val).ctx g.ctx).outcnt →
    Answers (.waitv p .none) s (fun t => ProgOnly p.val s t ∧ GoesOn g (t.tile p.val))) ∧
  (∀ (p : Fin 832) (s : State) (g : Prog) (w : Word32), Issues s p.val g w → tiOpc w = 0x07 →
    ((s.tile p.val).ctx g.ctx).outcnt < ((s.tile p.val).sreg g.ctx (tiSR w)).toNat →
    ((s.tile p.val).ctx g.ctx).deadlocked ((s.tile p.val).sreg g.ctx (tiSR w)).toNat = false →
    Answers (.waitv p .none) s (fun t => ProgOnly p.val s t ∧
      (t.tile p.val).prog = some { g with waitv := some ((s.tile p.val).sreg g.ctx (tiSR w)).toNat })) ∧
  (∀ (p : Fin 832) (s : State) (g : Prog) (n : Nat), (s.tile p.val).prog = some g → g.waitv = some n →
    n ≤ ((s.tile p.val).ctx g.ctx).outcnt → g.eventPending ((s.tile p.val).ctx g.ctx) = false →
    Answers (.waitvComplete p) s (fun t => ProgOnly p.val s t ∧
      (t.tile p.val).prog = some { g with waitv := none, pc := g.pc + 1 })) ∧
  (∀ (p : Fin 832) (s : State) (g : Prog) (w : Word32), Issues s p.val g w → tiOpc w = 0x08 →
    ((s.tile p.val).ctx g.ctx).relcnt + tiImm16 w ≤ ((s.tile p.val).ctx g.ctx).outcnt →
    Answers (.rrel p .none) s (fun t => OnlyTile p.val s t ∧ GoesOn g (t.tile p.val) ∧
      (t.tile p.val).ctx g.ctx = { (s.tile p.val).ctx g.ctx with
        relcnt := ((s.tile p.val).ctx g.ctx).relcnt + tiImm16 w })) ∧
  (∀ (p : Fin 832) (s : State) (g : Prog), (s.tile p.val).prog = some g → g.boundary = true →
    ((s.tile p.val).ctx g.ctx).faultNote = true →
    Answers (.faultNotice p) s (fun t => OnlyTile p.val s t ∧ (t.tile p.val).prog = none ∧
      (t.tile p.val).ctx g.ctx = { (s.tile p.val).ctx g.ctx with faultNote := false, cancelNote := false }) ∧
    exec (.cancellationNotice p) s = .next s ∧ exec (.pacelineEvent p) s = .next s) ∧
  (∀ (p : Fin 832) (s : State) (g : Prog), (s.tile p.val).prog = some g → g.boundary = true →
    ((s.tile p.val).ctx g.ctx).faultNote = false → ((s.tile p.val).ctx g.ctx).cancelNote = true →
    Answers (.cancellationNotice p) s (fun t => OnlyTile p.val s t ∧ (t.tile p.val).prog = none ∧
      (t.tile p.val).ctx g.ctx = { (s.tile p.val).ctx g.ctx with cancelNote := false }) ∧
    exec (.pacelineEvent p) s = .next s) ∧
  (∀ (p : Fin 832) (s : State) (g : Prog), (s.tile p.val).prog = some g → g.boundary = true →
    ((s.tile p.val).ctx g.ctx).faultNote = false → ((s.tile p.val).ctx g.ctx).cancelNote = false →
    g.pacePending ((s.tile p.val).ctx g.ctx) = true →
    Answers (.pacelineEvent p) s (fun t => OnlyTile p.val s t ∧
      (t.tile p.val).prog = some { g with saved := g.pc, pc := g.handler, inHandler := true, waitv := none, waitSaved := g.waitv } ∧
      (t.tile p.val).ctx g.ctx = { (s.tile p.val).ctx g.ctx with plseen := ((s.tile p.val).ctx g.ctx).plarr }))

/-- R157, R158: FRD reads the program's own flag word into SR and sets the read mark; FCLR clears by the generation in SR[31:24]
and leaves 0x00 or 0x41 in SR. That SR holds the status and not the flag word of R85 is the model's reading (log entry 20).
-/
def Obligations.TvuFlagRows : Prop :=
  (∀ (p : Fin 832) (s : State) (g : Prog) (w : Word32), Issues s p.val g w → tiOpc w = 0x09 → g.ctx < 2 →
    Answers (.frd p .none) s (fun t => OnlyTile p.val s t ∧ GoesOn g (t.tile p.val) ∧
      (t.tile p.val).sreg g.ctx (tiSR w) = ((s.tile p.val).flag (tvuEngine g.ctx)).toWord.setWidth 32 ∧
      (t.tile p.val).flag (tvuEngine g.ctx) = { (s.tile p.val).flag (tvuEngine g.ctx) with readMark := true } ∧
      ∀ e, e ≠ tvuEngine g.ctx → (t.tile p.val).flag e = (s.tile p.val).flag e)) ∧
  (∀ (p : Fin 832) (s : State) (g : Prog) (w : Word32), Issues s p.val g w → tiOpc w = 0x0A → g.ctx < 2 →
    Answers (.fclr p .none) s (fun t => OnlyTile p.val s t ∧ GoesOn g (t.tile p.val) ∧
      (t.tile p.val).sreg g.ctx (tiSR w) =
        (if bits ((s.tile p.val).sreg g.ctx (tiSR w)) 31 24 = ((s.tile p.val).flag (tvuEngine g.ctx)).gen.toNat then 0 else 0x41) ∧
      (t.tile p.val).flag (tvuEngine g.ctx) = (((s.tile p.val).flag (tvuEngine g.ctx)).clear (BitVec.ofNat 4 (bits w 3 0))
        (BitVec.ofNat 8 (bits ((s.tile p.val).sreg g.ctx (tiSR w)) 31 24))).2 ∧
      ∀ e, e ≠ tvuEngine g.ctx → (t.tile p.val).flag e = (s.tile p.val).flag e))

/-- R132 to R134, R140 to R143: vector loads and stores. VLD widens 64 elements of a bank, or takes 64 entries of accumulator
memory, into VD, and writes the scales of an AB8 vector to VSH. VST packs the 64 lanes into the footprint of its format, or
writes 64 entries, and leaves the shifts in VSH; VSTSH stores the four bytes of VSH. Each updates its address register, and
no other byte, entry or vector register changes. An access that R134 forbids is a TVU fault of subcode 2 and reads and
writes nothing. -/
def Obligations.TvuMemoryRows : Prop :=
  (∀ (p : Fin 832) (s : State) (g : Prog) (w : Word32), Issues s p.val g w → tiOpc w = 0x18 →
    AccessOk (s.tile p.val) g.ctx w false = true →
    let ar := (s.tile p.val).sreg g.ctx (tiAR w)
    let a := ((s.tile p.val).memAddr g.ctx w (tiFmt w)).1.toNat
    Answers (.vld p .none) s (fun t => OnlyTile p.val s t ∧ GoesOn g (t.tile p.val) ∧
      (t.tile p.val).vty (tiVD w) = isInt (tiFmt w) ∧
      (∀ j, j < 64 → ((t.tile p.val).vreg (tiVD w)).getD j 0 =
        if arSpace ar = 2 then
          (if isInt (tiFmt w) then (s.tile p.val).acc_rd (a + j * arLstr ar)
            else widen (.f (af32 ((s.tile p.val).acc_rd (a + j * arLstr ar)))))
        else widen (rdElem ((s.tile p.val).rd (arSpace ar)) (tiFmt w) a j)) ∧
      (∀ n, n < 32 → n ≠ tiVD w → (t.tile p.val).vreg n = (s.tile p.val).vreg n ∧ (t.tile p.val).vty n = (s.tile p.val).vty n) ∧
      (t.tile p.val).sreg g.ctx (tiAR w) = ((s.tile p.val).memAddr g.ctx w (tiFmt w)).2 ∧
      (t.tile p.val).sreg g.ctx 20 =
        (if tiFmt w = 3 then ab8Scales ((s.tile p.val).rd (arSpace ar)) a else (s.tile p.val).sreg g.ctx 20) ∧
      (∀ e, (t.tile p.val).flag e = (s.tile p.val).flag e) ∧ (t.tile p.val).vm = (s.tile p.val).vm ∧
      (t.tile p.val).bankA = (s.tile p.val).bankA ∧ (t.tile p.val).bankB = (s.tile p.val).bankB ∧
      (t.tile p.val).acc = (s.tile p.val).acc)) ∧
  (∀ (p : Fin 832) (s : State) (g : Prog) (w : Word32), Issues s p.val g w → tiOpc w = 0x19 →
    ((s.tile p.val).vreg (tiVD w)).length = 64 → AccessOk (s.tile p.val) g.ctx w true = true →
    let ar := (s.tile p.val).sreg g.ctx (tiAR w)
    let a := ((s.tile p.val).memAddr g.ctx w (tiFmt w)).1.toNat
    let shs := storeShifts (s.tile p.val) g.ctx w
    let code (j : Nat) := storeCode (s.tile p.val) g.ctx w j
    Answers (.vst p .none) s (fun t => OnlyTile p.val s t ∧ GoesOn g (t.tile p.val) ∧
      (t.tile p.val).sreg g.ctx (tiAR w) = ((s.tile p.val).memAddr g.ctx w (tiFmt w)).2 ∧
      (t.tile p.val).sreg g.ctx 20 = vshOf shs ∧
      (t.tile p.val).vregs = (s.tile p.val).vregs ∧ (t.tile p.val).vtype = (s.tile p.val).vtype ∧
      (t.tile p.val).vm = (s.tile p.val).vm ∧
      (∀ e, e ≠ tvuEngine g.ctx → (t.tile p.val).flag e = (s.tile p.val).flag e) ∧
      (arSpace ar < 2 → (t.tile p.val).acc = (s.tile p.val).acc ∧
        ∀ b x, b < 2 → (t.tile p.val).rd b x =
          if b = arSpace ar ∧ a ≤ x ∧ x < a + footprint (tiFmt w) 0 then
            (packCodes (tiFmt w) shs ((List.range 64).map code)).getD (x - a) 0
          else (s.tile p.val).rd b x) ∧
      (arSpace ar = 2 → (t.tile p.val).bankA = (s.tile p.val).bankA ∧ (t.tile p.val).bankB = (s.tile p.val).bankB ∧
        (∀ j, j < 64 → (t.tile p.val).acc_rd (a + j * arLstr ar) = BitVec.ofNat 32 (code j)) ∧
        ∀ x, (∀ j, j < 64 → x ≠ a + j * arLstr ar) → (t.tile p.val).acc_rd x = (s.tile p.val).acc_rd x))) ∧
  (∀ (p : Fin 832) (s : State) (g : Prog) (w : Word32), Issues s p.val g w → tiOpc w = 0x1A →
    arSpace ((s.tile p.val).sreg g.ctx (tiAR w)) < 2 →
    (s.tile p.val).bankOk g.ctx (arSpace ((s.tile p.val).sreg g.ctx (tiAR w))) ((s.tile p.val).memAddr g.ctx w 0).1 4 = true →
    let a := ((s.tile p.val).memAddr g.ctx w 0).1.toNat
    Answers (.vstsh p .none) s (fun t => OnlyTile p.val s t ∧ GoesOn g (t.tile p.val) ∧
      (t.tile p.val).sreg g.ctx (tiAR w) = ((s.tile p.val).memAddr g.ctx w 0).2 ∧
      (t.tile p.val).acc = (s.tile p.val).acc ∧ (t.tile p.val).vregs = (s.tile p.val).vregs ∧
      (t.tile p.val).vtype = (s.tile p.val).vtype ∧ (t.tile p.val).vm = (s.tile p.val).vm ∧
      (∀ e, (t.tile p.val).flag e = (s.tile p.val).flag e) ∧
      ∀ b x, b < 2 → (t.tile p.val).rd b x =
        if b = arSpace ((s.tile p.val).sreg g.ctx (tiAR w)) ∧ a ≤ x ∧ x < a + 4 then
          BitVec.ofNat 8 (((s.tile p.val).sreg g.ctx 20).toNat / 256 ^ (x - a))
        else (s.tile p.val).rd b x)) ∧
  (∀ (p : Fin 832) (s : State) (g : Prog) (w : Word32), Issues s p.val g w →
    (tiOpc w = 0x18 → AccessOk (s.tile p.val) g.ctx w false = false → Answers (.vld p .none) s (AddrRange p.val g s)) ∧
    (tiOpc w = 0x19 → AccessOk (s.tile p.val) g.ctx w true = false → Answers (.vst p .none) s (AddrRange p.val g s)) ∧
    (tiOpc w = 0x1A → (2 ≤ arSpace ((s.tile p.val).sreg g.ctx (tiAR w)) ∨
        (s.tile p.val).bankOk g.ctx (arSpace ((s.tile p.val).sreg g.ctx (tiAR w))) ((s.tile p.val).memAddr g.ctx w 0).1 4 = false) →
      Answers (.vstsh p .none) s (AddrRange p.val g s)))

/-- R136, R138: lane arithmetic. VADD, VSUB, VMUL, VMAX and VMIN combine the lanes of VA and VB; VMAD adds the rounded product
to VD; VSEL takes VA where VM is set and VB elsewhere; VCMP writes VM and no vector register. R77 to R81, R136, R139, R144,
R145: conversions, shifts, the four functions, reductions and lane moves. -/
def Obligations.TvuVectorRows : Prop :=
  ((∀ (p : Fin 832) (s : State) (g : Prog) (w : Word32), Issues s p.val g w →
    let a (j : Nat) := laneOf (s.tile p.val) (tiVA w) j
    let b (j : Nat) := laneOf (s.tile p.val) (tiVB w) j
    let d (j : Nat) := laneOf (s.tile p.val) (tiVD w) j
    let lanes (i : Instr) (f : Nat → Word32) := Answers i s (VectorResult p.val g w f s)
    (tiOpc w = 0x20 → lanes (.vadd p .none) (fun j => (laneAdd (tiT w) (tiRnd w) (a j) (b j)).1)) ∧
    (tiOpc w = 0x21 → lanes (.vsub p .none) (fun j => (laneSub (tiT w) (tiRnd w) (a j) (b j)).1)) ∧
    (tiOpc w = 0x22 → lanes (.vmul p .none) (fun j => (laneMul (tiT w) (tiRnd w) (a j) (b j)).1)) ∧
    (tiOpc w = 0x23 → lanes (.vmad p .none)
      (fun j => (laneMadSum (tiT w) (tiRnd w) (laneMul (tiT w) (tiRnd w) (a j) (b j)).1 (d j)).1)) ∧
    (tiOpc w = 0x24 → lanes (.vmax p .none) (fun j => (laneMax (tiT w) (a j) (b j)).1)) ∧
    (tiOpc w = 0x25 → lanes (.vmin p .none) (fun j => (laneMin (tiT w) (a j) (b j)).1)) ∧
    (tiOpc w = 0x27 → lanes (.vsel p .none) (fun j => if bit (s.tile p.val).vm j then a j else b j))) ∧
  (∀ (p : Fin 832) (s : State) (g : Prog) (w : Word32), Issues s p.val g w → tiOpc w = 0x26 →
    Answers (.vcmp p .none) s (fun t => OnlyTile p.val s t ∧ GoesOn g (t.tile p.val) ∧
      (t.tile p.val).vregs = (s.tile p.val).vregs ∧ (t.tile p.val).vtype = (s.tile p.val).vtype ∧
      ∀ j, j < 64 → bit (t.tile p.val).vm j =
        if (s.tile p.val).laneOn w j then
          (laneCmp (tiT w) (tiFN w) (laneOf (s.tile p.val) (tiVA w) j) (laneOf (s.tile p.val) (tiVB w) j)).1
        else bit (s.tile p.val).vm j))) ∧
  (∀ (p : Fin 832) (s : State) (g : Prog) (w : Word32), Issues s p.val g w →
    let a (j : Nat) := laneOf (s.tile p.val) (tiVA w) j
    let b (j : Nat) := laneOf (s.tile p.val) (tiVB w) j
    let lanes (i : Instr) (f : Nat → Word32) := Answers i s (VectorResult p.val g w f s)
    let nodes (neutral : Word32) := (List.range 64).map (fun j =>
      ({ v := if (s.tile p.val).laneOn w j then a j else neutral, lane := j, operand := true } : Node))
    (tiOpc w = 0x28 → lanes (.vcvt p .none) (fun j => (laneCvt (tiFN w) (tiRnd w) (a j)).1)) ∧
    (tiOpc w = 0x29 → lanes (.vshr p .none) (fun j => BitVec.ofInt 32 (shrInt (tiRnd w) (a j).toInt (tiFN w)).1)) ∧
    (tiOpc w = 0x2A → lanes (.vshl p .none) (fun j => BitVec.ofInt 32 (narrowInt 32 ((a j).toInt * 2 ^ tiFN w)).1)) ∧
    (tiOpc w = 0x30 → lanes (.vexp p .none) (fun j => (laneExp (a j)).1)) ∧
    (tiOpc w = 0x31 → lanes (.vrcp p .none) (fun j => (laneRcp (a j)).1)) ∧
    (tiOpc w = 0x32 → lanes (.vrsq p .none) (fun j => (laneRsq (a j)).1)) ∧
    (tiOpc w = 0x33 → lanes (.vtanh p .none) (fun j => (laneTanh (a j)).1)) ∧
    (tiOpc w = 0x38 → lanes (.vrsum p .none) (fun _ => (tree false (tiT w) (tiRnd w) 6 (nodes 0)).1)) ∧
    (tiOpc w = 0x39 → lanes (.vrmax p .none) (fun _ => (tree true (tiT w) (tiRnd w) 6 (nodes (infW true))).1)) ∧
    (tiOpc w = 0x3A → lanes (.vbin2 p .none)
      (fun j => if j < 32 then (laneAdd (tiT w) (tiRnd w) (a (2 * j)) (a (2 * j + 1))).1 else 0)) ∧
    (tiOpc w = 0x3B → lanes (.vslide p .none) (fun j => if j + tiFN w < 64 then a (j + tiFN w) else b (j + tiFN w - 64))) ∧
    (tiOpc w = 0x3C → lanes (.vbcst p .none) (fun _ => a (tiFN w))) ∧
    (tiOpc w = 0x3D → lanes (.vsplat p .none) (fun _ => (s.tile p.val).sreg g.ctx (tiVA w))))

/-- R127, R130, R137, R159: a fetch outside the program's words, and a word that is not an instruction, are TVU faults of
subcode 1 at that word, whichever row is tried; the TVU stops and the task begins to end. -/
def Obligations.TvuIllegalWords : Prop :=
  ∀ (p : Nat) (s : State) (g : Prog) (opc : Nat) (f : Nat → Word32 → Tile → TvuOut),
    (s.tile p).prog = some g → g.waitv = none → (g.boundary && g.eventPending ((s.tile p).ctx g.ctx)) = false →
    ((s.tile p).pcOk g.ctx g.pc = false ∨
      tvuOpcOk (tiOpc (tget 0 (s.tile p).imem g.pc)) = false ∨
      (tiOpc (tget 0 (s.tile p).imem g.pc) = opc ∧ tvuLegal (tget 0 (s.tile p).imem g.pc) = false)) →
    ((tvuIssue p .none opc f s).tile p).prog = none ∧
    ((tvuIssue p .none opc f s).ctx p g.ctx).fCode = 0x0B ∧ ((tvuIssue p .none opc f s).ctx p g.ctx).fLoc2 = 1 ∧
    ((tvuIssue p .none opc f s).ctx p g.ctx).fLoc1 = BitVec.ofNat 32 g.pc ∧
    ((tvuIssue p .none opc f s).ctx p g.ctx).ending.isSome ∧
    ∀ q, q ≠ p → (tvuIssue p .none opc f s).tile q = s.tile q

/-- R115, R160, R161: a task that may start does so on the physical tile of its logical tile: its queue loses it, the array
takes its mode, its tables are in the tile, its context begins at entry 0 with its indices at zero, and with a ring the
fetch of the group that names it begins. -/
def Obligations.TaskStarts : Prop :=
  ∀ (l : Fin 768) (s : State) (p : Nat) (k : Task), s.placed l.val = some p →
    firstStart (s.tile p) [] (tget [] s.startQ l.val) = some k → s.startBarred p = false → s.tileInReset l.val = false →
    tget false s.sec.wtileClr l.val = false →
    Answers (.taskStart l) s (fun t => ∃ u : State,
      u = { s with tiles := u.tiles, startQ := u.startQ } ∧ (∀ q, q ≠ p → u.tile q = s.tile q) ∧
      u.tile p = (((s.tile p).setSplit k.half).loadTables k).modCtx k.ctxNum (fun x => x.begin k) ∧ (u.tile p).split = k.half ∧
      (u.ctx p k.ctxNum).task = some k ∧ (u.ctx p k.ctxNum).idx = [0, 0, 0, 0, 0, 0] ∧ (u.ctx p k.ctxNum).pos = 0 ∧
      (u.ctx p k.ctxNum).ending = none ∧ (u.ctx p k.ctxNum).outcnt = 0 ∧ (u.ctx p k.ctxNum).relcnt = 0 ∧
      tget [] u.startQ l.val = (tget [] s.startQ l.val).erase k ∧
      (∀ m, m ≠ l.val → tget [] u.startQ m = tget [] s.startQ m) ∧
      t = match k.pring with
        | some i => u.fetchGroup p k.ctxNum (i / 64) k
        | none => u)

/-- R166, R168, R175, R176: what the sequencer does with each kind of entry. An ARRAY entry that clipping empties is passed
over; a LOOP goes back to its target while its index is below the level's count and leaves the index at zero after the last.
R87, R176, R199, R396: a task completes once everything of it has finished, and its reply carries NUMERIC exactly when an
overflow, underflow or invalid was raised during it; a cancelled task replies CANCELLED once nothing of it is in progress.
In both cases the context is then idle, and the ledger entry complete with the task's tag. The steps of a clipped OS stream
are the model's reading (log entry 17). -/
def Obligations.SequencersAndEnds : Prop :=
  (∀ (p : Fin 832) (c : Fin 2) (s : State) (k : Task) (e : List Word),
    let x := s.ctx p.val c.val
    (StandsAt s p.val c.val 0 k e → ∀ i, arrayInstr k x.idx x.pos x.insNum e = some i →
      Answers (.seqArrayEntry p c .none) s (fun t => OnlyCtx p.val c.val s t ∧
        t.ctx p.val c.val = { x with offer := some i, insNum := x.insNum + 1 })) ∧
    (StandsAt s p.val c.val 0 k e → arrayInstr k x.idx x.pos x.insNum e = none →
      Answers (.seqArrayEntry p c .none) s (fun t => OnlyCtx p.val c.val s t ∧ t.ctx p.val c.val = { x with pos := x.pos + 1 })) ∧
    (StandsAt s p.val c.val 1 k e →
      Answers (.seqTvuEntry p c .none) s (fun t => OnlyTile p.val s t ∧
        (t.tile p.val).starts = (s.tile p.val).starts ++ [(c.val, sqArg e)] ∧
        t.ctx p.val c.val = { x with pos := x.pos + 1 })) ∧
    (StandsAt s p.val c.val 2 k e → (x.groups.any (fun h => decide (h.1 = sqArg e / 64))) = true →
      Answers (.xfer p c .none) s (fun t => OnlyCtx p.val c.val s t ∧
        t.ctx p.val c.val = { x with offerX := some (sqArg e) })) ∧
    (StandsAt s p.val c.val 3 k e → ix x.idx (sqLevel e) + 1 < k.cnt (sqLevel e) →
      Answers (.loop p c .none) s (fun t => OnlyCtx p.val c.val s t ∧
        t.ctx p.val c.val = { x with idx := x.idx.set (sqLevel e) (ix x.idx (sqLevel e) + 1), pos := sqTarget e })) ∧
    (StandsAt s p.val c.val 3 k e → k.cnt (sqLevel e) ≤ ix x.idx (sqLevel e) + 1 →
      Answers (.loop p c .none) s (fun t => OnlyCtx p.val c.val s t ∧
        t.ctx p.val c.val = { x with idx := x.idx.set (sqLevel e) 0, pos := x.pos + 1 })) ∧
    (StandsAt s p.val c.val 4 k e → (s.tile p.val).waitHolds c.val e = true →
      Answers (.wait p c .none) s (fun t => OnlyCtx p.val c.val s t ∧ t.ctx p.val c.val = { x with pos := x.pos + 1 })) ∧
    (StandsAt s p.val c.val 4 k e → (s.tile p.val).waitHolds c.val e = false →
      Answers (.wait p c .none) s (fun t => OnlyCtx p.val c.val s t ∧ t.ctx p.val c.val = { x with waiting := true })) ∧
    (x.active = true → x.waiting = true →
      (s.tile p.val).waitHolds c.val (tget [] (s.tile p.val).seq (128 * c.val + x.pos)) = true →
      Answers (.waitSatisfied p c) s (fun t => OnlyCtx p.val c.val s t ∧
        t.ctx p.val c.val = { x with waiting := false, pos := x.pos + 1 })) ∧
    (StandsAt s p.val c.val 5 k e →
      Answers (.seqEnd p c .none) s (fun t => OnlyCtx p.val c.val s t ∧ t.ctx p.val c.val = { x with atEnd := true }))) ∧
  ((∀ (p : Fin 832) (c : Fin 2) (s : State) (k : Task) (e : LgEntry),
    (s.tile p.val).finished c.val = true → (s.ctx p.val c.val).task = some k → (s.ctx p.val c.val).lost = false →
    s.entry k.entry = some e → e.state ≠ .complete →
    Answers (.taskComplete p c) s (fun t =>
      (t.ctx p.val c.val).task = none ∧ (∀ q, q ≠ p.val → t.tile q = s.tile q) ∧
      ∃ e', t.entry k.entry = some e' ∧ e'.state = .complete ∧ ∃ r, e'.reply = some r ∧
        r.det1 = k.tag.setWidth 64 ∧
        r.status = (if (s.ctx p.val c.val).raised.ovf = true ∨ (s.ctx p.val c.val).raised.unf = true ∨
          (s.ctx p.val c.val).raised.inv = true then 0x40 else 0x00))) ∧
  (∀ (p : Fin 832) (c : Fin 2) (s : State), (s.ctx p.val c.val).cancelAsked = true → (s.ctx p.val c.val).active = true →
    Answers (.cancellation p c) s (fun t =>
      (t.ctx p.val c.val).ending = some .cancel ∧ (t.ctx p.val c.val).cancelAsked = false ∧
      (t.ctx p.val c.val).offer = none ∧ (t.ctx p.val c.val).offerX = none ∧ ∀ q, q ≠ p.val → t.tile q = s.tile q)) ∧
  (∀ (p : Fin 832) (c : Fin 2) (s : State) (k : Task) (e : LgEntry),
    (s.ctx p.val c.val).task = some k → (s.ctx p.val c.val).ending = some .cancel → (s.ctx p.val c.val).lost = false →
    (s.ctx p.val c.val).xfers = [] → (s.ctx p.val c.val).owed = 0 → (s.ctx p.val c.val).flight = [] →
    (s.tile p.val).tvuDone c.val = true → s.entry k.entry = some e → e.state ≠ .complete →
    Answers (.cancellationAck p c) s (fun t =>
      (t.ctx p.val c.val).task = none ∧
      ∃ e', t.entry k.entry = some e' ∧ e'.state = .complete ∧ ∃ r, e'.reply = some r ∧ r.status = 0x32 ∧
        r.det1 = k.tag.setWidth 64)))

/-- R189 to R191, R209, R213: a READ or WRITE that is taken sends its first request for at most the rest of its row and of its 4
KiB page, a WRITE with the bytes of its bank; a PEER sends such a frame on its Vorot port and waits there. A transfer whose
rows leave its record's buffer, or whose address lies outside the memory, faults. A transfer guarded by an exhausted
register, or one of the next outer tile at the last, is passed over. R31, R190 to R192, R197, R198, R212: what comes back to
a stream engine, which takes the answers of the memory in the order in which they come. The response to the last request of
a READ writes the bytes into the bank, that of a WRITE nothing, and ends the transfer; any earlier response is followed by
the next request; one with a status faults the task with it. A taken value goes into the index register, none marks it
exhausted, and a refused take faults. A group that passes its check enters the descriptor store, one that is wanted and is
not held is fetched. What is given up at the time limit, a request or a fetch, faults with status 0x0B. That a response with
a status ends its transfer is the model's reading (log entry 32). -/
def Obligations.RowTransfers : Prop :=
  (∀ (p : Fin 832) (c : Fin 2) (s : State) (k : Task) (xi : Nat) (d : List Word) (v : Ixs),
    let x := s.ctx p.val c.val
    let xa := firstXa s p.val c.val d v
    let n := firstLen s p.val c.val d v
    let data := (s.tile p.val).rdN (k.record (xfSb d)).1 (firstLa k d v).toNat n
    (OffersXfer s p.val c.val 0 false k xi d v → locOk k d v = true → 0 ≤ xa → inMemSpace xa.toNat = true →
      Answers (.read p c) s (fun t => ∃ u, CtxNow p.val c.val (x.took (rowXfer s p.val c.val 0 n k xi d v)) s u ∧
        t = u.sendReq {
          src := .xfer p.val c.val x.nextX, write := false, addr := xa.toNat, len := n, data := [], world := k.world })) ∧
    (OffersXfer s p.val c.val 1 false k xi d v → locOk k d v = true → 0 ≤ xa → inMemSpace xa.toNat = true →
      Answers (.write p (c, .none)) s (fun t => ∃ u, CtxNow p.val c.val (x.took (rowXfer s p.val c.val 1 n k xi d v)) s u ∧
        t = u.sendReq {
          src := .xfer p.val c.val x.nextX, write := true, addr := xa.toNat, len := n, data := data, world := k.world })) ∧
    (OffersXfer s p.val c.val 4 false k xi d v → locOk k d v = true → (s.port (xf d 1 43 40)).state = 3 →
      s.wlane (xf d 1 43 40) = k.world → 0 ≤ xa → xa < 2 ^ 40 →
      Answers (.peer p (c, .none)) s (fun t => ∃ u, CtxNow p.val c.val (x.took (rowXfer s p.val c.val 4 n k xi d v)) s u ∧
        t = (u.modPort (xf d 1 43 40) (fun y => { y with awaiting := y.awaiting ++ [(p.val, c.val, x.nextX)] })).vsend
          (xf d 1 43 40) { kind := 0, vc := 0, world := k.world, dest := 0, src := s.pelNum
                           data := BitVec.ofNat 64 xa.toNat :: (chunks 8 n data).map wordOfBytes })) ∧
    (∀ i ∈ [(Instr.read p c, 0), (Instr.write p (c, .none), 1), (Instr.peer p (c, .none), 4)],
      OffersXfer s p.val c.val i.2 false k xi d v → locOk k d v = false →
      Answers i.1 s (fun t => t = s.streamFault p.val c.val xi 5 ∧ (t.ctx p.val c.val).fCode = 8 ∧
        (t.ctx p.val c.val).fLoc1 = BitVec.ofNat 32 xi ∧ (t.ctx p.val c.val).fLoc2 = 5 ∧
        (t.ctx p.val c.val).ending.isSome)) ∧
    (∀ i ∈ [(Instr.read p c, 0), (Instr.write p (c, .none), 1)],
      OffersXfer s p.val c.val i.2 false k xi d v → locOk k d v = true → (xa < 0 ∨ inMemSpace xa.toNat = false) →
      Answers i.1 s (fun t => (t.ctx p.val c.val).fCode = 8 ∧
        (t.ctx p.val c.val).fLoc1 = BitVec.ofNat 32 xi ∧ (t.ctx p.val c.val).fLoc2 = 4 ∧
        (t.ctx p.val c.val).ending.isSome)) ∧
    (∀ i ∈ [(Instr.read p c, 0, false), (Instr.write p (c, .none), 1, false), (Instr.remote p (c, .none), 2, false),
        (Instr.paceOrigin p (c, .none), 3, false), (Instr.paceForward p (c, .none), 3, true), (Instr.peer p (c, .none), 4, false),
        (Instr.ctake p c, 5, false), (Instr.grant p c, 6, false), (Instr.pring p c, 7, false)],
      OffersAny s p.val c.val i.2.1 i.2.2 k xi d → (∀ f ∈ x.xfers, f.kind = 2 ∨ f.kind = 3 → f.credited = true) →
      ((xfGuard d = true ∧ (x.xreg (xfXr d)).exh = true) ∨ (xfNext d = true ∧ nextTile k x.idx = none)) →
      Answers i.1 s (fun t => CtxNow p.val c.val { x with offerX := none, pos := x.pos + 1 } s t))) ∧
  ((∀ (p : Fin 832) (c : Fin 2) (id : Nat) (s : State) (k : Task) (f : Transfer) (r : MemResp),
    (s.ctx p.val c.val).active = true → (s.ctx p.val c.val).task = some k → (s.ctx p.val c.val).xferAt id = some f →
    s.firstResp p.val (.xfer p.val c.val id) = some r → f.kind ≤ 1 → r.status = 0 →
    let mem := { s.mem with resps := s.mem.resps.erase r }
    let tile := if f.kind = 0 then
      (s.tile p.val).wrN (k.record (xfSb f.desc)).1 f.nextReq.2.1.toNat (r.data.take f.nextReq.2.2) else s.tile p.val
    let g := { f with done := f.done + f.nextReq.2.2, inFlight := 0 }
    (f.total ≤ g.done →
      Answers (.requestResponse p (c, .none) id) s (fun t =>
        t = { s with tiles := t.tiles, mem := mem } ∧ (∀ q, q ≠ p.val → t.tile q = s.tile q) ∧
        t.tile p.val = tile.setCtx c.val { s.ctx p.val c.val with
          xfers := (s.ctx p.val c.val).xfers.filter (fun g => g.id ≠ id) })) ∧
    (g.done < f.total → 0 ≤ g.nextReq.1 → inMemSpace g.nextReq.1.toNat = true →
      Answers (.requestResponse p (c, .none) id) s (fun t => ∃ u : State,
        u = { s with tiles := u.tiles, mem := mem } ∧ (∀ q, q ≠ p.val → u.tile q = s.tile q) ∧
        u.tile p.val = tile.setCtx c.val { s.ctx p.val c.val with
          xfers := (s.ctx p.val c.val).xfers.map (fun h => if h.id = id then
            { h with done := h.done + f.nextReq.2.2, inFlight := g.nextReq.2.2 } else h) } ∧
        t = u.sendReq {
          src := .xfer p.val c.val id, write := f.kind = 1, addr := g.nextReq.1.toNat, len := g.nextReq.2.2
          data := if f.kind = 1 then (s.tile p.val).rdN (k.record (xfSb f.desc)).1 g.nextReq.2.1.toNat g.nextReq.2.2 else []
          world := k.world }))) ∧
  (∀ (p : Fin 832) (c : Fin 2) (id : Nat) (s : State) (f : Transfer) (r : MemResp),
    (s.ctx p.val c.val).active = true → (s.ctx p.val c.val).xferAt id = some f →
    s.firstResp p.val (.xfer p.val c.val id) = some r → r.status ≠ 0 →
    Answers (.requestResponse p (c, .none) id) s (fun t => (t.ctx p.val c.val).fCode = 8 ∧
      (t.ctx p.val c.val).fLoc1 = BitVec.ofNat 32 f.xi ∧ (t.ctx p.val c.val).fLoc2 = BitVec.ofNat 32 r.status.toNat ∧
      (t.ctx p.val c.val).ending.isSome ∧ t.mem = { s.mem with resps := s.mem.resps.erase r })) ∧
  (∀ (p : Fin 832) (c : Fin 2) (id ctr : Nat) (s : State) (f : Transfer) (val : Option Nat),
    (s.ctx p.val c.val).active = true → (s.ctx p.val c.val).xferAt id = some f →
    s.firstResp p.val (.xfer p.val c.val id) = none →
    (s.msgs.find? (isTaken p.val) = some (.taken ctr p.val c.val id false val) →
      Answers (.requestResponse p (c, .none) id) s (fun t =>
        t = { s with tiles := t.tiles, msgs := s.msgs.erase (.taken ctr p.val c.val id false val) } ∧
        (∀ q, q ≠ p.val → t.tile q = s.tile q) ∧
        (t.ctx p.val c.val).xfers = (s.ctx p.val c.val).xfers.filter (fun g => g.id ≠ id) ∧
        (t.ctx p.val c.val).xreg (xfXr f.desc) = (match val with
          | some n => { val := n, exh := false, live := some ctr }
          | none => { (s.ctx p.val c.val).xreg (xfXr f.desc) with exh := true }) ∧
        ∀ j, j ≠ xfXr f.desc → (t.ctx p.val c.val).xreg j = (s.ctx p.val c.val).xreg j)) ∧
    (s.msgs.find? (isTaken p.val) = some (.taken ctr p.val c.val id true val) → val = none →
      Answers (.requestResponse p (c, .none) id) s (fun t => (t.ctx p.val c.val).fCode = 8 ∧
        (t.ctx p.val c.val).fLoc1 = BitVec.ofNat 32 f.xi ∧ (t.ctx p.val c.val).fLoc2 = 3))) ∧
  (∀ (p : Fin 832) (c : Fin 2) (id : Nat) (s : State), (s.ctx p.val c.val).active = true →
    (∀ f, (s.ctx p.val c.val).xferAt id = some f → f.inFlight ≠ 0 → s.rimWaits f = false →
      Answers (.timeout p c id) s (fun t => (t.ctx p.val c.val).fCode = 8 ∧
        (t.ctx p.val c.val).fLoc1 = BitVec.ofNat 32 f.xi ∧ (t.ctx p.val c.val).fLoc2 = 0x0B ∧
        (t.ctx p.val c.val).ending.isSome ∧ ∀ q, q ≠ p.val → t.tile q = s.tile q)) ∧
    (∀ k g, (s.ctx p.val c.val).xferAt id = none → (s.ctx p.val c.val).task = some k → (s.ctx p.val c.val).fetching = some g →
      s.rimInReset ((k.f 7 39 0 + 4096 * g) / 0x1400000000) = false →
      Answers (.timeout p c id) s (fun t => (t.ctx p.val c.val).fCode = 8 ∧
        (t.ctx p.val c.val).fLoc1 = BitVec.ofNat 32 ((s.ctx p.val c.val).offerX.getD (g * 64)) ∧
        (t.ctx p.val c.val).fLoc2 = 0x0B ∧ (t.ctx p.val c.val).ending.isSome ∧ (t.ctx p.val c.val).fetching = none))) ∧
  (∀ (p : Fin 832) (c : Fin 2) (g : Nat) (s : State) (k : Task) (r : MemResp),
    (s.ctx p.val c.val).active = true → (s.ctx p.val c.val).task = some k → k.pring = none →
    s.firstResp p.val (.desc p.val c.val g) = some r → r.status = 0 → Config.groupCheck r.data = k.groups.getD g 0 →
    Answers (.descriptorFetch p c g) s (fun t =>
      t = { s with tiles := t.tiles, mem := { s.mem with resps := s.mem.resps.erase r } } ∧
      (∀ q, q ≠ p.val → t.tile q = s.tile q) ∧
      t.tile p.val = (s.tile p.val).setCtx c.val { s.ctx p.val c.val with
        fetching := none, owed := (s.ctx p.val c.val).owed - 1
        groups := ((s.ctx p.val c.val).groups ++ [(g, wordsOfBytes r.data)]).drop
          ((s.ctx p.val c.val).groups.length - 1) })) ∧
  (∀ (p : Fin 832) (c : Fin 2) (g xi : Nat) (s : State) (k : Task),
    (s.ctx p.val c.val).active = true → (s.ctx p.val c.val).task = some k → s.firstResp p.val (.desc p.val c.val g) = none →
    (s.ctx p.val c.val).fetching = none → (s.ctx p.val c.val).offerX = some xi → xi / 64 = g → 64 * g < k.nxfer →
    (s.ctx p.val c.val).groups.any (fun h => decide (h.1 = g)) = false →
    exec (.descriptorFetch p c g) s = .next (s.fetchGroup p.val c.val g k)))

/-- R201 to R204, R206, R207, R212, R236: what the transfers between tiles send. A REMOTE whose key holds its credit spends it
and sends its bytes in tokens of at most 256, and without the credit it waits; a PACE sends one block to the ring's
successor against credit of whole 256-byte units, a forward the oldest block not yet forwarded, one rotation on with one hop
less, and waits for that credit; a GRANT sends credit for its record to a tile or a queue controller; a CTAKE asks the
counter; a PRING is complete at once. R25 to R31: a message of one token that a tile sends goes into the router of its die,
which injects none that R27 refuses. Where nothing waits there, a token for a port of the same die comes to that port, and
one for another die is driven on the spoke of its route if that spoke can take it. That tokens carry messages is the model's
choice (log entry 8). -/
def Obligations.TileTransfersSend : Prop :=
  ((∀ (p : Fin 832) (c : Fin 2) (s : State) (k : Task) (f : Transfer) (credit first : Nat),
    (s.ctx p.val c.val).active = true → (s.ctx p.val c.val).task = some k → (s.ctx p.val c.val).readyRemote = some f →
    (s.ctx p.val c.val).xferAt f.id = some f → (∀ g ∈ (s.ctx p.val c.val).xfers, g.id = f.id → g = f) →
    (s.ctx p.val c.val).link (xfKey f.desc) = some (credit, first) → (s.placedAt (p.val / 52) (xf f.desc 1 9 0)).isSome →
    Answers (.remote p (c, .none)) s (fun t => xfLen f.desc ≤ credit ∧ ∃ u,
      CtxNow p.val c.val ((s.ctx p.val c.val).sent f (xfKey f.desc) (xfLen f.desc) (xfLen f.desc) f.la) s u ∧
      (u.ctx p.val c.val).link (xfKey f.desc) = some (credit - xfLen f.desc, first) ∧
      t = (remoteMsgs p.val c.val f.id f.desc
        ((s.tile p.val).rdN (k.record (xfSb f.desc)).1 f.la.toNat (xfLen f.desc))).foldl (fun s m => s.sendTile p.val m) u)) ∧
  (∀ (p : Fin 832) (c : Fin 2) (s : State) (k : Task) (xi : Nat) (d : List Word) (v : Ixs),
    OffersXfer s p.val c.val 2 false k xi d v → (s.ctx p.val c.val).readyRemote = none → xfKey d < 0xC000 → locOk k d v = true →
    let x := s.ctx p.val c.val
    ((x.uncredited 2 false (xfKey d)).isSome ∨ x.link (xfKey d) = none ∨
        (∃ credit first, x.link (xfKey d) = some (credit, first) ∧ credit < xfLen d) →
      Answers (.remote p (c, .none)) s (fun t => CtxNow p.val c.val (x.took (tileXfer 2 xi d (firstLa k d v))) s t)) ∧
    (∀ credit first, x.uncredited 2 false (xfKey d) = none → x.link (xfKey d) = some (credit, first) → xfLen d ≤ credit →
      (s.placedAt (p.val / 52) (xf d 1 9 0)).isSome →
      Answers (.remote p (c, .none)) s (fun t => ∃ u,
        CtxNow p.val c.val ((x.spend (xfKey d) (xfLen d)).took
          { tileXfer 2 xi d (firstLa k d v) with credited := true, inFlight := xfLen d }) s u ∧
        t = (remoteMsgs p.val c.val x.nextX d
          ((s.tile p.val).rdN (k.record (xfSb d)).1 (firstLa k d v).toNat (xfLen d))).foldl (fun s m => s.sendTile p.val m) u))) ∧
  (∀ (p : Fin 832) (c : Fin 2) (s : State) (k : Task) (f : Transfer) (r : Ring) (credit first : Nat),
    (s.ctx p.val c.val).active = true → (s.ctx p.val c.val).task = some k → (s.ctx p.val c.val).ring = some r →
    (s.ctx p.val c.val).link r.key = some (credit, first) → (s.ctx p.val c.val).xferAt f.id = some f →
    (s.placedAt (p.val / 52) r.succ).isSome →
    ((s.ctx p.val c.val).uncredited 3 false 0 = some f → occupancy (xfLen f.desc) ≤ first → occupancy (xfLen f.desc) ≤ credit →
      Answers (.paceOrigin p (c, .none)) s (fun t => ∃ u,
        CtxNow p.val c.val ((s.ctx p.val c.val).sent f r.key (occupancy (xfLen f.desc)) (xfLen f.desc) f.la) s u ∧
        t = u.sendTile p.val (.block r.succ r.suctx r.key 1 (xf f.desc 1 15 0) (xf f.desc 1 31 16)
          ((s.tile p.val).rdN (k.record (xfSb f.desc)).1 f.la.toNat (xfLen f.desc)) p.val c.val f.id))) ∧
    (∀ b, (s.ctx p.val c.val).uncredited 3 true 0 = some f →
      (s.ctx p.val c.val).blocks.find? (fun b => decide (b.fwd = 0)) = some b → b.hops ≠ 0 →
      occupancy b.len ≤ first → occupancy b.len ≤ credit →
      Answers (.paceForward p (c, .none)) s (fun t => ∃ u,
        CtxNow p.val c.val { (s.ctx p.val c.val).sent f r.key (occupancy b.len) b.len b.start with
          blocks := (s.ctx p.val c.val).blocks.map (fun a => if a.start = b.start then { a with fwd := 1 } else a) } s u ∧
        t = u.sendTile p.val (.block r.succ r.suctx r.key ((b.rot + 1) % 65536) (b.hops - 1) b.block
          ((List.range b.len).map (fun i => plByte (s.tile p.val) k r (b.start + i))) p.val c.val f.id)))) ∧
  (∀ (p : Fin 832) (c : Fin 2) (s : State) (k : Task) (xi : Nat) (d : List Word) (v : Ixs),
    let x := s.ctx p.val c.val
    (∀ i ∈ [(Instr.paceOrigin p (c, .none), false), (Instr.paceForward p (c, .none), true)], ∀ r,
      OffersXfer s p.val c.val 3 i.2 k xi d v → x.uncredited 3 i.2 0 = none → x.ring = some r → x.link r.key = none →
      r.key < 0xC000 → (i.2 = false → locOk k d v = true) →
      (i.2 = true → ∀ b, x.blocks.find? (fun b => decide (b.fwd = 0)) = some b → b.hops ≠ 0) →
      Answers i.1 s (fun t => CtxNow p.val c.val (x.took (tileXfer 3 xi d (firstLa k d v))) s t)) ∧
    (∀ i ∈ [(Instr.paceOrigin p (c, .none), false), (Instr.paceForward p (c, .none), true)], ∀ r,
      OffersXfer s p.val c.val 3 i.2 k xi d v → x.uncredited 3 i.2 0 = none → x.ring = some r →
      r.key < 0xC000 → (i.2 = false → locOk k d v = true) →
      Answers i.1 s (fun t => ∃ u, CtxNow p.val c.val (x.took (tileXfer 3 xi d (firstLa k d v))) s u ∧
        t = u.sendPace p.val c.val x.nextX .none)) ∧
    (OffersXfer s p.val c.val 5 false k xi d v → x.usesXr (xfXr d) = false →
      Answers (.ctake p c) s (fun t => ∃ u,
        CtxNow p.val c.val { x.took { tileXfer 5 xi d 0 with inFlight := 1 } with
          xr := tmod {} (xfXr d) (fun v => { v with live := none }) x.xr } s u ∧
        t = u.sendTile p.val (.take (xf d 1 11 0) p.val c.val x.nextX k.world))) ∧
    (OffersXfer s p.val c.val 6 false k xi d v → x.grants.length < (if (s.tile p.val).split then 4 else 8) →
      locOk k d v = true →
      (if xfKey d < 0xC000 then (s.placedAt (p.val / 52) (xf d 1 9 0)).isSome else xfKey d % 0x400 < 384) →
      Answers (.grant p c) s (fun t => ∃ u,
        CtxNow p.val c.val { x with
          offerX := none, pos := x.pos + 1, nextX := x.nextX + 1
          grants := x.grants ++ [{ id := x.nextX, xi := xi, record := xfSb d, key := xfKey d, lo := (locOff k d v).toNat
                                   len := xfLen d, xr := if xfGuard d then some (xfXr d) else none }] } s u ∧
        t = u.sendTile p.val
          (.grant (xf d 1 9 0) (xf d 1 11 10) (xfKey d) (xfLen d) k.world (some (p.val, c.val, xi, x.nextX))))) ∧
    (OffersXfer s p.val c.val 7 false k xi d v →
      Answers (.pring p c) s (fun t => CtxNow p.val c.val { x with offerX := none, pos := x.pos + 1 } s t)))) ∧
  (∀ (p : Nat) (s : State) (m : Msg) (k : Token),
    tokensFor s.fresh (s.msgPort (p / 52) m).1 (s.msgPort (p / 52) m).2 (p / 52) (p % 52) m.cls m.tokens (.msg m) = [k] →
    (s.refuses (p / 52) k = true → s.sendTile p m = s) ∧
    (s.refuses (p / 52) k = false → Still s → (∀ d, d < 68 → (s.side d).rx0 = [] ∧ (s.side d).rx1 = []) →
      (k.dst = p / 52 → Arrived s (s.sendTile p m) (p / 52) k) ∧
      (∀ o, k.dst ≠ p / 52 → o < 68 → s.outDir (p / 52) k = some o → s.canDrive o k = true →
        (s.sendTile p m).msgs = s.msgs ∧
        (s.sendTile p m).side o = { (s.side o).spend k.vc1 with
          held := some { k.setToggle (!(s.side o).txToggle) with via := dirFrom o :: k.via }
          onWire := true, txToggle := !(s.side o).txToggle } ∧
        ∀ e, e ≠ o → (s.sendTile p m).side e = s.side e)))

/-- R31, R200 to R202, R205 to R208, R236: what arrives at a tile, whose port takes in the order of arrival. Credit for a new
key takes a link entry, for a known key adds to it, and with the table full is refused to its sender. A token inside an open
grant is written where it says and acknowledged, any other refused; a block goes into the receive buffer in the order of the
ring, or is refused; and once a block is used up its space returns to the predecessor as credit. R212, R214, R410: a take of
a counter whose bank has the task's world gives a returned value first, then the counter's value, which advances while it is
below the limit, and otherwise reports exhaustion; in the other world it is refused. No value is given twice: one that comes
from the pool leaves it. The answer goes from the keel's counter port. That tokens carry messages is the model's choice (log
entry 8). -/
def Obligations.TileArrivals : Prop :=
  ((∀ (p : Fin 832) (c : Fin 2) (s : State) (l code key n : Nat) (w : World) (src : Option (Nat × Nat × Nat × Nat)),
    s.logicalOf p.val = some l → s.msgs.find? (toTile l) = some (.grant l code key n w src) → ctxOfCode code = c.val →
    let x := s.ctx p.val c.val
    let rest := { s with msgs := s.msgs.erase (.grant l code key n w src) }
    (x.link key = none → x.links.length < 8 →
      Answers (.grantReceived p c) s (fun t => CtxNow p.val c.val { x with links := x.links ++ [(key, n, n)] } rest t)) ∧
    (∀ credit first, x.link key = some (credit, first) →
      Answers (.grantReceived p c) s (fun t => (t.ctx p.val c.val).link key = some (credit + n, first) ∧
        CtxNow p.val c.val { x with
          links := x.links.map (fun e => if e.1 = key then (e.1, e.2.1 + n, e.2.2) else e) } rest t)) ∧
    (x.link key = none → 8 ≤ x.links.length →
      exec (.grantReceived p c) s = .next (match src with
        | some (q, d, xi, _) => if (s.ctx q d).active then rest.streamFault q d xi 6 else rest
        | none => rest))) ∧
  (∀ (p : Fin 832) (c : Fin 2) (s : State) (l code rec key doff : Nat) (data : List Byte) (last : Bool) (src : Sender),
    s.logicalOf p.val = some l → s.msgs.find? (toTile l) = some (.remote l code rec key doff data last src) →
    ctxOfCode code = c.val →
    let x := s.ctx p.val c.val
    let rest := { s with msgs := s.msgs.erase (.remote l code rec key doff data last src) }
    (∀ k g, x.active = true → x.task = some k → k.ctxCode = code → rec < k.nstr → bits (k.sb rec) 1 0 = 3 →
      x.grants.find? (fun g => g.takes rec key doff data.length) = some g →
      Answers (.remoteTokenReceived p c) s (fun t => ∃ u : State,
        u = { rest with tiles := u.tiles } ∧ (∀ q, q ≠ p.val → u.tile q = s.tile q) ∧
        u.tile p.val = ((s.tile p.val).wrN (k.record rec).1 ((k.record rec).2.1 + doff) data).setCtx c.val { x with
          grants := if g.len ≤ (g.fill doff data.length).got then x.grants.erase g
            else x.grants.map (fun h => if h = g then g.fill doff data.length else h) } ∧
        t = u.ackSender src last true)) ∧
    (x.active = false ∨ (∃ k, x.task = some k ∧ (k.ctxCode ≠ code ∨ k.nstr ≤ rec ∨ bits (k.sb rec) 1 0 ≠ 3)) ∨
        x.grants.find? (fun g => g.takes rec key doff data.length) = none →
      exec (.remoteTokenReceived p c) s = .next (rest.ackSender src last false))) ∧
  (∀ (p : Fin 832) (c : Fin 2) (s : State) (l code key rot hops num q qc id : Nat) (data : List Byte) (k : Task) (r : Ring),
    s.logicalOf p.val = some l → s.msgs.find? (toTile l) = some (.block l code key rot hops num data q qc id) →
    ctxOfCode code = c.val →
    let x := s.ctx p.val c.val
    let rest := { s with msgs := s.msgs.erase (.block l code key rot hops num data q qc id) }
    (x.active = true → x.task = some k → x.ring = some r → k.ctxCode = code → r.key = key →
      (if x.lastRot = 0 then rot = 1 else rot = x.lastRot ∨ rot = x.lastRot + 1) →
      Answers (.pacelineBlockStored p c) s (fun t => ∃ u : State,
        u = { rest with tiles := u.tiles } ∧ (∀ q, q ≠ p.val → u.tile q = s.tile q) ∧
        u.tile p.val = (data.zipIdx.foldl (fun y b =>
            y.wrN (plBuf k).1 ((plBuf k).2.1 + (x.plEnd + b.2) % (max r.bufLen 1)) [b.1]) (s.tile p.val)).setCtx c.val { x with
          blocks := x.blocks ++
            [{ rot := rot, hops := hops, block := num, len := data.length, start := x.plEnd, fwd := 0 }]
          plEnd := x.plEnd + occupancy data.length, plarr := x.plarr + 1, lastRot := rot } ∧
        t = u.ackXfer q qc id true)) ∧
    (x.active = true → x.task = some k → x.ring = some r → k.ctxCode = code → r.key = key →
      ¬ (if x.lastRot = 0 then rot = 1 else rot = x.lastRot ∨ rot = x.lastRot + 1) →
      exec (.pacelineBlockStored p c) s = .next ((rest.streamFault p.val c.val (k.pring.getD 0) 7).ackXfer q qc id false)) ∧
    (x.active = false ∨ x.ring = none ∨ (x.task = some k ∧ k.ctxCode ≠ code) ∨ (x.ring = some r ∧ r.key ≠ key) →
      exec (.pacelineBlockStored p c) s = .next (rest.ackXfer q qc id false))) ∧
  (∀ (p : Fin 832) (c : Fin 2) (s : State) (k : Task) (r : Ring) (b : PlBlock),
    (s.ctx p.val c.val).active = true → (s.ctx p.val c.val).task = some k → (s.ctx p.val c.val).ring = some r →
    (s.ctx p.val c.val).blocks.find?
      (fun b => decide (b.start + b.len ≤ (s.ctx p.val c.val).readPt) && (b.hops = 0 || b.fwd = 2)) = some b →
    (s.placedAt (p.val / 52) r.pred).isSome →
    Answers (.blockRelease p c) s (fun t => ∃ u,
      CtxNow p.val c.val { s.ctx p.val c.val with blocks := (s.ctx p.val c.val).blocks.erase b } s u ∧
      t = u.sendTile p.val (.grant r.pred r.pctx r.key (occupancy b.len) k.world none)))) ∧
  (∀ (ctr : Fin 4096) (s : State) (p c id : Nat) (w : World),
    s.msgs.find? (fun m => match m with
      | .take k _ _ _ _ => k = ctr.val
      | _ => false) = some (.take ctr.val p c id w) →
    let ct := tget ({} : Counter) s.ctrs.ctrs ctr.val
    let rest := { s with msgs := s.msgs.erase (.take ctr.val p c id w) }
    let first := s.ctrs.pool.find? (fun e => decide (e.1 = ctr.val))
    (s.wcbank (ctr.val / 256) ≠ w →
      exec (.counterTake ctr) s = .next (rest.send 18 2 (.taken ctr.val p c id true none))) ∧
    (s.wcbank (ctr.val / 256) = w → ∀ e, first = some e →
      exec (.counterTake ctr) s = .next (({ rest with ctrs := { s.ctrs with pool := s.ctrs.pool.erase e } } : State).send 18 2
        (.taken ctr.val p c id false (some e.2)))) ∧
    (s.wcbank (ctr.val / 256) = w → first = none → ct.value.toNat < ct.limit.toNat →
      Answers (.counterTake ctr) s (fun t => ∃ u : State,
        u = { rest with ctrs := { s.ctrs with ctrs := u.ctrs.ctrs } } ∧
        tget ({} : Counter) u.ctrs.ctrs ctr.val = { ct with value := ct.value + 1 } ∧
        (∀ j, j ≠ ctr.val → tget ({} : Counter) u.ctrs.ctrs j = tget {} s.ctrs.ctrs j) ∧
        t = u.send 18 2 (.taken ctr.val p c id false (some ct.value.toNat)))) ∧
    (s.wcbank (ctr.val / 256) = w → first = none → ct.limit.toNat ≤ ct.value.toNat →
      exec (.counterTake ctr) s = .next (rest.send 18 2 (.taken ctr.val p c id false none))))

/-- R222, R229 to R233: a clock generator of an open region is started, with a high phase, and stopped alone. An access of a
block memory that no queue owns works port A before port B, each only while its generator runs. A port without the inline
code reads its row, or writes it and shows the old row, the new row or what it showed before, by its mode; an output
register shows the data one edge later. Under an inline code that corrects any single-bit and detects any double-bit error,
a row in which one bit is wrong is put right and its data presented, and one in which two bits are wrong raises the error
output and presents the data as stored. R217 to R219, R222, R227, R228, R242: a whole table puts out the bit that its six
inputs number, a split one the two bits that five number. A storage element in latch mode shows its data while the enable of
its controller is high, and else what it holds, its initial value at first; in flip-flop mode a set/reset that is
asynchronous shows the initial value. A crossing wire carries the neighbour's signal while the neighbour is open, and its
held value while it is closed. With no command waiting, the clocks and the controllers act (the model's choice, log entry
99): an edge of a running generator makes every flip-flop that selects it take its initial value under set/reset, or its
data while enabled; a controller closes the latches of its column on a request, sends the request on after its delay, takes
it back once acknowledged, and opens the latches again. What frames configure is opaque, and clocks run on an empty queue:
the model's choices (log entries 7, 99, 101). -/
def Obligations.ClocksAndBlockMemories : Prop :=
  ((∀ (r : Fin 128) (g : Fin 4) (on : Bool) (s : State), (s.region r.val).isOpen = true →
    let y := tget ({} : ClockGen) (s.region r.val).gens g.val
    Answers (.clockGeneratorEnable r g on) s (fun t => OnlyRegion r.val s t ∧
      t.region r.val = { s.region r.val with gens := (t.region r.val).gens } ∧
      tget {} (t.region r.val).gens g.val = { y with run := on, level := on && (y.level || !y.run) } ∧
      ∀ h, h ≠ g.val → tget ({} : ClockGen) (t.region r.val).gens h = tget {} (s.region r.val).gens h)) ∧
  (∀ (r : Fin 128) (bm : Fin 256) (a b : Option BmAccess) (s : State), (s.region r.val).isOpen = true →
    (s.region r.val).bmTaken bm.val = false →
    let x := s.region r.val
    Answers (.blockMemoryAccess r bm a b) s (fun t => OnlyRegion r.val s t ∧
      tget {} (t.region r.val).bms bm.val = x.accessB b (x.accessA a (tget {} x.bms bm.val)) ∧
      t.region r.val = { x with bms := (t.region r.val).bms } ∧
      ∀ k, k ≠ bm.val → tget ({} : BlockMem) (t.region r.val).bms k = tget {} x.bms k)) ∧
  (∀ (m : BlockMem) (a : BmAccess), a.shape = 6 → a.code = false → a.addr < 1024 →
    let data := match a.write with
      | some v => if a.mode = 0 then m.row a.addr else if a.mode = 1 then v else m.lastA
      | none => m.row a.addr
    (∀ i, i < 1024 → (m.portA a).row i = match a.write with
      | some v => if i = a.addr then v else m.row i
      | none => m.row i) ∧
    (m.portA a).lastA = data ∧ (m.portA a).errA = false ∧ (m.portA a).ackA = a.clk.isNone ∧
    (∀ g, a.clk = some g → a.outReg = true → (m.portA a).outA = m.outA ∧ ((m.portA a).edge g.val).outA = data) ∧
    (a.clk = none ∨ a.outReg = false → (m.portA a).outA = data) ∧
    (m.portA a).outB = m.outB ∧ (m.portA a).lastB = m.lastB ∧ (m.portA a).errB = m.errB) ∧
  (∀ code : Word → Byte, SecDed code → ∀ d : Word,
    codedRead code (bmRow d (code d)) = (bmRow d (code d), d.setWidth 72, false) ∧
    (∀ i, i < 72 →
      codedRead code (bmRow d (code d) ^^^ (1#72 <<< i)) = (bmRow d (code d), d.setWidth 72, false)) ∧
    ∀ i j, i < j → j < 72 →
      let r := bmRow d (code d) ^^^ (1#72 <<< i) ^^^ (1#72 <<< j)
      codedRead code r = (r, (r.setWidth 64).setWidth 72, true))) ∧
  ((∀ (l : BitVec 64) (i0 i1 i2 i3 i4 i5 : Bool),
    let j := b2n i0 + 2 * b2n i1 + 4 * b2n i2 + 8 * b2n i3 + 16 * b2n i4
    tableO6 l [i0, i1, i2, i3, i4, i5] = l.getLsbD (j + 32 * b2n i5) ∧ tableO5A l [i0, i1, i2, i3, i4, i5] = l.getLsbD j ∧
    tableO5B l [i0, i1, i2, i3, i4, i5] = l.getLsbD (32 + j)) ∧
  (∀ (s : State) (k r i : Nat),
    let c := (s.region r).cellConf i
    let ins := [c.ins 0, c.ins 1, c.ins 2, c.ins 3, c.ins 4, c.ins 5].map (s.net k r)
    let o0 := if c.split then tableO5A c.table ins else tableO6 c.table ins
    let o1 := c.split && tableO5B c.table ins
    let on := ((s.region r).hc (4 * (i / 500) + c.sel.val)).en
    let held (q : Nat) := (tlook (2 * i + q) (s.region r).se).getD (if q = 0 then c.init0 else c.init1)
    let clear := c.srAsync && s.net k r c.sr
    s.net (k + 1) r (.cell i 0) = o0 ∧ s.net (k + 1) r (.cell i 1) = o1 ∧
    s.net (k + 1) r (.cell i 2) = (if c.latch then (if on then (if c.byX0 then s.net k r c.x0 else o0) else held 0)
      else if clear then c.init0 else held 0) ∧
    s.net (k + 1) r (.cell i 3) = (if c.latch then (if on then (if c.byX1 then s.net k r c.x1 else o1) else held 1)
      else if clear then c.init1 else held 1)) ∧
  (∀ (s : State) (k r : Nat) (e : Fin 4) (j nb : Nat),
    let opp : Fin 4 := [1, 0, 3, 2].getD e.val 0
    let hold := Config.crossHold (s.region r).hard e j
    ((e = 0 ∧ nb + 1 = r ∧ r % 4 ≠ 0) ∨ (e = 1 ∧ nb = r + 1 ∧ r % 4 ≠ 3) ∨ (e = 2 ∧ nb + 4 = r ∧ 4 ≤ r % 8) ∨
      (e = 3 ∧ nb = r + 4 ∧ r % 8 < 4)) →
    ((s.region nb).isOpen = true → s.net (k + 1) r (.cross e j) = s.net k nb (Config.crossOut (s.region nb).hard opp j)) ∧
    ((s.region nb).isOpen = false → s.net (k + 1) r (.cross e j) =
      if hold = 0 then false else if hold = 1 then true
      else (tlook (1536 * opp.val + j) (s.region nb).crossLast).getD (bit (Config.freeWord r j) 1))) ∧
  (∀ s : State, s.pending = [] → step s = .next (s.happen (Config.tickEvent s.fresh)).bump) ∧
  (∀ (s : State) (r : Fin 128) (g : Fin 4),
    let x := s.region r.val
    let t := s.happen (.edge r g)
    (x.isOpen = true → (tget ({} : ClockGen) x.gens g.val).run = true → s.sourceRuns r.val g.val = true →
      OnlyRegion r.val s t ∧
        t.region r.val = { x with se := (t.region r.val).se, bms := (t.region r.val).bms, gens := (t.region r.val).gens } ∧
        (∀ i q, i < 150000 → q < 2 →
          let c := x.cellConf i
          tlook (2 * i + q) (t.region r.val).se =
            if c.latch = true ∨ c.sel ≠ g then tlook (2 * i + q) x.se
            else if s.netOf r.val c.sr then some (if q = 0 then c.init0 else c.init1)
            else if s.netOf r.val (if q = 0 then c.en0 else c.en1) then some (s.seData r.val i q) else tlook (2 * i + q) x.se) ∧
        (∀ m, tget ({} : BlockMem) (t.region r.val).bms m = (tget ({} : BlockMem) x.bms m).edge g.val) ∧
        (tget ({} : ClockGen) (t.region r.val).gens g.val) = { tget ({} : ClockGen) x.gens g.val with level := true }) ∧
    (x.isOpen = false ∨ (tget ({} : ClockGen) x.gens g.val).run = false ∨ s.sourceRuns r.val g.val = false → t = s)) ∧
  (∀ (s : State) (r : Fin 128) (key : Nat), (s.region r.val).isOpen = true → key < 1200 →
    let x := s.region r.val
    let c := Config.hcConf x.hard key
    let h := x.hc key
    let reqIn := s.netOf r.val c.reqIn
    let ackIn := s.netOf r.val c.ackIn
    let takes := h.wait.isNone && h.en && reqIn && !h.ack && !h.req && !ackIn
    let t := s.happen (.hc r key)
    OnlyRegion r.val s t ∧ t.region r.val = { x with hcs := (t.region r.val).hcs, se := (t.region r.val).se } ∧
    (∀ k, k ≠ key → (t.region r.val).hc k = x.hc k) ∧
    (t.region r.val).hc key = (match h.wait with
      | some 0 => { h with req := true, wait := none }
      | some (n + 1) => { h with wait := some n }
      | none =>
        if h.en = true ∧ reqIn = true ∧ h.ack = false ∧ h.req = false ∧ ackIn = false then
          { h with en := false, ack := true, wait := some c.delay.toNat }
        else if h.req = true ∧ ackIn = true then { h with req := false }
        else if h.ack = true ∧ reqIn = false then { h with ack := false }
        else if h.en = false ∧ h.ack = false ∧ h.req = false then { h with en := true }
        else h) ∧
    ∀ i q, q < 2 → tlook (2 * i + q) (t.region r.val).se =
      if takes = true ∧ 500 * (key / 4) ≤ i ∧ i < 500 * (key / 4) + 500 ∧ (x.cellConf i).latch = true ∧
          (x.cellConf i).sel.val = key % 4 then some (s.seData r.val i q)
      else tlook (2 * i + q) x.se))

/-- R229, R230: what is written at an address of a block memory in a shape is read back there in that shape, whatever the width.
-/
def Obligations.BlockMemoryReadBack : Prop :=
  ∀ (b : BlockMem) (shape : Fin 7) (addr : Nat) (v : BitVec 72), addr < shapeDepth shape.val →
    ((b.put shape.val addr v).get shape.val addr).toNat = v.toNat % 2 ^ shapeWidth shape.val

/-- R31, R234 to R237: a controller on a clock that runs, or on a handshake, is bound while it is empty and without credit, and
takes data while it has room. The grant that has come first to the region port opens a range if the granting task is the
bound one, in the region's world, and else faults that task. The controller whose turn it is sends what fits its first range
in one token of at most 256 bytes; a token with an uncorrectable word goes out too and raises the error output. -/
def Obligations.QueueControllers : Prop :=
  (∀ (r : Fin 128) (q : Fin 48) (l : Fin 768) (x : BitVec 2) (d : Fin 16) (on : Bool) (clk : Option (Fin 4)) (s : State),
    (s.region r.val).isOpen = true → (s.region r.val).clocked clk = true →
    ((s.region r.val).qc q.val).mode = 1 → ((s.region r.val).qc q.val).fill = [] → ((s.region r.val).qc q.val).credit = 0 →
    Answers (.bind r (q, clk) l x d on) s (fun t => OnlyRegion r.val s t ∧
      (t.region r.val).qc q.val = { (s.region r.val).qc q.val with bound := if on then some (l.val, x.toNat, d.val) else none } ∧
      (∀ p, p ≠ q.val → (t.region r.val).qc p = (s.region r.val).qc p) ∧
      t.region r.val = { s.region r.val with qcs := (t.region r.val).qcs })) ∧
  (∀ (r : Fin 128) (q : Fin 48) (w : Word) (clk : Option (Fin 4)) (s : State),
    (s.region r.val).isOpen = true → (s.region r.val).clocked clk = true → ((s.region r.val).qc q.val).mode = 1 →
    ((s.region r.val).qc q.val).fill.length + 8 ≤ (((s.region r.val).qc q.val).depth.toNat + 1) * 32768 →
    Answers (.queueDataWord r (q, clk) w) s (fun t => OnlyRegion r.val s t ∧
      (t.region r.val).qc q.val = { (s.region r.val).qc q.val with
        fill := ((s.region r.val).qc q.val).fill ++ bytesOf 8 w.toNat } ∧
      (∀ p, p ≠ q.val → (t.region r.val).qc p = (s.region r.val).qc p) ∧
      t.region r.val = { s.region r.val with qcs := (t.region r.val).qcs })) ∧
  (∀ (r : Fin 128) (q : Fin 48) (s : State) (l x n : Nat) (w : World) (p c xi id : Nat) (g : Grant),
    s.msgs.find? (toRegion r.val) = some (.grant l x (queueKey r.val q.val) n w (some (p, c, xi, id))) →
    (s.ctx p c).grants.find? (fun (g : Grant) => decide (g.id = id) && decide (g.key = queueKey r.val q.val)) = some g →
    (s.queueTakes r.val q.val p c g = true →
      Answers (.queueGrant r q) s (fun t =>
        t.msgs = s.msgs.erase (.grant l x (queueKey r.val q.val) n w (some (p, c, xi, id))) ∧
        (t.region r.val).qc q.val = { (s.region r.val).qc q.val with ranges := ((s.region r.val).qc q.val).ranges ++
          [{ p := p, ctx := c, xi := xi, id := id, off := g.lo, left := g.len }] } ∧
        (∀ j, j ≠ q.val → (t.region r.val).qc j = (s.region r.val).qc j) ∧
        t = { s with msgs := t.msgs, fab := { s.fab with regions := t.fab.regions } } ∧
        ∀ b, b ≠ r.val → t.region b = s.region b)) ∧
    (s.queueTakes r.val q.val p c g = false → (s.ctx p c).active = true →
      Answers (.queueGrant r q) s (fun t =>
        t.msgs = s.msgs.erase (.grant l x (queueKey r.val q.val) n w (some (p, c, xi, id))) ∧ t.fab = s.fab ∧
        (t.ctx p c).fCode = 8 ∧ (t.ctx p c).fLoc1 = BitVec.ofNat 32 xi ∧ (t.ctx p c).fLoc2 = 6))) ∧
  (∀ (r : Fin 128) (q : Fin 48) (ue : Bool) (s : State) (g : QRange) (rest : List QRange) (b : Nat × Nat × Nat),
    let c := (s.region r.val).qc q.val
    let n := min 256 g.left
    let data := if ue then (List.range n).map (fun i => Config.freeByte s.fresh i) else c.fill.take n
    (s.region r.val).isOpen = true → c.ranges = g :: rest → c.bound = some b → n ≤ c.fill.length →
    nextServed (s.region r.val).served q.val (s.region r.val).readyQs = true →
    Answers (.queueTokenSend r (q, ue)) s (fun t => ∃ u : State, OnlyRegion r.val s u ∧
      (u.region r.val).qc q.val = { c with
        fill := c.fill.drop n, err := c.err || ue
        ranges := if g.left ≤ 256 then rest else { g with off := g.off + 256, left := g.left - 256 } :: rest } ∧
      (∀ j, j ≠ q.val → (u.region r.val).qc j = (s.region r.val).qc j) ∧
      u.region r.val = { s.region r.val with qcs := (u.region r.val).qcs, served := q.val } ∧
      t = u.send (r.val / 8) (52 + r.val % 8)
        (.remote b.1 b.2.1 b.2.2 (queueKey r.val q.val) g.off data (decide (g.left ≤ 256)) (.queue r.val q.val))))

/-- R239, R240, R253: a request within one page is sent with the region's world and awaits its response; one outside the memory
space is answered with an error at once. A token is shown to the fabric as 32 words when there is room for them, and waits
when there is none; a region that is not open refuses it. R242, R394, R395: closing an open region by command takes its
controllers' bindings, data and credit, refuses with a fault the tasks whose credit they held, and is answered once no
request is outstanding. A close of a region that is closed is answered at once, one of a region that is being configured is
refused, and so is one with a reserved bit set. -/
def Obligations.RegionPortAndClose : Prop :=
  ((∀ (r : Fin 128) (write : Bool) (addr : BitVec 40) (len : Nat) (data : List Byte) (s : State),
    (s.region r.val).isOpen = true → 0 < len → len ≤ 4096 → addr.toNat % 4096 + len ≤ 4096 → (s.region r.val).reqs.length < 4 →
    let x := s.region r.val
    (inMemSpace addr.toNat = true →
      Answers (.regionPortRequest r write addr len data) s (fun t => ∃ u : State, OnlyRegion r.val s u ∧
        u.region r.val = { x with
          reqs := x.reqs ++ [{ tag := x.nextTag, write := write }], nextTag := x.nextTag + 1, served := 48 } ∧
        t = u.sendReq {
          src := .region r.val x.nextTag, write := write, addr := addr.toNat, len := len
          data := if write then (List.range len).map (fun i => data.getD i 0) else [], world := x.world })) ∧
    (inMemSpace addr.toNat = false → x.reqs = [] → x.closing = none → x.givenBytes ≤ 2048 →
      Answers (.regionPortRequest r write addr len data) s (fun t => OnlyRegion r.val s t ∧
        t.region r.val = { x with given := x.given ++ [(write, 4, [])], nextTag := x.nextTag + 1, served := 48 }))) ∧
  (∀ (r : Fin 128) (taken : Nat) (s : State) (k : InTok) (rest : List InTok), (s.region r.val).arriving = k :: rest →
    let x := s.region r.val
    Answers (.regionPortInboundToken r taken) s (fun t => OnlyRegion r.val s t ∧
      t.region r.val =
        if x.isOpen = false then { x with arriving := rest }
        else if (x.inbound.drop taken).length + 32 ≤ 256 then
          { x with arriving := rest, inbound := x.inbound.drop taken ++ k.shown }
        else { x with inbound := x.inbound.drop taken }))) ∧
  ((∀ (c : Fin 64) (s : State) (i : Nat) (e : LgEntry), Running s c.val 0x13 i e →
    let r := bits (s.pw i 0) 6 0
    (s.rsvd i [(0, 63, 7)] = true →
      Answers (.islRegionClose c) s (fun t => Replied s t i { status := 0x12 } ∧ OnlyLedger s t ∧ t = { s with keel := t.keel })) ∧
    (s.rsvd i [(0, 63, 7)] = false → (s.region r).state = 0 →
      Answers (.islRegionClose c) s (fun t =>
        (t.region r).state = 1 ∧ (t.region r).closing = some (.command i) ∧
        (∀ q ∈ (t.region r).qcs, q.2.bound = none ∧ q.2.fill = [] ∧ q.2.ranges = []) ∧
        (∀ q ∈ (s.region r).qcs, ∀ g ∈ q.2.ranges, (s.ctx g.p g.ctx).active = true →
          (t.ctx g.p g.ctx).fCode = 8 ∧ (t.ctx g.p g.ctx).fLoc2 = 6 ∧ (t.ctx g.p g.ctx).ending.isSome) ∧
        ((∀ q ∈ (s.region r).qcs, q.2.ranges = []) →
          t = { s with keel := { s.keel with current := none }, fab := t.fab, weevils := t.weevils }) ∧
        ∀ q, q ≠ r → t.region q = s.region q)) ∧
    (s.rsvd i [(0, 63, 7)] = false → (s.region r).state = 1 →
      Answers (.islRegionClose c) s (fun t => Replied s t i { status := 0x00 } ∧ OnlyLedger s t ∧ t = { s with keel := t.keel })) ∧
    (s.rsvd i [(0, 63, 7)] = false → (s.region r).state ≠ 0 → (s.region r).state ≠ 1 →
      Answers (.islRegionClose c) s (fun t => Replied s t i { status := 0x11 } ∧ OnlyLedger s t ∧ t = { s with keel := t.keel }))) ∧
  (∀ (r : Fin 128) (s : State) (i : Nat) (e : LgEntry), (s.region r.val).closing = some (.command i) →
    (s.region r.val).reqs = [] → s.entry i = some e → e.state ≠ .complete →
    Answers (.regionCloseComplete r) s (fun t =>
      t.region r.val = { s.region r.val with closing := none } ∧ (∀ q, q ≠ r.val → t.region q = s.region q) ∧
      (∃ e', t.entry i = some e' ∧ e'.state = .complete ∧ e'.reply = some { status := 0x00 }) ∧
      (∀ j, j ≠ i → t.entry j = s.entry j) ∧
      t = { s with keel := t.keel, fab := { s.fab with regions := t.fab.regions } })) ∧
  (∀ (r : Fin 128) (s : State), ((s.region r.val).closing = some .weevil ∨ (s.region r.val).closing = some .reset) →
    (s.region r.val).reqs = [] →
    Answers (.regionCloseComplete r) s (fun t => OnlyRegion r.val s t ∧
      t.region r.val = { s.region r.val with closing := none })) ∧
  (∀ (r : Fin 128) (s : State), (s.region r.val).reqs ≠ [] → exec (.regionCloseComplete r) s = .next s))

/-- R244 to R247, R353: GPIOCFG takes its fields from a secure write alone. A region's changed outputs go to every rim with a
pin of the region, one token in flight at a time; a token that states its kind and its region drives the region's pins, and
any other is discarded. Whenever the level at an input pin changes, its rim sends the inputs to the region that the pin
names; a driven pin keeps its own level. What a newly bound pin drives is the model's reading (log entry 47). -/
def Obligations.GpioPins : Prop :=
  (∀ (m : Fin 2) (p : Fin 128) (v : Word) (s : State), s.up = true →
    Answers (.gpiocfgWrite true m p v) s (fun t =>
      (t.pin (128 * m.val + p.val)).cfg = gpioMerge p.val (s.pin (128 * m.val + p.val)).cfg v ∧
      (∀ j, j ≠ 128 * m.val + p.val → PinKept s t j) ∧
      t.fab = { s.fab with pins := t.fab.pins, regions := t.fab.regions, edges := t.fab.edges } ∧
      t = { s with fab := t.fab, web := t.web, keel := t.keel, fresh := t.fresh }) ∧
    exec (.gpiocfgWrite false m p v) s = .next s) ∧
  (∀ (r : Fin 128) (val oe : Word) (s : State), (s.region r.val).isOpen = true →
    ((s.region r.val).ioVal, (s.region r.val).ioOe) ≠ (val, oe) →
    Answers (.ioOutputChange r val oe) s (fun t =>
      t.region r.val = { s.region r.val with ioVal := val, ioOe := oe, ioPend := s.ioFlying r.val } ∧
      t.fab.ioToks = (if s.ioFlying r.val then s.fab.ioToks else s.fab.ioToks ++
        (s.ioMask r.val).map (fun m => (m, r.val, packF [(0, 2, 1), (2, 7, r.val)], val, oe))) ∧
      (∀ q, q ≠ r.val → t.region q = s.region q) ∧
      t = { s with fab := { s.fab with regions := t.fab.regions, ioToks := t.fab.ioToks } })) ∧
  (∀ (m : Fin 2) (p : Fin 128) (level : Option Bool) (s : State),
    let j := 128 * m.val + p.val
    let x := s.pin j
    Answers (.ioInputChange m p level) s (fun t =>
      t.pin j = { x with level := level, kept := s.pinLevel j } ∧ (∀ k, k ≠ j → PinKept s t k) ∧
      (∀ b, s.pinDrive j = some b → t.pinLevel j = b) ∧ (∀ b, s.pinDrive j = none → level = some b → t.pinLevel j = b) ∧
      (t.region x.reg).arriving = (s.region x.reg).arriving ++
        (if s.pinLevel j ≠ t.pinLevel j ∧ x.src = 1 ∧ x.dir ≠ 1 ∧ s.rimInReset m.val = false then [t.ioInTok m.val x.reg] else []) ∧
      (∀ q, q ≠ x.reg → t.region q = s.region q) ∧
      t = { s with fab := { s.fab with pins := t.fab.pins, regions := t.fab.regions, edges := t.fab.edges } })) ∧
  (∀ (m : Fin 2) (s : State) (r : Nat) (w0 val oe : Word),
    s.fab.ioToks.find? (fun t => decide (t.1 = m.val)) = some (m.val, r, w0, val, oe) →
    let again := (s.region r).ioPend && !(s.fab.ioToks.erase (m.val, r, w0, val, oe)).any (fun t => decide (t.2.1 = r))
    Answers (.ioChannelToken m) s (fun t =>
      t.fab.ioToks = s.fab.ioToks.erase (m.val, r, w0, val, oe) ++
        (if again then (s.ioMask r).map (fun k => (k, r, (s.region r).ioWords r)) else []) ∧
      (t.region r).ioPend = ((s.region r).ioPend && !again) ∧ (∀ q, q ≠ r → t.region q = s.region q) ∧
      (s.ioValid r w0 = true →
        (∀ i, (tlook i s.fab.pins).isSome → i / 128 = m.val → (s.pin i).src = 1 → (s.pin i).reg = r →
          t.pin i = { s.pin i with
            val := bit val (s.pin i).sig, oe := bit oe (s.pin i).sig, hold := none, kept := s.pinLevel i }) ∧
        (∀ i, i / 128 ≠ m.val ∨ (s.pin i).src ≠ 1 ∨ (s.pin i).reg ≠ r → PinKept s t i) ∧
        (t.region r).arriving = (s.region r).arriving ++
          (if (s.changedPins t).any (fun i => t.pinFeeds i = some (m.val, r)) then [t.ioInTok m.val r] else [])) ∧
      (s.ioValid r w0 = false → t.fab.pins = s.fab.pins ∧ (t.region r).arriving = (s.region r).arriving) ∧
      t = { s with fab := { s.fab with
        pins := t.fab.pins, ioToks := t.fab.ioToks, regions := t.fab.regions, ioLast := t.fab.ioLast } }))

/-- R254, R257, R310, R394: a store write into a slot that is not busy and not protected, by a world that reaches it, is written
to the store, counts in the slot's write counter and takes the slot's image for no longer good; the reply says whether bytes
were lost. Any other is refused and changes nothing, and one that meets a retraining channel waits. R263 to R265, R268: the
oldest waiting load, while no load and no retraining is under way, has its image checked. A full image that passes, and
whose records before its regions read well, closes region 0 and a region image its target; one that fails a check is
answered with the cause. Once the region of a region image is closed, a section that reads well and whose content has the
stated check value opens it, and the command is answered. That a load goes by REGION_CLOSE_COMPLETE is the model's choice
(log entry 51). -/
def Obligations.StoreAndLoads : Prop :=
  (∀ (c : Fin 64) (ecc : List CodeWordError) (s : State) (i : Nat) (e : LgEntry), Running s c.val 0x10 i e → s.mem.resps = [] →
    let a := bits (s.pw i 0) 39 0
    let data := (s.paramsOf i).drop 8
    let sl := (a - slotBase 0) / slotSize
    let u := ((storeTaken s sl).eccWrite a data.length ecc).memWrite a data
    let bad : Prop := s.rsvd i [(0, 63, 40)] = true ∨ a < slotBase 0 ∨ storeEnd ≤ a ∨ slotBase sl + slotSize < a + data.length
    let barred : Prop := e.world = false ∧ slotWorld sl = true
    let locked : Prop := (s.slot sl).busy = true ∨ (sl = 0 ∧ s.ldr.prot = true)
    let Refused (st : BitVec 8) : Prop := Answers (.islStoreWrite c ecc) s (fun t =>
      Replied s t i { status := st } ∧ OnlyLedger s t ∧ t = { s with keel := t.keel })
    (bad → Refused 0x12) ∧ (¬ bad → barred → Refused 0x13) ∧ (¬ bad → ¬ barred → locked → Refused 0x11) ∧
    (¬ bad → ¬ barred → ¬ locked → s.memHeld a data.length = true → exec (.islStoreWrite c ecc) s = .next s) ∧
    (¬ bad → ¬ barred → ¬ locked → s.memHeld a data.length = false →
      Answers (.islStoreWrite c ecc) s (fun t => t = (u.1.complete i
        { status := if u.2 = 0 then 0x00 else if u.2 = 2 then 0x33 else 0x31 }).deliver))) ∧
  ((∀ (c : Fin 64) (env : LoadEnv) (s : State) (i sl : Nat) (e : LgEntry),
    s.loadNext c.val 0x11 = some (i, e) → s.entry i = some e → e.state ≠ .complete →
    slotOfBase (bits (s.pw i 0) 39 0) = some sl → bits (s.pw i 0) 63 40 = 0 → bits (s.pw i 1) 63 40 = 0 →
    Answers (.islImageLoad c env) s (fun t =>
      match (loadTaken s sl env).loadChecks sl (bits (s.pw i 1) 39 0) true e.world (bits (s.pw i 2) 6 0) with
      | (u, .ok h) =>
        (u.scanJob { entry := i, slot := sl, full := true, target := bits (s.pw i 2) 6 0, env := env, at_ := 0, hdr := h }
          (fun reg => reg.isNone)).fail = none →
        LoadsRegion t i sl 0 true
      | (_, .error (cause, st)) => t.ldr.job = none ∧ (t.slot sl).busy = false ∧
        ∃ e', t.entry i = some e' ∧ e'.state = .complete ∧ e'.reply = some { status := st, det0 := lddet cause 0 0 0 })) ∧
  (∀ (c : Fin 64) (env : LoadEnv) (s : State) (i sl : Nat) (e : LgEntry),
    s.loadNext c.val 0x12 = some (i, e) → s.entry i = some e → e.state ≠ .complete →
    slotOfBase (bits (s.pw i 0) 39 0) = some sl → bits (s.pw i 0) 63 40 = 0 → bits (s.pw i 1) 63 40 = 0 →
    bits (s.pw i 2) 63 7 = 0 →
    Answers (.islRegionLoad c env) s (fun t =>
      match (loadTaken s sl env).loadChecks sl (bits (s.pw i 1) 39 0) false e.world (bits (s.pw i 2) 6 0) with
      | (u, .ok _) => LoadsRegion t i sl (regionTarget ((u.firstReghdr sl).getD (0, [])) (bits (s.pw i 2) 6 0)) false
      | (_, .error (cause, st)) => t.ldr.job = none ∧ (t.slot sl).busy = false ∧
        ∃ e', t.entry i = some e' ∧ e'.state = .complete ∧ e'.reply = some { status := st, det0 := lddet cause 0 0 0 })) ∧
  (∀ (r : Fin 128) (s : State) (j : LoadJob) (e : LgEntry),
    (s.region r.val).closing = some .load → (s.region r.val).reqs = [] → s.retraining = false → s.ldr.job = some j → j.at_ = r.val →
    j.full = false → s.entry j.entry = some e → e.state ≠ .complete →
    let sc := s.scanJob j (fun _ => true)
    sc.fail = none → j.golden = none →
    Answers (.regionCloseComplete r) s (fun t =>
      (sc.s.loadSection r.val sc.recs (decide (j.env.readbackBad = some r) || !s.dieUp r.val)).2 = true →
      (t.region r.val).isOpen = true ∧ (t.region r.val).closing = none ∧ (t.region r.val).empty = false ∧
      (t.region r.val).loads = satInc (s.region r.val).loads ∧ t.ldr.job = none ∧ (t.slot j.slot).busy = false ∧
      ∃ e', t.entry j.entry = some e' ∧ e'.state = .complete ∧ e'.reply = some { status := 0x00 })))

/-- R269, R272 to R274, R276, R277: a read of 64 bytes counts its corrected words and goes on through the region, and at the end
of a pass to the next; one with an uncorrectable word records the upset with the word's offset and closes the region. A
check of a Weevil that has read since the last, or has nothing to read, puts back the settings of the next Weevil of the
ring; one that has stood still is restarted from region 0. The number by which FIXED advances is the model's reading (log
entry 56). -/
def Obligations.WeevilScrubbing : Prop :=
  (∀ (n : Fin 16) (res : List EccResult) (crc : Option Word32) (s : State),
    let w := s.weevil n.val
    let x := s.region (8 * n.val + w.region.toNat)
    let v := { w with
      corr := satInc w.corr ((res.take 8).filter (fun e => decide (e = EccResult.corrected))).length, readOne := true }
    wvEn w.used = true → s.dieState n.val ≠ 3 → w.region.toNat ∈ s.wvRegions n.val w.used →
    (.uncorrectable ∉ res.take 8 → w.pos + 1 < 112564 →
      Answers (.weevilRead n res crc) s (fun t => OnlyWeevil n.val s t ∧ t.weevil n.val = { v with pos := w.pos + 1 })) ∧
    (.uncorrectable ∉ res.take 8 → 112564 ≤ w.pos + 1 → crc.getD x.schk = x.schk →
      Answers (.weevilRead n res crc) s (fun t => OnlyWeevil n.val s t ∧
        t.weevil n.val = match (s.wvRegions n.val w.used).find? (fun q => decide (w.region.toNat < q)) with
          | some q => { v with region := BitVec.ofNat 3 q, pos := 0 }
          | none => { v with
              region := BitVec.ofNat 3 ((s.wvRegions n.val w.used).headD 0), pos := 0, rounds := w.rounds + 1 })) ∧
    (∀ k, (res.take 8).findIdx? (fun e => decide (e = EccResult.uncorrectable)) = some k → s.keel.events.length < 16384 →
      Answers (.weevilRead n res crc) s (fun t =>
        (t.region (8 * n.val + w.region.toNat)).state = 1 ∧
        (t.region (8 * n.val + w.region.toNat)).closing = some .weevil ∧ (t.weevil n.val).corr = v.corr ∧
        (∃ r rest, t.keel.events = s.keel.events ++ r :: rest ∧ r.src = 3 ∧
          r.w1 = packF [(0, 4, n.val), (4, 3, w.region.toNat), (7, 1, 0)] ∧ r.w2 = BitVec.ofNat 64 (64 * w.pos + 8 * k)) ∧
        (∀ q, q ≠ 8 * n.val + w.region.toNat → t.region q = s.region q) ∧ t.mem = s.mem))) ∧
  (∀ (n : Fin 16) (s : State) (m : Nat), s.dieState n.val ≠ 3 → s.wvSuccessor n.val = some m →
    let w := s.weevil m
    let bad := (w.copies.filter (fun c => decide (c ≠ w.master))).length
    (w.readOne = true ∨ wvEn w.master = false ∨ s.wvRegions m w.master = [] →
      Answers (.weevilCheck n) s (fun t => OnlyWeevil m s t ∧
        t.weevil m = { w with copies := [w.master, w.master, w.master], readOne := false, fixed := satInc w.fixed bad })) ∧
    (w.readOne = false → wvEn w.master = true → s.wvRegions m w.master ≠ [] →
      Answers (.weevilCheck n) s (fun t => OnlyWeevil m s t ∧
        t.weevil m = { w with
          copies := [w.master, w.master, w.master], readOne := false, region := 0, pos := 0
          restart := satInc w.restart, fixed := satInc (satInc w.fixed bad) 3 })))

/-- R275: WVCTL is written from the secure world alone; a write goes to the master copy and to the three latch copies, a read
gives the master copy in the layout of the table, and the reset values are EN 0, REGMASK 0 and GAP 0x003C. -/
def Obligations.WeevilControl : Prop :=
  ∀ (n : Fin 16) (v : Word) (w : World) (s : State),
    let a := 0xFC40000000 + 0x100000 * n.val + 0x89000
    s.readReg w a = (s, (s.weevil n.val).master) ∧
    (State.reset.readReg w a).2 = 0x003C0000 ∧
    (s.up = true →
      Answers (.wvctlWrite true n v) s (fun t => OnlyWeevil n.val s t ∧
        (t.weevil n.val).copies = [(t.weevil n.val).master, (t.weevil n.val).master, (t.weevil n.val).master] ∧
        t.weevil n.val = { s.weevil n.val with master := (t.weevil n.val).master, copies := (t.weevil n.val).copies } ∧
        bits (t.readReg w a).2 0 0 = bits v 0 0 ∧ bits (t.readReg w a).2 7 1 = 0 ∧ bits (t.readReg w a).2 15 8 = bits v 15 8 ∧
        bits (t.readReg w a).2 31 16 = bits v 31 16 ∧ bits (t.readReg w a).2 63 32 = 0) ∧
      Answers (.wvctlWrite false n v) s (fun t => t = s))

/-- R283, R286, R289, R290, R293, R410: the oldest request for a port that fails its checks is answered with a status and no
byte is moved. Else its parts wait in the queues of the home channels, with copies of a mirrored write forwarded to the
other rim, or in those of the mirror where the home device has failed; a write of whole code words to sound channels that
needs no copy is acknowledged at once. Where both are lost it is answered MEM_LOST, and while a queue is full it waits.
R289, R301: a mirror copy is held in the mirror channel's queue, or is lost with its failed device; the home controller then
counts it as done, and the last one acknowledges its write. While the queue is full it waits. What a byte that is not listed
reads as is a free value (log entry 14). -/
def Obligations.MemoryRequests : Prop :=
  (∀ (m : Fin 2) (port : Fin 40) (s : State) (r : MemReq),
    s.mem.net.find? (fun r => decide (s.portOf r.write r.addr = (m.val, port.val)) ||
      decide (s.homePort r.addr = (m.val, port.val))) = some r →
    let e := s.mrtE (blockIx r.addr)
    let rest := { s with mem := { s.mem with net := s.mem.net.erase r } }
    let hs := s.partsOf r s.mem.nextId false (homeSpot e)
    let ms := if e.mirror then s.partsOf r s.mem.nextId true (mirrorSpot e) else []
    let sound (xs : List (Nat × Part)) : Prop := xs ≠ [] ∧ ∀ x ∈ xs, s.devFailed (devOf x.1) = false
    let due (xs : List (Nat × Part)) := xs.map (fun x => (x.1, { x.2 with owes := !r.write || !x.2.whole e.codec }))
    (s.reqCheck r ≠ 0 → exec (.memoryRequest m port) s = .next (rest.memRespond r (s.reqCheck r) [])) ∧
    (s.reqCheck r = 0 → ∀ xs fwd : List (Nat × Part),
      ((sound hs ∧ xs = hs ∧ ((r.write = true ∧ sound ms ∧ fwd = ms) ∨ (¬ (r.write = true ∧ sound ms) ∧ fwd = []))) ∨
        (¬ sound hs ∧ sound ms ∧ xs = ms ∧ fwd = [])) →
      (∀ x ∈ xs, s.hasRoom x.1 = true) →
      let waits := ((due xs).filter (fun x => x.2.owes)).length + fwd.length
      Answers (.memoryRequest m port) s (fun t => ∃ u : State,
        u = { rest with mem := u.mem } ∧ u.mem.net = rest.mem.net ∧ u.mem.cells = s.mem.cells ∧ u.mem.resps = s.mem.resps ∧
        u.mem.nextId = s.mem.nextId + 1 ∧ u.mem.copies = s.mem.copies ++ fwd.map (fun x => (x.1, { x.2 with owes := false })) ∧
        Queued (due xs) s u ∧
        (waits = 0 → u.mem.pend = s.mem.pend ∧ t = u.memRespond r 0 []) ∧
        (waits ≠ 0 → t = u ∧ u.mem.pend = tput s.mem.nextId { req := r, waits := waits } s.mem.pend))) ∧
    (s.reqCheck r = 0 → ¬ sound hs → ¬ sound ms → exec (.memoryRequest m port) s = .next (rest.memRespond r 2 [])) ∧
    (s.reqCheck r = 0 → ((sound hs ∧ ∃ x ∈ hs, s.hasRoom x.1 = false) ∨ (¬ sound hs ∧ sound ms ∧ ∃ x ∈ ms, s.hasRoom x.1 = false)) →
      exec (.memoryRequest m port) s = .next s)) ∧
  (∀ (m : Fin 2) (c : Fin 40) (s : State) (x : Nat × Part),
    let ch := 40 * m.val + c.val
    s.mem.copies.find? (fun x => decide (x.1 = ch)) = some x →
    (∀ q : PendReq, tlook x.2.rid s.mem.pend = some q → q.req.write = true → (s.devFailed (devOf ch) = true ∨ s.hasRoom ch = true) →
      Answers (.mirrorCopy m c) s (fun t => ∃ u : State, u = { s with mem := u.mem } ∧ u.mem.copies = s.mem.copies.erase x ∧
        Queued (if s.devFailed (devOf ch) then [] else [(ch, x.2)]) s u ∧ u.mem.cells = s.mem.cells ∧
        (q.waits ≤ 1 → tlook x.2.rid u.mem.pend = none ∧ t = u.memRespond q.req q.status.toNat []) ∧
        (1 < q.waits → t = u ∧ tlook x.2.rid u.mem.pend = some { q with waits := q.waits - 1 }))) ∧
    (s.devFailed (devOf ch) = false → s.hasRoom ch = false → exec (.mirrorCopy m c) s = .next s))

/-- R281, R295, R300 to R304: a slot of a channel in service goes to the first due command that can be issued: a refresh closes
its bank, counts, makes tracking due each 64 and clears the activate counters each full cycle; a neighbour refresh activates
its row and counts; an RFM command closes its bank and counts; a tracking step renews two result words. Refresh and RFM
lower the bank's activation count. Else the slot goes to the part that the controller picks: where no code word is in error
a write is stored at its offsets alone, and a read answers with the bytes stored. The last part of a request sends its
response. By how much a code word differs is an operand (log entry 24). -/
def Obligations.CommandSlots : Prop :=
  (∀ (m : Fin 2) (c : Fin 40) (busy : List (Fin 16)) (ecc : List CodeWordError) (s : State) (d : Due),
    let ch := 40 * m.val + c.val
    let x := s.mchan ch
    x.state = 1 → x.sref = false → x.postponed = 0 → x.due.find? (s.dueReady ch (busy.map (·.val))) = some d →
    (∀ b, d = .refresh b → Answers (.commandSlot m c busy ecc) s (fun t => OnlyMchan ch s t ∧
      t.mchan ch = { x with
        due := if (x.refs + 1) % 64 = 0 then x.due.erase d ++ [.track] else x.due.erase d
        openRow := tdel b x.openRow, refs := x.refs + 1, rows := if (x.refs + 1) % 131072 = 0 then [] else x.rows
        raa := loweredRaa s ch b })) ∧
    (∀ b r, d = .neighbour b r → Answers (.commandSlot m c busy ecc) s (fun t => OnlyMchan ch s t ∧
      ∃ u, OnlyMchan ch s u ∧ u.mchan ch = { x with due := x.due.erase d } ∧
        t.mchan ch = { (u.activate ch b r).mchan ch with
          openRow := tdel b ((u.activate ch b r).mchan ch).openRow, nref := satInc x.nref } ∧
        tget 0 (t.mchan ch).raa b = tget 0 x.raa b + 1)) ∧
    (∀ b, d = .rfm b → Answers (.commandSlot m c busy ecc) s (fun t => OnlyMchan ch s t ∧
      t.mchan ch = { x with
        due := x.due.erase d, openRow := tdel b x.openRow, rfm := satInc x.rfm, raa := loweredRaa s ch b })) ∧
    (d = .track → Answers (.commandSlot m c busy ecc) s (fun t =>
      t = { s with mem := { s.mem with chans := t.mem.chans }, fresh := s.fresh + 1 } ∧ (∀ k, k ≠ ch → t.mchan k = s.mchan k) ∧
      t.mchan ch = { x with due := x.due.erase d, results := (t.mchan ch).results } ∧
      ∀ i, i ≠ 2 → i ≠ 3 → (t.mchan ch).results[i]? = x.results[i]?))) ∧
  (∀ (m : Fin 2) (c : Fin 40) (busy : List (Fin 16)) (s : State) (p : Part),
    let ch := 40 * m.val + c.val
    (s.mchan ch).state = 1 → (s.mchan ch).sref = false → (s.mchan ch).postponed = 0 →
    (s.mchan ch).due.find? (s.dueReady ch (busy.map (·.val))) = none →
    s.pick ch (busy.map (·.val)) = some p → s.devFailed (devOf ch) = false → s.mem.bad = [] →
    (p.write = true → p.owes = false →
      Answers (.commandSlot m c busy []) s (fun t => PartIssued ch p.rid s t ∧ t.mem.pend = s.mem.pend ∧
        t.mem.cells = putPieces ch p s.mem.cells)) ∧
    (∀ pq : PendReq, p.write = true → p.owes = true → tlook p.rid s.mem.pend = some pq →
      Answers (.commandSlot m c busy []) s (fun t => ∃ u, PartIssued ch p.rid s u ∧ u.mem.cells = putPieces ch p s.mem.cells ∧
        (pq.waits ≤ 1 → tlook p.rid u.mem.pend = none ∧
          t = u.memRespond pq.req pq.status.toNat (if pq.req.write = true ∨ pq.status ≠ 0 then [] else assemble pq.req.len pq.got)) ∧
        (1 < pq.waits → t = u ∧ tlook p.rid u.mem.pend = some { pq with waits := pq.waits - 1 }))) ∧
    (∀ pq : PendReq, p.write = false → tlook p.rid s.mem.pend = some pq → pq.status = 0 → pq.req.write = false →
      let got := pq.got ++ p.pieces.map (fun q => (q.pos, (List.range q.len).map (fun i => s.stored ch (q.off + i))))
      Answers (.commandSlot m c busy []) s (fun t => ∃ u, PartIssued ch p.rid s u ∧ u.mem.cells = s.mem.cells ∧
        (pq.waits ≤ 1 → tlook p.rid u.mem.pend = none ∧ t = (u.memRespond pq.req 0 (assemble pq.req.len got)).bump) ∧
        (1 < pq.waits → t = u.bump ∧ tlook p.rid u.mem.pend = some { pq with waits := pq.waits - 1, got := got }))))

/-- R291, R297, R302, R439: a refresh that falls due is due at once for the next bank, or is postponed while a port of the rim
is at panic level 2 or above, up to eight; the postponed ones are due again in the slot after that level has gone. A device
whose command times out fails: its four channels stop, DEGRADED reads 3 and record 0x14 with cause 3 goes out. R8, R291,
R307, R310: ISL_MEM_TRAIN sets the channels that it names retraining, those of a failed device apart, and is answered when
the last of them has trained, or at once when none is left. A channel that trains, at start-up or anew, is in service with
its results, whose reserved bits read zero; one that fails at start-up counts as done and takes its device out of service.
DEGRADED 3 and the channels passed over are the model's readings (log entries 26, 63). -/
def Obligations.RefreshAndTraining : Prop :=
  ((∀ (m : Fin 2) (c : Fin 40) (s : State),
    let ch := 40 * m.val + c.val
    let x := s.mchan ch
    x.state = 1 → x.sref = false →
    (s.rimLevel m.val < 2 ∨ 8 ≤ x.postponed →
      Answers (.refreshDue m c) s (fun t => OnlyMchan ch s t ∧
        t.mchan ch = { x with due := x.due ++ [.refresh (x.nextRef % 16)], nextRef := x.nextRef + 1 })) ∧
    (2 ≤ s.rimLevel m.val → x.postponed < 8 →
      Answers (.refreshDue m c) s (fun t => OnlyMchan ch s t ∧ t.mchan ch = { x with postponed := x.postponed + 1 })) ∧
    (s.rimLevel m.val < 2 → x.postponed ≠ 0 → ∀ (busy : List (Fin 16)) (ecc : List CodeWordError), ∃ u, OnlyMchan ch s u ∧
      u.mchan ch = { x with
        due := x.due ++ (List.range x.postponed).map (fun i => .refresh ((x.nextRef + i) % 16))
        nextRef := x.nextRef + x.postponed, postponed := 0 } ∧
      exec (.commandSlot m c busy ecc) s = exec (.commandSlot m c busy ecc) u)) ∧
  (∀ (m : Fin 2) (c : Fin 40) (s : State),
    (s.mchan (40 * m.val + c.val)).state = 1 → s.devFailed (10 * m.val + c.val / 4) = false → s.keel.events.length < 16384 →
    Answers (.commandTimeout m c) s (fun t =>
      t.devFailed (10 * m.val + c.val / 4) = true ∧ t.keel.degraded = 3 ∧
      (∀ i, i < 4 → (t.mchan (40 * m.val + c.val / 4 * 4 + i)).state = 3 ∧
        (t.mchan (40 * m.val + c.val / 4 * 4 + i)).queue = []) ∧
      Emitted s t 0x14 (packF [(0, 1, m.val), (1, 4, c.val / 4), (5, 3, 3)]) ∧ t.mem.cells = s.mem.cells))) ∧
  ((∀ (c : Fin 64) (s : State) (i : Nat) (e : LgEntry), Running s c.val 0x18 i e →
    let named (ch : Nat) : Prop := ch < 80 ∧ bit (s.pw i (ch / 40)) (ch % 40) = true ∧ (s.mchan ch).state ≠ 3
    (s.rsvd i [(0, 63, 40), (1, 63, 40)] = true →
      Answers (.islMemTrain c) s (fun t => Replied s t i { status := 0x12 } ∧ OnlyLedger s t ∧ t = { s with keel := t.keel })) ∧
    (s.rsvd i [(0, 63, 40), (1, 63, 40)] = false → (∃ ch, named ch) →
      Answers (.islMemTrain c) s (fun t =>
        (∀ ch, (named ch → t.mchan ch = { s.mchan ch with state := 2, cmds := (s.mchan ch).cmds ++ [i] }) ∧
          (¬ named ch → t.mchan ch = s.mchan ch)) ∧
        t = { s with keel := { s.keel with current := none }, mem := { s.mem with chans := t.mem.chans } })) ∧
    (s.rsvd i [(0, 63, 40), (1, 63, 40)] = false → (¬ ∃ ch, named ch) →
      Answers (.islMemTrain c) s (fun t => Replied s t i { status := 0x00 } ∧ OnlyLedger s t ∧ t = { s with keel := t.keel }))) ∧
  (∀ (m : Fin 2) (c : Fin 40) (results : List Word) (s : State) (i : Nat) (e : LgEntry),
    let ch := 40 * m.val + c.val
    (s.mchan ch).state = 2 → (s.mchan ch).cmds = [i] → s.entry i = some e → e.state ≠ .complete → s.boot.phase ≠ .training →
    Rising s.mem.chans →
    Answers (.trainingComplete m c true results) s (fun t =>
      t.mchan ch = { s.mchan ch with state := 1, results := trainResults results, cmds := [] } ∧
      (∀ k, k ≠ ch → t.mchan k = s.mchan k) ∧
      ((∀ x ∈ s.mem.chans, x.1 ≠ ch → i ∉ x.2.cmds) →
        (∃ e', t.entry i = some e' ∧ e'.state = .complete ∧ e'.reply = some { status := 0x00 }) ∧
        (∀ j, j ≠ i → t.entry j = s.entry j)) ∧
      ((∃ x ∈ s.mem.chans, x.1 ≠ ch ∧ i ∈ x.2.cmds) → t.keel = s.keel) ∧
      t = { s with keel := t.keel, mem := { s.mem with chans := t.mem.chans } })) ∧
  (∀ (m : Fin 2) (c : Fin 40) (ok : Bool) (results : List Word) (s : State),
    let ch := 40 * m.val + c.val
    s.boot.phase = .training → s.boot.trained.contains ch = false → (s.mchan ch).cmds = [] →
    ((s.mchan ch).state = 0 → ok = true →
      Answers (.trainingComplete m c ok results) s (fun t =>
        t.mchan ch = { s.mchan ch with state := 1, results := trainResults results, cmds := [] } ∧
        (∀ k, k ≠ ch → t.mchan k = s.mchan k) ∧
        t = { s with boot := { s.boot with trained := ch :: s.boot.trained }, mem := { s.mem with chans := t.mem.chans } })) ∧
    ((s.mchan ch).state = 0 → ok = false →
      Answers (.trainingComplete m c ok results) s (fun t => t.boot = { s.boot with trained := ch :: s.boot.trained } ∧
        t.devFailed (devOf ch) = true ∧ (s.devFailed (devOf ch) = false → (t.mchan ch).state = 3))) ∧
    ((s.mchan ch).state = 3 →
      Answers (.trainingComplete m c ok results) s (fun t =>
        (t.mchan ch).state = 3 ∧ t.boot = { s.boot with trained := ch :: s.boot.trained }))) ∧
  ∀ ws : List Word, (trainResults ws).length ≤ 8 ∧ bits ((trainResults ws).getD 6 0) 63 40 = 0 ∧ (trainResults ws).getD 7 0 = 0)

/-- R287, R288, R298, R416: a secure write opens an entry that is not valid with the fields it states, unless its mirror slot is
taken, and its area then holds no defined byte; closing a secure entry, or giving a free one to the non-secure world, takes
effect when the fill of its area is complete; any other write sets the class, and the world only to secure. An entry that is
being released takes no write. Thresholds are written in rising order. A write by the non-secure world has no effect. That a
released area holds no defined byte is the model's choice (log entry 23). -/
def Obligations.RegionTableWrites : Prop :=
  (∀ (m : Fin 2) (e : Fin 256) (v : Word) (s : State),
    let ix := 256 * m.val + e.val
    let x := s.mrtE ix
    let y := x.asWritten v
    (s.up = true → x.release = none → s.mem.failed = [] → x.state = 0 →
      (x.valid = false → bit v 0 = true → ¬ (y.mirror = true ∧ SlotTaken s ix y) →
        Answers (.mrtWrite true m e v) s (fun t => OnlyMrt ix s t ∧ t.mrtE ix = { y with world := bit v 1 || x.world } ∧
          AreaForgotten ix y s t)) ∧
      (y.mirror = true → bit v 0 = true → SlotTaken s ix y → exec (.mrtWrite true m e v) s = .next s) ∧
      (bit v 0 = false → x.world = true → (x.valid = true ∨ bit v 1 = false) →
        Answers (.mrtWrite true m e v) s (fun t => OnlyMrt ix s t ∧ t.mem.cells = s.mem.cells ∧
          t.mrtE ix = { y with world := true, release := some x.valid })) ∧
      ((x.valid = true ∧ bit v 0 = true ∧ ¬ (y.mirror = true ∧ SlotTaken s ix y)) ∨
          (bit v 0 = false ∧ (x.world = false ∨ (x.valid = false ∧ bit v 1 = true))) →
        Answers (.mrtWrite true m e v) s (fun t => OnlyMrt ix s t ∧ t.mem.cells = s.mem.cells ∧
          t.mrtE ix = { y with world := bit v 1 || x.world }))) ∧
    (x.release.isSome → exec (.mrtWrite true m e v) s = .next s) ∧
    exec (.mrtWrite false m e v) s = .next s) ∧
  (∀ (m : Fin 2) (e : Fin 256) (s : State) (w : World),
    let ix := 256 * m.val + e.val
    (s.mrtE ix).release = some w → s.mem.failed = [] → (s.mrtE ix).state = 0 →
    Answers (.releaseFillComplete m e) s (fun t => OnlyMrt ix s t ∧
      t.mrtE ix = { s.mrtE ix with release := none, world := w } ∧ AreaForgotten ix (s.mrtE ix) s t)) ∧
  (∀ (m : Fin 2) (p : Fin 16) (v : Word) (s : State),
    let x := tget ({} : RtPort) s.mem.rtport (16 * m.val + p.val)
    (s.up = true → 1 ≤ bits v 5 0 → bits v 5 0 < bits v 13 8 → bits v 13 8 < bits v 21 16 →
      Answers (.rtportWrite true m p v) s (fun t =>
        let y := { x with
          p1 := BitVec.ofNat 6 (bits v 5 0), p2 := BitVec.ofNat 6 (bits v 13 8), p3 := BitVec.ofNat 6 (bits v 21 16) }
        tget ({} : RtPort) t.mem.rtport (16 * m.val + p.val) = { y with
          level := BitVec.ofNat 2 y.newLevel
          p3cnt := if y.newLevel = 3 ∧ x.level ≠ 3 then satInc x.p3cnt else x.p3cnt } ∧
        (∀ q, q ≠ 16 * m.val + p.val → tget ({} : RtPort) t.mem.rtport q = tget {} s.mem.rtport q) ∧
        t = { s with mem := { s.mem with rtport := t.mem.rtport } })) ∧
    (¬ (1 ≤ bits v 5 0 ∧ bits v 5 0 < bits v 13 8 ∧ bits v 13 8 < bits v 21 16) →
      exec (.rtportWrite true m p v) s = .next s) ∧
    exec (.rtportWrite false m p v) s = .next s)

/-- R314 to R319: LNCFG is taken from a secure write alone. A lane that it enables acquires with the default entry, or with its
entry of the loaded EQTAB; an entry of another rate fails the lane, as does a lock that does not come in time. Of an enabled
lane only EN and PRBS are written; one that is disabled is off. A mode that the rate does not allow is refused. R463, R466:
the next lane group to be enabled again moves, once its frames are acknowledged, to the rate that its eight entries of the
EQTAB name; entries that differ, or name no rate of Vorot, leave it disabled with cause 8. A group whose turn it is not, or
with a frame still unacknowledged, waits. -/
def Obligations.LaneConfiguration : Prop :=
  ((∀ (m : Fin 2) (l : Fin 48) (v : Word) (s : State),
    let i := 48 * m.val + l.val
    let x := s.lane i
    let cfg := laneMerge x.cfg v
    s.up = true →
    (x.en = false → bit v 0 = true → modeOk (bits cfg 2 1) (bits cfg 5 3) = true →
      (bits cfg 2 1 ≤ 1 → (s.region (bits cfg 18 12)).world = s.wlane (lanePort i)) → (s.port (lanePort i)).state = 0 →
      (s.ldr.eqtab = none →
        Answers (.lncfgWrite true m l v) s (fun t =>
          (t.lane i).cfg = cfg ∧ (t.lane i).state = 1 ∧ (t.lane i).cdr = false ∧ (t.lane i).eqsrc = false ∧
          (t.lane i).eq0 = 0x00020808003F0000#64 ∧ (∀ j, j ≠ i → t.lane j = s.lane j) ∧ t = { s with ser := t.ser } ∧
          ∀ u, u ≠ lanePort i → t.port u = s.port u)) ∧
      (∀ tab, s.ldr.eqtab = some tab → bits (eqEntry tab i).1 2 0 = bits cfg 5 3 →
        Answers (.lncfgWrite true m l v) s (fun t =>
          (t.lane i).cfg = cfg ∧ (t.lane i).state = 1 ∧ (t.lane i).eqsrc = true ∧ (t.lane i).eq0 = (eqEntry tab i).1 ∧
          (t.lane i).eq1 = (eqEntry tab i).2 ∧ (∀ j, j ≠ i → t.lane j = s.lane j) ∧ t = { s with ser := t.ser })) ∧
      (∀ tab, s.ldr.eqtab = some tab → bits (eqEntry tab i).1 2 0 ≠ bits cfg 5 3 → s.keel.events.length < 16384 →
        Answers (.lncfgWrite true m l v) s (fun t =>
          (t.lane i).cfg = cfg ∧ (t.lane i).state = 3 ∧ (t.lane i).eqmiss = true ∧
          Emitted s t 0x1A (packF [(0, 1, m.val), (1, 6, l.val)]) ∧ (∀ j, j ≠ i → t.lane j = s.lane j) ∧
          t = { s with ser := t.ser, keel := t.keel }))) ∧
    (x.en = false → bit v 0 = true → modeOk (bits cfg 2 1) (bits cfg 5 3) = false →
      exec (.lncfgWrite true m l v) s = .next s) ∧
    (x.en = false → bit v 0 = false → (s.port (lanePort i)).state = 0 →
      Answers (.lncfgWrite true m l v) s (fun t => (t.lane i).cfg = cfg ∧ (t.lane i).state = x.state ∧
        (∀ j, j ≠ i → t.lane j = s.lane j) ∧ t = { s with ser := t.ser })) ∧
    (x.en = true → (bit v 0 = true → modeOk x.mode x.rate = true) → (s.port (lanePort i)).state = 0 →
      Answers (.lncfgWrite true m l v) s (fun t =>
        (t.lane i).cfg = setBits (setBits x.cfg 0 0 (bits v 0 0)) 9 8 (bits v 9 8) ∧
        (t.lane i).state = (if bit v 0 then x.state else 0) ∧ ∀ j, j ≠ i → t.lane j = s.lane j))) ∧
  (∀ (m : Fin 2) (l : Fin 48) (v : Word) (s : State), exec (.lncfgWrite false m l v) s = .next s) ∧
  (∀ (m : Fin 2) (l : Fin 48) (s : State),
    let i := 48 * m.val + l.val
    (s.lane i).en = true → (s.lane i).state = 1 → (s.lane i).cdr = false → (s.port (lanePort i)).state = 0 →
    s.keel.events.length < 16384 →
    Answers (.laneAcquireTimeout m l) s (fun t =>
      t.lane i = { s.lane i with state := 3 } ∧ (∀ j, j ≠ i → t.lane j = s.lane j) ∧
      Emitted s t 0x1A (packF [(0, 1, m.val), (1, 6, l.val)]) ∧ t = { s with ser := t.ser, keel := t.keel }))) ∧
  (∀ (g : Fin 12) (s : State),
    (∀ (tab : List Word) (rest : List Nat), s.ser.pel.again = g.val :: rest → (s.port g.val).unacked = [] →
      s.ldr.eqtab = some tab →
      (∀ rate, 1 ≤ rate → rate ≤ 4 → (∀ j, j < 8 → bits (eqEntry tab (portLane g.val j)).1 2 0 = rate) →
        Answers (.laneGroupReenable g) s (fun t => t.ser.pel.again = rest ∧
          ∀ j, j < 8 → (t.lane (portLane g.val j)).cfg = packF [(0, 1, 1), (1, 2, 2), (3, 3, rate)] ∧
            (t.lane (portLane g.val j)).state = 1)) ∧
      ((∃ j, j < 8 ∧ bits (eqEntry tab (portLane g.val j)).1 2 0 ≠ bits (eqEntry tab (portLane g.val 0)).1 2 0) ∨
          bits (eqEntry tab (portLane g.val 0)).1 2 0 = 0 →
        Answers (.laneGroupReenable g) s (fun t => t.ser.pel.again = rest ∧ (t.port g.val).cause = 8 ∧
          ∀ j, j < 8 → (t.lane (portLane g.val j)).en = false))) ∧
    (s.ser.pel.again.head? ≠ some g.val ∨ (s.port g.val).unacked ≠ [] → exec (.laneGroupReenable g) s = .next s))

/-- R39, R41, R313, R315, R316, R320 to R323: a raw lane holds the words that it hears until they fill a token, which goes to
its region, or is dropped and counted while its receive buffer is full; a PCS lane in block lock holds the descrambled
payload; a lane with its checker on counts what differs from the sequence. A region's token fills the transmit buffer of a
lane bound to it, or waits for room. A raw lane is up while locked, which it cannot be while its reference is missing; a run
of idle words counts once. When a lane counts as up is the model's choice (log entry 42). -/
def Obligations.LaneWords : Prop :=
  (∀ (m : Fin 2) (l : Fin 48) (ws : List Word) (s : State),
    let i := 48 * m.val + l.val
    let x := s.lane i
    let gs := rawHeard x ws
    (LaneReceives x → x.mode = 0 → x.held.length + gs.length < fullToken x →
      Answers (.laneReceive m l ws []) s (fun t => OnlyLane i s t ∧
        t.lane i = { x with held := x.held ++ gs.map (fun w => (w, false, false)), sent := rawResent x gs })) ∧
    (LaneReceives x → x.mode = 0 → x.held = [] → gs.length = fullToken x →
      Answers (.laneReceive m l ws []) s (fun t =>
        t.lane i = { x with drop := if s.laneRoom i then x.drop else satInc x.drop, sent := rawResent x gs } ∧
        (∀ j, j ≠ i → t.lane j = s.lane j) ∧
        (t.region x.region).arriving = (s.region x.region).arriving ++
          (if s.laneRoom i then [laneToken i false (gs.map (fun w => (w, false, false)))] else []) ∧
        (∀ q, q ≠ x.region → t.region q = s.region q) ∧
        t = { s with fab := { s.fab with regions := t.fab.regions }, ser := { s.ser with lanes := t.ser.lanes } })) ∧
    (x.en = true → (x.state = 1 ∨ x.state = 2) → x.cdr = true → 2 ≤ x.prbs → x.loopMode = 0 → bit x.cfg 11 = false →
      Answers (.laneReceive m l ws []) s (fun t => OnlyLane i s t ∧ t.lane i = ws.foldl (fun y w => y.prbsWord w) x))) ∧
  (∀ (m : Fin 2) (l : Fin 48) (b : BitVec 2 × Word) (s : State),
    let i := 48 * m.val + l.val
    let x := s.lane i
    x.en = true → x.state = 2 → x.cdr = true → x.prbs = 0 → x.mode = 1 → x.block = true → x.loopMode = 0 → bit x.cfg 11 = false →
    (b.1 = 1 ∨ b.1 = 2) → x.syncSeen < 63 → x.held.length < 30 → x.syncBad < 16 →
    Answers (.laneReceive m l [] [b]) s (fun t => OnlyLane i s t ∧
      t.lane i = { x with
        past := b.2, syncSeen := x.syncSeen + 1
        held := x.held ++ [(descramble x.past b.2, decide (b.1 = 2), false)] })) ∧
  (∀ (r : Fin 128) (m : Fin 2) (ws : List Word) (s : State),
    let h := ws.getD 0 0
    let i := 48 * m.val + bits h 5 0
    let x := s.lane i
    let data := ((ws.drop 1).take (bits h 11 7)).zipIdx.map (fun w => (w.1, bit h (12 + w.2)))
    let whole : Prop := x.mode ≠ 0 ∨ bits h 11 7 % rawWords x.rate = 0
    (s.region r.val).isOpen = true → bits h 5 0 < 48 →
    (x.en = true → x.mode ≤ 1 → x.region = r.val → whole → x.state ≠ 3 → x.prbs = 0 → x.loopMode ≠ 3 →
      (x.tx.length + data.length ≤ 256 →
        Answers (.laneTransmitToken r m ws) s (fun t => OnlyLane i s t ∧ t.lane i = { x with tx := x.tx ++ data, idle := false })) ∧
      (256 < x.tx.length + data.length → exec (.laneTransmitToken r m ws) s = .next s)) ∧
    (x.en = false ∨ 2 ≤ x.mode ∨ x.region ≠ r.val ∨ ¬ whole →
      Answers (.laneTransmitToken r m ws) s (fun t => OnlyLane i s t ∧ t.lane i = { x with drop := satInc x.drop }))) ∧
  (∀ (m : Fin 2) (l : Fin 48) (s : State),
    let i := 48 * m.val + l.val
    let x := s.lane i
    (x.en = true → x.state = 1 → x.mode = 0 → x.cdr = false → s.lrefOk i = true →
      Answers (.cdrLockChange m l true) s (fun t => OnlyLane i s t ∧ (t.lane i).state = 2 ∧ (t.lane i).cdr = true ∧
        (t.lane i).cfg = x.cfg)) ∧
    (s.lrefOk i = false → exec (.cdrLockChange m l true) s = .next s) ∧
    (x.en = true → x.state = 2 → x.mode = 2 → x.cdr = true → (s.port (lanePort i)).state ≠ 0 →
      Answers (.cdrLockChange m l false) s (fun t => (t.lane i).state = 1 ∧ (t.lane i).cdr = false ∧
        (t.port (lanePort i)).cause = 2 ∧ (t.port (lanePort i)).state ≠ 3)) ∧
    (x.en = true → x.mode ≤ 1 → x.state = 2 → x.prbs = 0 → x.loopMode ≠ 3 →
      Answers (.transmitUnderrun m l) s (fun t => OnlyLane i s t ∧
        t.lane i = { x with tx := [], idle := true, under := if x.idle then x.under else satInc x.under })))

/-- R325, R329: markers of one count on all eight lanes of a port, with all eight lane numbers among them, align it; the second
such set sends the port's link init. A skew above 64 ns takes the port down with cause 3, a count out of step with cause 4.
R327, R328, R330: a LINK block acknowledges frames up to its number and returns credit, and with NAK has every frame that is
left sent again; a resend timeout sends every unacknowledged frame again, and one that has been sent 16 times takes the port
down with cause 5; an acknowledge timeout takes it down with cause 6. With nothing unacknowledged neither timeout does
anything. -/
def Obligations.PortsAndLinks : Prop :=
  (∀ (m : Fin 2) (l : Fin 48) (lip : Fin 8) (sp : BitVec 4) (count : BitVec 16) (par : Byte) (skew : Nat) (s : State),
    let i := 48 * m.val + l.val
    let v := lanePort i
    let x := s.lane i
    let y : Lane := { x with
      marker := some (lip.val, sp.toNat, count.toNat), biperr := if par.toNat ≠ 0 then satInc x.biperr else x.biperr }
    x.mode = 2 → x.state = 2 → (s.port v).state ≠ 0 →
    (skew ≤ 64 → (∀ j, j < 8 → (s.lane (portLane v j)).marker = none) →
      Answers (.marker m l lip sp count par skew) s (fun t => OnlyLane i s t ∧ t.lane i = y)) ∧
    (skew ≤ 64 → (∀ a b c, x.marker = some (a, b, c) → count.toNat = (c + 1) % 65536) →
      (∀ j, j < 8 → ∃ p q, ((s.modLane i (fun _ => y)).lane (portLane v j)).marker = some (p, q, count.toNat)) →
      (∀ k, k < 8 → ∃ j q, j < 8 ∧ ((s.modLane i (fun _ => y)).lane (portLane v j)).marker = some (k, q, count.toNat)) →
      Answers (.marker m l lip sp count par skew) s (fun t =>
        t.lane i = y ∧ (∀ j, j ≠ i → t.lane j = s.lane j) ∧ (t.port v).aligned = (s.port v).aligned + 1 ∧
        (1 ≤ (s.port v).aligned → (s.port v).state = 1 → (t.port v).state = 2 ∧
          ∃ f, (t.port v).out = (s.port v).out ++ [f] ∧ fsKind f.hdr = 5 ∧ fsWorld f.hdr = s.wlane v) ∧
        ((s.port v).aligned = 0 → t.port v = { s.port v with aligned := 1 }) ∧ (∀ u, u ≠ v → t.port u = s.port u) ∧
        t = { s with ser := t.ser })) ∧
    (64 < skew → Answers (.marker m l lip sp count par skew) s (fun t => (t.port v).cause = 3 ∧ (t.port v).state ≠ 3)) ∧
    (∀ a b c, skew ≤ 64 → x.marker = some (a, b, c) → count.toNat ≠ (c + 1) % 65536 →
      Answers (.marker m l lip sp count par skew) s (fun t => (t.port v).cause = 4 ∧ (t.port v).state ≠ 3))) ∧
  (∀ (v : Fin 12) (s : State), 2 ≤ (s.port v.val).state.toNat →
    let x := s.port v.val
    (∀ (ack : BitVec 16) (nak : Bool) (c0 c1 c2 : Byte) (a b c : Nat), x.state = 3 → x.queue = [] →
      (∀ u ∈ x.unacked, u.sent < 15) → x.credit = [a, b, c] → x.ownInit = true →
      let left := x.unacked.filter (fun u => !covered ack (fsSeq u.frame.hdr))
      Answers (.link v ack nak c0 c1 c2) s (fun t => OnlyPort v.val s t ∧
        t.port v.val = { x with
          credit := [a + c0.toNat, b + c1.toNat, c + c2.toNat]
          unacked := if nak then left.map (fun u => { u with sent := u.sent + 1 }) else left
          resend := if nak then satInc x.resend left.length else x.resend
          out := if nak then x.out ++ left.map (·.frame) else x.out
          blocks := if nak then x.blocks ++ left.flatMap (fun u => frameBlocks u.frame) else x.blocks })) ∧
    (x.unacked ≠ [] → (∀ u ∈ x.unacked, u.sent < 15) →
      Answers (.resendTimeout v) s (fun t => OnlyPort v.val s t ∧
        t.port v.val = { x with
          resend := satInc x.resend x.unacked.length, out := x.out ++ x.unacked.map (·.frame)
          blocks := x.blocks ++ x.unacked.flatMap (fun u => frameBlocks u.frame)
          unacked := x.unacked.map (fun u => { u with sent := u.sent + 1 }) })) ∧
    ((∃ u ∈ x.unacked, 15 ≤ u.sent) →
      Answers (.resendTimeout v) s (fun t => (t.port v.val).cause = 5 ∧ (t.port v.val).state ≠ 3)) ∧
    (x.unacked = [] → exec (.resendTimeout v) s = .next s ∧ exec (.acknowledgeTimeout v) s = .next s) ∧
    (x.unacked ≠ [] →
      Answers (.acknowledgeTimeout v) s (fun t => (t.port v.val).cause = 6 ∧ (t.port v.val).unacked = [] ∧
        (t.port v.val).state = (if s.portLanesOk v.val then 1 else 0) ∧
        (t.port v.val).downs = (if x.state = 3 then satInc x.downs else x.downs) ∧ t.mem = s.mem)))

/-- R189, R192, R209, R286, R327, R328, R333: an accepted PEER write of the port's world goes to memory and waits for its
answer; one that memory does not take, or of the other world, is refused and its credit returned. An acknowledge ends the
oldest unanswered PEER transfer, or sends its next request, and a refusal faults it with status 0x0C. A frame already taken
is acknowledged and no more, and the first damaged one asks for it again. That answers come in order is the model's reading
(log entry 38). -/
def Obligations.PeerFrames : Prop :=
  (∀ (v : Fin 12) (f : Frame) (s : State), AcceptsFrame s v.val 0 f →
    let x := s.port v.val
    let len := 8 * (f.data.length - 1)
    (fsWorld f.hdr = s.wlane v.val → 2 ≤ f.data.length →
      s.memCheck (fsWorld f.hdr) (bits (f.data.getD 0 0) 39 0) len = 0 →
      Answers (.peerWriteFrame v f) s (fun t => ∃ u, OnlyPort v.val s u ∧
        u.port v.val = { x with
          rxSeq := x.rxSeq + 1, nakked := false, links := x.links ++ [(x.rxSeq, false, 0, 0, 0)]
          blocks := x.blocks ++ [linkBlock x.rxSeq false 0 0 0], nextPeer := x.nextPeer + 1
          peers := x.peers ++ [(x.nextPeer, frameUnits f.data.length, none)] } ∧
        t = u.sendReq {
          src := .peer v.val x.nextPeer, write := true, addr := bits (f.data.getD 0 0) 39 0, len := len
          data := bytesOfWords (f.data.drop 1), world := fsWorld f.hdr })) ∧
    (fsWorld f.hdr ≠ s.wlane v.val ∨ f.data.length < 2 ∨
        s.memCheck (fsWorld f.hdr) (bits (f.data.getD 0 0) 39 0) len ≠ 0 →
      x.state = 3 → x.queue = [] → x.peers = [] → x.credit.length = 3 → 1 ≤ x.credit.getD 1 0 →
      Answers (.peerWriteFrame v f) s (fun t => OnlyPort v.val s t ∧ (t.port v.val).peers = [] ∧
        (t.port v.val).links = x.links ++
          [(x.rxSeq, false, 0, 0, 0), (x.rxSeq, false, frameUnits f.data.length, 0, 0)] ∧
        ∃ g, (t.port v.val).out = x.out ++ [g] ∧ fsKind g.hdr = 2))) ∧
  (∀ (v : Fin 12) (f : Frame) (s : State) (p c id : Nat) (rest : List (Nat × Nat × Nat)) (x : Transfer),
    AcceptsFrame s v.val 1 f → (s.port v.val).awaiting = (p, c, id) :: rest → (s.ctx p c).xferAt id = some x → c < 2 →
    (x.total ≤ x.done + x.nextReq.2.2 ∨ (s.ctx p c).active = false →
      Answers (.peerAcknowledgeFrame v (f, .none)) s (fun t => FrameTaken s t v.val 1 (frameUnits f.data.length) ∧
        (t.port v.val).awaiting = rest ∧ (t.ctx p c).xfers = (s.ctx p c).xfers.filter (fun g => g.id ≠ id) ∧
        (∀ q, q ≠ p → t.tile q = s.tile q) ∧ t.mem = s.mem)) ∧
    (x.done + x.nextReq.2.2 < x.total → (s.ctx p c).active = true →
      Answers (.peerAcknowledgeFrame v (f, .none)) s (fun t => ∃ u, FrameTaken s u v.val 1 (frameUnits f.data.length) ∧
        (u.port v.val).awaiting = rest ∧ (∀ q, q ≠ p → u.tile q = s.tile q) ∧
        u.tile p = (s.tile p).setCtx c { s.ctx p c with
          xfers := (s.ctx p c).xfers.map (fun g =>
            if g.id = id then { g with done := g.done + x.nextReq.2.2, inFlight := 0 } else g) } ∧
        t = u.nextPeerReq p c id .none))) ∧
  (∀ (v : Fin 12) (f : Frame) (s : State) (p c id : Nat) (rest : List (Nat × Nat × Nat)) (x : Transfer),
    AcceptsFrame s v.val 2 f → (s.port v.val).awaiting = (p, c, id) :: rest → (s.ctx p c).xferAt id = some x →
    (s.ctx p c).active = true →
    Answers (.peerRefusalFrame v f) s (fun t => FrameTaken s t v.val 1 (frameUnits f.data.length) ∧
      (t.port v.val).awaiting = rest ∧ (t.ctx p c).fCode = 8 ∧ (t.ctx p c).fLoc1 = BitVec.ofNat 32 x.xi ∧
      (t.ctx p c).fLoc2 = 0x0C ∧ (t.ctx p c).ending.isSome ∧ ∀ q, q ≠ p → t.tile q = s.tile q)) ∧
  (∀ (v : Fin 12) (f : Frame) (s : State) (init : LinkInit), 2 ≤ (s.port v.val).state.toNat →
    ∀ i ∈ [(Instr.peerWriteFrame v f, 0), (Instr.peerAcknowledgeFrame v (f, .none), 1), (Instr.peerRefusalFrame v f, 2),
      (Instr.commandFrame v f, 3), (Instr.replyFrame v f, 4), (Instr.linkInit v f init, 5)], fsKind f.hdr = i.2 →
    let x := s.port v.val
    (f.crc = frameCrc f.hdr f.data → fsSeq f.hdr ≠ x.rxSeq → (x.rxSeq - fsSeq f.hdr - 1).toNat < 32768 →
      Answers i.1 s (fun t => OnlyPort v.val s t ∧
        t.port v.val = { x with
          links := x.links ++ [(x.rxSeq - 1, false, 0, 0, 0)]
          blocks := x.blocks ++ [linkBlock (x.rxSeq - 1) false 0 0 0] })) ∧
    (f.crc ≠ frameCrc f.hdr f.data → x.nakked = false →
      Answers i.1 s (fun t => OnlyPort v.val s t ∧
        t.port v.val = { x with
          links := x.links ++ [(x.rxSeq - 1, true, 0, 0, 0)], nakked := true
          blocks := x.blocks ++ [linkBlock (x.rxSeq - 1) true 0 0 0] })))

/-- R333 to R337, R376, R464: a follower takes the lead's secure command frame in for its keel, and the lead sends a member's
reply to its host; a secure frame for another member is relayed and counted, or without a secure route discarded and
counted; a follower counts each command frame that it does neither with. A link init that is not refused gives the credits
it states, and brings the port up once its own is through; one that is refused takes the port down with cause 7. That a port
begins anew is the model's reading (log entry 39), as is what RELAYED counts (log entry 82). -/
def Obligations.PelotonFrames : Prop :=
  (∀ (v : Fin 12) (f : Frame) (s : State), AcceptsFrame s v.val 3 f →
    let pel := s.ser.pel
    let sound : Prop := s.wlane v.val = true ∧ fsWorld f.hdr = true
    (sound → s.boot.follower = true → fsDest f.hdr = s.pelNum → fsSrc f.hdr = 0 →
      Answers (.commandFrame v f) s (fun t => FrameTaken s t v.val 2 (frameUnits f.data.length) ∧
        t.keel = { s.keel with arrived := s.keel.arrived ++ [(3, packetOf f.data)] } ∧ t.ser.pel = { pel with lastPort := some v.val } ∧
        t = { s with keel := t.keel, ser := t.ser })) ∧
    (¬ sound ∨ (s.forKeel f.hdr true = true ∧ ¬ (s.boot.follower = true ∧ fsSrc f.hdr = 0)) →
      Answers (.commandFrame v f) s (fun t => FrameTaken s t v.val 2 (frameUnits f.data.length) ∧
        t.ser.pel = (if s.boot.follower then { pel with refused := satInc pel.refused } else pel) ∧ t = { s with ser := t.ser })) ∧
    (sound → s.forKeel f.hdr true = false → ∀ p, s.routePort (fsDest f.hdr) = some p →
      Answers (.commandFrame v f) s (fun t => ∃ u, FrameTaken s u v.val 2 (frameUnits f.data.length) ∧
        u.ser.pel = { pel with relayed := pel.relayed + 1 } ∧ u = { s with ser := u.ser } ∧
        t = u.vsend p { kind := 3, vc := 2, world := true, dest := fsDest f.hdr, src := fsSrc f.hdr, data := f.data })) ∧
    (sound → s.forKeel f.hdr true = false → s.routePort (fsDest f.hdr) = none →
      Answers (.commandFrame v f) s (fun t => t.ser.pel = { pel with noRoute := satInc pel.noRoute } ∧
        FrameTaken s t v.val 2 (frameUnits f.data.length) ∧ t = { s with ser := t.ser }))) ∧
  (∀ (v : Fin 12) (f : Frame) (s : State), AcceptsFrame s v.val 4 f → s.wlane v.val = true → fsWorld f.hdr = true →
    (fsDest f.hdr = s.pelNum → s.lead = true →
      Answers (.replyFrame v f) s (fun t => ∃ u, FrameTaken s u v.val 2 (frameUnits f.data.length) ∧ OnlyPort v.val s u ∧
        t = u.sendOut (if bits (f.data.getD 0 0) 3 0 = 3 then s.eventPath else s.pathOf (bits (f.data.getD 1 0) 7 0))
          { w0 := f.data.getD 0 0, w1 := f.data.getD 1 0, w2 := f.data.getD 2 0, w3 := f.data.getD 3 0
            data := bytesOfWords (f.data.drop 4) })) ∧
    (∀ p, s.forKeel f.hdr false = false → s.routePort (fsDest f.hdr) = some p →
      Answers (.replyFrame v f) s (fun t => ∃ u, FrameTaken s u v.val 2 (frameUnits f.data.length) ∧
        u.ser.pel = { s.ser.pel with relayed := s.ser.pel.relayed + 1 } ∧ u = { s with ser := u.ser } ∧
        t = u.vsend p { kind := 4, vc := 2, world := true, dest := fsDest f.hdr, src := fsSrc f.hdr, data := f.data }))) ∧
  (∀ (v : Fin 12) (f : Frame) (i : LinkInit) (s : State), AcceptsFrame s v.val 5 f →
    (s.initRefused v.val i = false → (s.port v.val).state = 2 → (s.port v.val).queue = [] →
      Answers (.linkInit v f i) s (fun t => OnlyPort v.val s t ∧
        (t.port v.val).state = (if (s.port v.val).ownInit then 3 else 2) ∧ (t.port v.val).farInit = true ∧
        (t.port v.val).credit = [i.credits.getD 0 0, i.credits.getD 1 0, i.credits.getD 2 0] ∧
        (t.port v.val).farPort = i.port ∧ (t.port v.val).farNum = (if s.wlane v.val then i.num else 0x7F))) ∧
    (s.initRefused v.val i = true →
      Answers (.linkInit v f i) s (fun t => (t.port v.val).cause = 7 ∧ (t.port v.val).state ≠ 3)))

/-- R340, R344, R345: a COUNT_STEP on a live channel takes the phases. One that changes steps the position by one, up when A
leads and down when B leads, or the opposite with INV; a preset whose trigger the step makes sets its value in place, clears
SPLIT and ends. The reference rim sends a position whose bits [15:0] are zero. Two phases that change at once count as
illegal and step nothing; with no change, and on a channel not live, no channel changes. R349, R350, R352: the one entry
that waits on a stepping channel. Armed, it fires when a step in its direction makes the position its target: SET, CLEAR and
TOGGLE act on the latch of its pin and free it, PULSE leaves it pulsing, and a FIRED record goes out; any other step leaves
it. Pulsing, it is freed by the step, in either direction, to the end of its pulse. A preset ends a pulse and judges an
armed entry again: passed, it fires with a LATE record when ACT.LATE is 1, else it is freed with a MISSED record. R342,
R345, R353: a reference position that arrives at the other rim, live there and more than 8 counts from its own, sets SPLIT
and emits a record; else nothing else comes of it. ODOCFG is taken from a secure write alone, and keeps positions and
counts. A channel disabled loses its presets on the rims where it was live, and each entry that waited on it there is
withdrawn; one that becomes live takes the levels of its pins as its phases. -/
def Obligations.OdometerAndActions : Prop :=
  ((∀ (m : Fin 2) (c : Fin 4) (a b : Bool) (s : State) (ia ib : Nat) (na nb : Bool),
    let o := s.odo c.val
    let rev := (if (o.seen m.val).1 ≠ na then na != nb else nb == na) == o.inv
    let next := if rev then o.pos m.val - 1 else o.pos m.val + 1
    let u := o.stepped m.val next
    Counts s m.val c.val ia ib a b na nb → s.waitingActs m.val c.val = [] →
    (((o.seen m.val).1 ≠ na ↔ (o.seen m.val).2 = nb) →
      Answers (.countStep m c a b) s (fun t => OnlyOdo c.val [ia, ib] s t ∧ t.web.acts = s.web.acts ∧ t.keel = s.keel ∧
        t.odo c.val = { u.setSeen m.val na nb with
          sent := o.sent ++ (if o.refE = decide (m.val = 1) ∧ (u.pos m.val).toNat % 65536 = 0 then [(o.refE, u.pos m.val)] else []) })) ∧
    ((o.seen m.val).1 ≠ na → (o.seen m.val).2 ≠ nb →
      Answers (.countStep m c a b) s (fun t => OnlyOdo c.val [ia, ib] s t ∧ t.web.acts = s.web.acts ∧ t.keel = s.keel ∧
        t.odo c.val = { o.setSeen m.val na nb with illegal := satInc o.illegal })) ∧
    (o.seen m.val = (na, nb) →
      Answers (.countStep m c a b) s (fun t => OnlyOdo c.val [ia, ib] s t ∧ t.web.acts = s.web.acts ∧ t.keel = s.keel ∧
        t.odo c.val = o))) ∧
  (∀ (m : Fin 2) (c : Fin 4) (a b : Bool) (s : State), s.live m.val c.val = false →
    Answers (.countStep m c a b) s (fun t => t = { s with fab := { s.fab with pins := t.fab.pins } } ∧
      ∀ i, { t.pin i with level := (s.pin i).level } = s.pin i))) ∧
  (∀ (m : Fin 2) (c : Fin 4) (a b : Bool) (s : State) (ia ib : Nat) (na nb : Bool) (k : Nat),
    let o := s.odo c.val
    let x := s.act k
    let pin := 128 * m.val + x.pin
    let rev := (if (o.seen m.val).1 ≠ na then na != nb else nb == na) == o.inv
    let next := if rev then o.pos m.val - 1 else o.pos m.val + 1
    let after := if x.op = 2 then 2 else 0
    Counts s m.val c.val ia ib a b na nb → ((o.seen m.val).1 ≠ na ↔ (o.seen m.val).2 = nb) →
    s.waitingActs m.val c.val = [k] → x.st ≠ 0 → x.ch = c.val → x.rim = m.val →
    ((∀ v, o.pre m.val ≠ some (next, v)) →
      (x.st = 1 → x.rev = rev → x.target = next →
        Answers (.countStep m c a b) s (fun t => OnlyOdo c.val [ia, ib, pin] s t ∧ (t.odo c.val).pos m.val = next ∧
          t.act k = x.setSt after ∧ (∀ j, j ≠ k → t.act j = s.act j) ∧
          { t.pin pin with level := (s.pin pin).level } = { s.pin pin with latch := firedLatch x.op (s.pin pin).latch } ∧
          t.keel = (s.actRec k 0 x next).keel)) ∧
      (x.st = 1 → ¬ (x.rev = rev ∧ x.target = next) →
        Answers (.countStep m c a b) s (fun t => OnlyOdo c.val [ia, ib] s t ∧ (t.odo c.val).pos m.val = next ∧
          t.web.acts = s.web.acts ∧ t.keel = s.keel)) ∧
      (x.st = 2 →
        Answers (.countStep m c a b) s (fun t => OnlyOdo c.val [ia, ib] s t ∧ (t.odo c.val).pos m.val = next ∧
          t.act k = (if x.pulseEnd = next then x.setSt 0 else x) ∧ (∀ j, j ≠ k → t.act j = s.act j) ∧ t.keel = s.keel))) ∧
    (∀ v, o.pre m.val = some (next, v) →
      (x.st = 2 →
        Answers (.countStep m c a b) s (fun t => OnlyOdo c.val [ia, ib] s t ∧ (t.odo c.val).pos m.val = v ∧
          t.act k = x.setSt 0 ∧ (∀ j, j ≠ k → t.act j = s.act j) ∧ t.keel = s.keel)) ∧
      (x.st = 1 → ahead x.target v x.rev = true →
        Answers (.countStep m c a b) s (fun t => OnlyOdo c.val [ia, ib] s t ∧ (t.odo c.val).pos m.val = v ∧
          t.web.acts = s.web.acts ∧ t.keel = s.keel)) ∧
      (x.st = 1 → ahead x.target v x.rev = false → x.late = false →
        Answers (.countStep m c a b) s (fun t => OnlyOdo c.val [ia, ib] s t ∧ (t.odo c.val).pos m.val = v ∧
          t.act k = x.setSt 0 ∧ (∀ j, j ≠ k → t.act j = s.act j) ∧ t.keel = (s.actRec k 2 x v).keel)) ∧
      (x.st = 1 → ahead x.target v x.rev = false → x.late = true →
        Answers (.countStep m c a b) s (fun t => OnlyOdo c.val [ia, ib, pin] s t ∧ (t.odo c.val).pos m.val = v ∧
          t.act k = x.setSt after ∧ (∀ j, j ≠ k → t.act j = s.act j) ∧
          { t.pin pin with level := (s.pin pin).level } = { s.pin pin with latch := firedLatch x.op (s.pin pin).latch } ∧ t.keel = (s.actRec k 1 x v).keel)))) ∧
  ((∀ (c : Fin 4) (s : State) (fromE : Bool) (q : BitVec 48) (rest : List (Bool × BitVec 48)),
    let o := s.odo c.val
    let m := if fromE then 0 else 1
    let d := min (o.pos m - q).toNat (q - o.pos m).toNat
    o.sent = (fromE, q) :: rest →
    (s.live m c.val = true → 8 < d →
      Answers (.positionComparison c) s (fun t => t.odo c.val = { o with sent := rest, split := true } ∧
        t.keel = (s.emit 4 false (BitVec.ofNat 64 c.val) (q.setWidth 64) ((o.pos m).setWidth 64)).keel ∧
        (∀ k, k ≠ c.val → t.odo k = s.odo k) ∧ t = { s with web := { s.web with odo := t.web.odo }, keel := t.keel })) ∧
    ((s.live m c.val = false ∨ d ≤ 8) → Answers (.positionComparison c) s (fun t => t.odo c.val = { o with sent := rest } ∧
      (∀ k, k ≠ c.val → t.odo k = s.odo k) ∧ t = { s with web := { s.web with odo := t.web.odo } }))) ∧
  (∀ (c : Fin 4) (s : State), (s.odo c.val).sent = [] → exec (.positionComparison c) s = .next s) ∧
  (∀ (c : Fin 4) (v : Word) (s : State), exec (.odocfgWrite false c v) s = .next s) ∧
  (∀ (c : Fin 4) (v : Word) (s : State), s.up = true →
    let gone (x : ActEntry) : Prop := bit v 0 = false ∧ x.st ≠ 0 ∧ x.ch = c.val ∧ s.live x.rim c.val = true
    Answers (.odocfgWrite true c v) s (fun t =>
      (t.odo c.val).en = bit v 0 ∧ (t.odo c.val).inv = bit v 1 ∧ (t.odo c.val).refE = bit v 2 ∧
      (t.odo c.val).posW = (s.odo c.val).posW ∧ (t.odo c.val).posE = (s.odo c.val).posE ∧
      (t.odo c.val).illegal = (s.odo c.val).illegal ∧ (t.odo c.val).split = (s.odo c.val).split ∧
      (t.odo c.val).sent = (s.odo c.val).sent ∧
      (∀ m, m < 2 → (t.odo c.val).pre m = if bit v 0 = false ∧ s.live m c.val = true then none else (s.odo c.val).pre m) ∧
      (∀ m, m < 2 → (t.odo c.val).seen m = if bit v 0 = true ∧ (s.phasePin m c.val 0).isSome ∧ (s.phasePin m c.val 1).isSome ∧
        s.live m c.val = false then s.phases m c.val else (s.odo c.val).seen m) ∧
      (∀ k, k ≠ c.val → t.odo k = s.odo k) ∧
      (∀ x ∈ s.web.acts, gone x.2 → (t.act x.1).st = 0) ∧
      (∀ i, (∀ x ∈ s.web.acts, x.1 = i → ¬ gone x.2) → t.act i = s.act i) ∧
      ((∀ x ∈ s.web.acts, ¬ gone x.2) → t.keel = s.keel) ∧
      t = { s with web := { s.web with odo := t.web.odo, acts := t.web.acts }, keel := t.keel })))

/-- R354, R355, R358 to R360, R363: a token that breaks R354, or comes while lines are not admitted, counts in BADTOK and does
nothing else. A START ends a line in progress with SHORT and decides the fate of its own by R359: with every slot taken, or
in a warm or rim reset, the line takes no sequence number and counts in RUN and LOST; else it takes the next one with its
tag, fate, slot and bound, and a LOST line keeps no byte. Data goes on with the line in progress up to LINEB and ends it
there; bytes beyond, and bytes with no line in progress, set EXTRA for the next record. Then the stream goes on with its
parts and records. -/
def Obligations.IngressTokens : Prop :=
  ∀ (m : Fin 2) (r : Fin 128) (ws : List Word) (s : State),
    let h := ws.getD 0 0
    let st := 16 * m.val + bits h 3 0
    let x := s.stream_ st
    let data := bytesOfWords ((ws.drop (1 + b2n (bit h 5))).take (bits h 12 8))
    let n := 8 * bits h 12 8
    let tag := (if bit h 5 then BitVec.ofNat 48 (bits (ws.getD 1 0) 47 0) else (s.odo x.ch).pos m.val) + BitVec.ofInt 48 x.offset
    let old := if x.cur.isSome then x.lines.map (fun l => if l.ended then l else { l with ended := true, short := true }) else x.lines
    let backlog := x.next.toNat - x.rel.toNat
    let fits := x.lineb ≤ ({ x with lines := old } : Stream).unreserved
    let deferred := s.keel.dstate = .freewheel ∨ x.livewin < backlog
    let dec := (x.dlevel ≠ 0 ∧ x.dlevel ≤ (tget ({} : RtPort) s.mem.rtport st).level.toNat) ∨ x.nslot - backlog ≤ x.dslots
    let fate := if ¬ fits then 3 else if dec then 2 else if deferred then 1 else 0
    let more (left : Nat) : Option Nat := if left ≤ n then none else some (left - n)
    (s.mem.resps = [] →
      badHeader ws = true ∨ x.en = false ∨ s.ingressOn = false ∨ x.region ≠ r.val ∨ (s.region r.val).world ≠ x.world →
      Answers (.ingressToken m r ws) s (fun t => OnlyStream st s t ∧ t.stream_ st = { x with badtok := satInc x.badtok } ∧
        t.mem = s.mem)) ∧
    (badHeader ws = false → x.en = true → s.ingressOn = true → x.region = r.val → (s.region r.val).world = x.world →
      (bit h 4 = true → (∀ l ∈ old, l.ended = true) →
        (s.boot.phase = .warm ∨ s.rimInReset m.val = true ∨ x.nslot ≤ backlog →
          Answers (.ingressToken m r ws) s (fun t => ∃ u, t = (u.streamGo st).deliver ∧ OnlyStream st s u ∧ u.mem = s.mem ∧
            u.stream_ st = { x with
              cur := more x.lineb, run := x.run + 1, lost := satInc x.lost, runPos := if x.run = 0 then tag else x.runPos
              extra := x.extra || decide (x.lineb < n), lines := old })) ∧
        (s.boot.phase ≠ .warm → s.rimInReset m.val = false → backlog < x.nslot →
          Answers (.ingressToken m r ws) s (fun t => ∃ u, t = (u.streamGo st).deliver ∧ OnlyStream st s u ∧
            u.fillOf st = s.fillOf st + (if fits then min x.lineb n else 0) ∧
            u.stream_ st = { x with
              cur := more x.lineb, next := x.next + 1, run := 0, runPos := 0, extra := decide (x.lineb < n)
              lost := if fits then x.lost else satInc x.lost
              lines := old ++ [{
                seq := x.next.toNat, fate := fate, defd := decide dec && decide deferred
                fw := decide (s.keel.dstate = .freewheel), kept := decide fits && bit h 6, extra := x.extra, ptag := bit h 5
                nopos := !s.live m.val x.ch, pos := tag, run := x.run, runPos := if x.run = 0 then 0 else x.runPos, ch := x.ch
                lineb := x.lineb, slot := x.sbase + x.next.toNat % x.nslot * x.stride
                ebound := if fate = 2 then x.edec else x.e, two := x.two, sbits := x.sbits, world := x.world
                data := if fits then (data.take x.lineb).map (fun y => (y, bit h 6)) else []
                ended := decide (x.lineb ≤ n) }] }))) ∧
      (bit h 4 = false → x.cur = none →
        Answers (.ingressToken m r ws) s (fun t => ∃ u, t = (u.streamGo st).deliver ∧ OnlyStream st s u ∧ u.mem = s.mem ∧
          u.stream_ st = { x with extra := true })) ∧
      (∀ left done l, bit h 4 = false → x.cur = some left → x.lines = done ++ [l] → (∀ y ∈ done, y.ended = true) →
        l.ended = false →
        Answers (.ingressToken m r ws) s (fun t => ∃ u, t = (u.streamGo st).deliver ∧ OnlyStream st s u ∧
          u.fillOf st = s.fillOf st + (if l.fate = 3 then 0 else min left n) ∧
          u.stream_ st = { x with
            cur := more left, extra := x.extra || decide (left < n)
            lines := done ++ [{ l with
              ended := decide (left ≤ n), kept := l.kept || (decide (l.fate ≠ 3) && bit h 6)
              data := l.data ++ (if l.fate = 3 then [] else (data.take left).map (fun y => (y, bit h 6))) }] })) ∧
      (∀ left, bit h 4 = false → x.cur = some left → (∀ y ∈ x.lines, y.ended = true) →
        Answers (.ingressToken m r ws) s (fun t => ∃ u, t = (u.streamGo st).deliver ∧ OnlyStream st s u ∧ u.mem = s.mem ∧
          u.stream_ st = { x with cur := more left, extra := x.extra || decide (left < n) })))

/-- R357, R359, R360, R355: a part of a line is sent to its slot once its bytes have come, or the line has ended, and the record
of the oldest line once its parts are written or it is LOST. A part acknowledged leaves buffer and reservation; one that
meets a failed device makes its line LOST, and so does one that the region table refuses, which disables the stream with a
record as well. DONE passes a line with the answer to its record. R356, R364: stream words are taken from a secure write
alone: while the stream is enabled a write changes EN only, and a disable ends the line in progress with SHORT; a write that
enables has no effect where R356 bars it; a reserved value leaves its field. A release sets REL when it lies between REL and
DONE, and is refused with PARAM else. That DONE passes a line whose record was refused is the model's reading (log entry
49). -/
def Obligations.LinesAndStreamWords : Prop :=
  ((∀ (st : Nat) (s : State) (done : List Line) (l : Line),
    let x := s.stream_ st
    let due := (List.range l.parts).filter (fun k => decide (l.issued ≤ k) && (l.ended || decide (1024 * (k + 1) ≤ l.data.length)))
    x.lines = done ++ [l] → (x.lines.map (·.seq)).Nodup → (∀ y ∈ done, ∀ k, y.issued ≤ k → y.ready k = false) →
    (∀ y, done.head? = some y → y.written = true → y.recSent = true) → l.fate ≠ 3 → l.acked.length < l.parts →
    (∀ k ∈ l.acked, k < l.issued) →
    ∃ v u : State, v = { s with web := { s.web with streams := v.web.streams } } ∧ (∀ j, v.stream_ j = s.stream_ j) ∧
      u = due.foldl (fun u k => u.sendReq { src := .line st l.seq k, write := true, addr := l.slot + 1024 + 1024 * k, len := 1024
                                            data := l.part k, world := l.world }) v ∧
      s.streamGo st = { u with web := { u.web with streams := (s.streamGo st).web.streams } } ∧
      (∀ j, j ≠ st → (s.streamGo st).stream_ j = s.stream_ j) ∧
      (s.streamGo st).stream_ st = { x with lines := done ++ [{ l with issued := l.issued + due.length }] }) ∧
  (∀ (st : Nat) (s : State) (l : Line) (rest : List Line),
    let x := s.stream_ st
    x.lines = l :: rest → (x.lines.map (·.seq)).Nodup → (∀ y ∈ x.lines, ∀ k, y.issued ≤ k → y.ready k = false) →
    l.written = true → l.recSent = false → s.boot.phase ≠ .warm → s.rimInReset (st / 16) = false →
    ∃ v u : State, v = { s with web := { s.web with streams := v.web.streams } } ∧ (∀ j, v.stream_ j = s.stream_ j) ∧
      u = v.sendReq { src := .line st l.seq l.parts, write := true, addr := l.slot, len := 1024
                      data := l.record st ++ List.replicate 992 0, world := l.world } ∧
      s.streamGo st = { u with web := { u.web with streams := (s.streamGo st).web.streams } } ∧
      (∀ j, j ≠ st → (s.streamGo st).stream_ j = s.stream_ j) ∧
      (s.streamGo st).stream_ st = { x with lines := { l with recSent := true } :: rest }) ∧
  (∀ (i : Fin 32) (s : State) (q : MemResp) (before after : List Line) (l : Line) (k : Nat),
    let x := s.stream_ i.val
    let s' := { s with mem := { s.mem with resps := s.mem.resps.erase q } }
    let lost (y : Line) : Line := if y.fate = 3 then y else { y with fate := 3, defd := false, data := [] }
    let close (y : Line) : Line := if y.ended then y else { y with ended := true, short := true }
    let refused (addr : Nat) (u : State) : Prop :=
      u.keel = (s.emit 6 x.world (BitVec.ofNat 64 i.val) (BitVec.ofNat 64 addr) 0).keel
    let losses := if l.fate = 3 then x.lost else satInc x.lost
    s.mem.resps.find? (fun r => (lineResp i.val r).isSome) = some q → q.src = .line i.val l.seq k →
    x.lines = before ++ l :: after → (∀ y ∈ before ++ after, y.seq ≠ l.seq) →
    (k ≠ l.parts →
      (l.fate = 3 →
        Answers (.linePartWritten i) s (fun t => t = (s'.streamGo i.val).deliver)) ∧
      (l.fate ≠ 3 → q.status = 0 →
        Answers (.linePartWritten i) s (fun t => ∃ u, t = (u.streamGo i.val).deliver ∧ OnlyStream i.val s' u ∧
          u.fillOf i.val = s.fillOf i.val - l.partLen k ∧
          u.stream_ i.val = { x with
            lines := before ++ { l with acked := l.acked ++ [k], freed := l.freed + l.partLen k } :: after })) ∧
      (l.fate ≠ 3 → q.status ≠ 0 → (q.status.toNat ≤ 2 ∨ x.en = false) →
        Answers (.linePartWritten i) s (fun t => ∃ u, t = (u.streamGo i.val).deliver ∧ OnlyStream i.val s' u ∧
          u.fillOf i.val = s.fillOf i.val - l.held ∧
          u.stream_ i.val = { x with lost := losses, lines := before ++ lost l :: after })) ∧
      (l.fate ≠ 3 → 2 < q.status.toNat → x.en = true →
        Answers (.linePartWritten i) s (fun t => ∃ u, t = (u.streamGo i.val).deliver ∧ OnlyStream i.val { s' with keel := u.keel } u ∧
          refused (l.slot + 1024 + 1024 * k) u ∧ u.fillOf i.val = s.fillOf i.val - l.held ∧
          u.stream_ i.val = { x with
            cfg0 := setBits x.cfg0 0 0 0, cur := none, lost := losses, lines := (before ++ lost l :: after).map close }))) ∧
    (k = l.parts →
      (q.status.toNat ≤ 2 →
        Answers (.linePartWritten i) s (fun t => ∃ u, t = (u.streamGo i.val).deliver ∧ OnlyStream i.val s' u ∧ u.mem = s'.mem ∧
          u.stream_ i.val = { x with lines := before ++ after, done := BitVec.ofNat 48 (l.seq + 1) })) ∧
      (2 < q.status.toNat → x.en = false →
        Answers (.linePartWritten i) s (fun t => ∃ u, t = (u.streamGo i.val).deliver ∧ OnlyStream i.val s' u ∧
          u.fillOf i.val = s.fillOf i.val - l.held ∧
          u.stream_ i.val = { x with lost := losses, lines := before ++ after, done := BitVec.ofNat 48 (l.seq + 1) })) ∧
      (2 < q.status.toNat → x.en = true →
        Answers (.linePartWritten i) s (fun t => ∃ u, t = (u.streamGo i.val).deliver ∧ OnlyStream i.val { s' with keel := u.keel } u ∧
          refused l.slot u ∧ u.fillOf i.val = s.fillOf i.val - l.held ∧
          u.stream_ i.val = { x with
            cfg0 := setBits x.cfg0 0 0 0, cur := none, lost := losses, lines := (before ++ after).map close
            done := BitVec.ofNat 48 (l.seq + 1) }))))) ∧
  ((∀ (m : Fin 2) (p : Fin 16) (k : Fin 3) (v : Word) (s : State), exec (.ingcfgWrite false m p k v) s = .next s) ∧
  (∀ (m : Fin 2) (p : Fin 16) (v : Word) (s : State), s.up = true →
    let st := 16 * m.val + p.val
    let x := s.stream_ st
    let n := if 4 ≤ bits v 44 40 ∧ bits v 44 40 ≤ 24 then bits v 44 40 else bits x.cfg2 44 40
    let new := packF [(0, 3, bits v 2 0), (3, 4, if sbitsOk v then bits v 6 3 else bits x.cfg0 6 3), (7, 12, bits v 18 7),
      (24, 7, bits v 30 24), (32, 16, if bits v 47 32 < 63 then bits x.cfg0 47 32 else bits v 47 32)]
    (x.en = false →
      Answers (.ingcfgWrite true m p 1 v) s (fun t => OnlyStream st s t ∧ t.mem = s.mem ∧
        t.stream_ st = { x with cfg1 := packF [(0, 56, bits v 55 0)] }) ∧
      Answers (.ingcfgWrite true m p 2 v) s (fun t => OnlyStream st s t ∧ t.mem = s.mem ∧
        t.stream_ st = { x with cfg2 := packF [(0, 40, bits v 39 0), (40, 5, n), (48, 16, bits v 63 48)] }) ∧
      (bit v 0 = false ∨ s.enableOk m.val { x with cfg0 := new } v = true →
        Answers (.ingcfgWrite true m p 0 v) s (fun t => OnlyStream st s t ∧ t.mem = s.mem ∧ t.stream_ st = { x with cfg0 := new })) ∧
      (bit v 0 = true → s.enableOk m.val { x with cfg0 := new } v = false → exec (.ingcfgWrite true m p 0 v) s = .next s)) ∧
    (x.en = true →
      (∀ k : Fin 3, k.val ≠ 0 ∨ bit v 0 = true → exec (.ingcfgWrite true m p k v) s = .next s) ∧
      (bit v 0 = false →
        Answers (.ingcfgWrite true m p 0 v) s (fun t => ∃ u, t = u.streamGo st ∧ OnlyStream st s u ∧ u.mem = s.mem ∧
          u.stream_ st = { x with
            cfg0 := setBits x.cfg0 0 0 0, cur := none
            lines := x.lines.map (fun l => if l.ended then l else { l with ended := true, short := true }) })))) ∧
  (∀ (c : Fin 64) (s : State) (i : Nat) (e : LgEntry), Running s c.val 0x48 i e → s.rsvd i [(0, 63, 5), (1, 63, 48)] = false →
    let st := bits (s.pw i 0) 4 0
    let l := bits (s.pw i 1) 47 0
    (e.world = true ∨ (s.stream_ st).world = false) → s.keel.rebuilt.contains i = false →
    ((s.stream_ st).rel.toNat ≤ l → l ≤ (s.stream_ st).done.toNat →
      Answers (.islIngRelease c) s (fun t => Replied s t i { status := 0x00 } ∧ OnlyLedger s t ∧
        t.stream_ st = { s.stream_ st with rel := BitVec.ofNat 48 l } ∧ (∀ j, j ≠ st → t.stream_ j = s.stream_ j) ∧
        t = { s with keel := t.keel, web := { s.web with streams := t.web.streams } })) ∧
    (l < (s.stream_ st).rel.toNat ∨ (s.stream_ st).done.toNat < l →
      Answers (.islIngRelease c) s (fun t => Replied s t i { status := 0x12 } ∧ OnlyLedger s t ∧ t = { s with keel := t.keel }))))

/-- R375 to R378: a packet that passes the checks advances its channel's alive count and delivers its RACK. Then an ISL_ACK
ends; a command with the next number goes on to acceptance; a resend of a complete command whose reply has left and is not
covered is answered again with RP.REPLAY, and any other resend is dropped. One that fails a check is answered by a notice
with its reason and does nothing else. A lead sends a packet for another member on by its route, or answers it with a
notice. R377, R389 to R391: acceptance writes the packet to the lowest free entry with the next order number, and takes one
entry and its parameter units of the channel's credit. While a ledger window is out of service, and while no entry or no run
of parameter units is free, it waits. Which free entry is taken is the model's choice (log entry 33). -/
def Obligations.PacketIntake : Prop :=
  (∀ (src : IntakeSrc) (path : OutPath) (s s' : State) (p : Packet), Arrives s s' src path p →
    let i := if p.opc = 0 then Instr.islAck src else .packetIntake src
    let c := p.chan
    (¬ ForOther s path p →
      (∀ r, s'.early path p = some r ∨ (s'.early path p = none ∧ s'.late p = some r) →
        Answers i s (fun t => Noticed s' t path p s.pelNum r)) ∧
      (s'.early path p = none → s'.late p = none → Rising s.keel.ledger →
        (p.opc = 0 → Answers i s (fun t => Passed s' t c p.rack ∧ t.keel.accepting = s.keel.accepting)) ∧
        (p.opc ≠ 0 → p.seq = (s.chan c).next.toNat → Answers i s (fun t => Passed s' t c p.rack ∧
          t.keel.accepting = s.keel.accepting ++ [{ pkt := p, chan := c }])) ∧
        (p.opc ≠ 0 → p.seq ≠ (s.chan c).next.toNat →
          (∀ j e r, s.findSeq c p.seq = some (j, e) → e.state = .complete → e.reply = some r → p.seq < (s.chan c).replyNext →
            p.rack < p.seq →
            Answers i s (fun t => ∃ u, Passed s' u c p.rack ∧ u.keel.accepting = s.keel.accepting ∧ t = u.sendReply e r true)) ∧
          ((∀ j e r, s.findSeq c p.seq = some (j, e) → e.state = .complete → e.reply = some r →
              (s.chan c).replyNext ≤ p.seq ∨ p.seq ≤ p.rack) →
            Answers i s (fun t => Passed s' t c p.rack ∧ t.keel.accepting = s.keel.accepting))))) ∧
    (ForOther s path p →
      (∀ r, s'.early path p = some r → Answers i s (fun t => Noticed s' t path p 0 r)) ∧
      (s'.early path p = none → (s.chan c).world = false → Answers i s (fun t => Noticed s' t path p 0 4)) ∧
      (s'.early path p = none → (s.chan c).world = true → (∀ v, tlook p.member s.ser.pel.routes ≠ some (v, true)) →
        Answers i s (fun t => Noticed s' t path p 0 7)) ∧
      (∀ v, s'.early path p = none → (s.chan c).world = true → tlook p.member s.ser.pel.routes = some (v, true) →
        Answers i s (fun t => t = s'.relay { kind := 3, vc := 2, world := true, dest := p.member, src := 0
                                             data := [p.w0, p.w1, p.w2, p.w3] ++
                                               (chunks 8 p.params.length p.params).map wordOfBytes } false)))) ∧
  (∀ (c : Fin 64) (s : State) (a : Accepting),
    s.keel.accepting.find? (fun a => decide (a.chan = c.val)) = some a →
    (∀ u : Nat, s.keel.mirror = 3 → s.freeUnits (unitsOf a.pkt.plen) = some u → freeIndex 0 s.keel.ledger < 131072 →
      Answers (.acceptance c) s (fun t =>
        t.entry (freeIndex 0 s.keel.ledger) = some {
          seq := BitVec.ofNat 48 a.pkt.seq, chan := BitVec.ofNat 8 c.val, state := .accepted, world := (s.chan c.val).world
          fence := a.pkt.fence, marked := opMarked a.pkt.opc, opc := BitVec.ofNat 16 a.pkt.opc, plen := BitVec.ofNat 13 a.pkt.plen
          punit := BitVec.ofNat 19 u, pchk := crc32c a.pkt.params, order := s.keel.order, alive := 1 } ∧
        (∀ j, j ≠ freeIndex 0 s.keel.ledger → t.entry j = s.entry j) ∧ t.keel.order = s.keel.order + 1 ∧
        t.keel.accepting = s.keel.accepting.erase a ∧
        t.chan c.val = { s.chan c.val with
          next := (s.chan c.val).next + 1, heldE := (s.chan c.val).heldE - 1
          heldP := (s.chan c.val).heldP - unitsOf a.pkt.plen } ∧
        (∀ d, d ≠ c.val → t.chan d = s.chan d) ∧
        (a.pkt.plen ≠ 0 → tget [] t.keel.pstoreW u = a.pkt.params ∧ tget [] t.keel.pstoreE u = a.pkt.params) ∧
        t = { s with keel := t.keel })) ∧
    (s.keel.mirror ≠ 3 ∨ s.freeUnits (unitsOf a.pkt.plen) = none ∨ 131072 ≤ freeIndex 0 s.keel.ledger →
      exec (.acceptance c) s = .next s))

/-- R384, R385, R402, R403: the next command of a channel leaves the replay order and is counted when it was in it. One that
left its mark before a reset is answered as the mark says, a reset with its record; one that fails a check, with the status
of the first that it fails; one that passes starts, a load command going on to the loader. While a command is between its
start and its effect none starts. R378, R380, R386, R398, R400: a reply is formed and recorded once. The next reply of a
channel leaves, when it is formed, with the credit freed since the last; the oldest event record leaves on the path of
EVCFG. On a lost path nothing leaves. -/
def Obligations.StartsAndReplies : Prop :=
  ((∀ (c : Fin 64) (s : State) (i : Nat) (e : LgEntry), s.up = true → s.keel.current = none →
    s.nextStart c.val = some (i, e) → s.entry i = some e → e.state ≠ .complete →
    let queue := s.keel.replayQ.filter (· ≠ i)
    let count := if s.keel.replayQ.contains i then satInc s.keel.replayed else s.keel.replayed
    let Alone (t : State) : Prop := t = { s with keel := { s.keel with
      replayQ := queue, replayed := count, current := t.keel.current, ledger := t.keel.ledger, ledgerW := t.keel.ledgerW
      ledgerE := t.keel.ledgerE } }
    let Started (t : State) : Prop := t.entry i = some { e with state := .started, alive := e.alive + 1 } ∧
      ∀ j, j ≠ i → t.entry j = s.entry j
    (∀ m, s.markFor i e = some m → s.boot.warmCmds.contains i = false →
      Answers (.commandStart c) s (fun t => Replied s t i { status := m.status, det0 := m.det0, det1 := m.det1 } ∧
        t = { s with keel := { s.keel with
          replayQ := queue, ledger := t.keel.ledger, ledgerW := t.keel.ledgerW, ledgerE := t.keel.ledgerE } })) ∧
    (∀ m, s.markFor i e = some m → s.boot.warmCmds.contains i = true →
      Answers (.commandStart c) s (fun t => ∃ u, Replied s u i { status := m.status, det0 := m.det0, det1 := m.det1 } ∧
        u = { s with
          boot := { s.boot with warmCmds := s.boot.warmCmds.filter (· ≠ i) }
          keel := { s.keel with
            replayQ := queue, ledger := u.keel.ledger, ledgerW := u.keel.ledgerW, ledgerE := u.keel.ledgerE } } ∧
        t = u.emit 0x18 false 1 0 0)) ∧
    (s.markFor i e = none →
      (s.startCheck i e = none → e.opc ≠ 0x11 → e.opc ≠ 0x12 →
        Answers (.commandStart c) s (fun t => Started t ∧ t.keel.current = some i ∧ Alone t)) ∧
      (s.startCheck i e = none → (e.opc = 0x11 ∨ e.opc = 0x12) →
        Answers (.commandStart c) s (fun t => Started t ∧ t.keel.current = none ∧ Alone { t with ldr := s.ldr } ∧
          t.ldr = { s.ldr with waiting := s.ldr.waiting ++ [i] })) ∧
      (∀ st, s.startCheck i e = some st →
        Answers (.commandStart c) s (fun t => Replied s t i { status := st } ∧ Alone t)))) ∧
  (∀ (c : Fin 64) (s : State), s.keel.current.isSome ∨ s.nextStart c.val = none ∨ s.up = false →
    exec (.commandStart c) s = .next s)) ∧
  ((∀ (s : State) (i : Nat) (e : LgEntry) (r : Reply), s.entry i = some e →
    (e.state = .complete → s.complete i r = s) ∧
    (e.state ≠ .complete →
      (s.complete i r).entry i = some { e with state := .complete, reply := some r, alive := e.alive + 1 } ∧
      (∀ j, j ≠ i → (s.complete i r).entry j = s.entry j) ∧
      s.complete i r = { s with keel := { s.keel with
        ledger := (s.complete i r).keel.ledger, ledgerW := (s.complete i r).keel.ledgerW
        ledgerE := (s.complete i r).keel.ledgerE } })) ∧
  (∀ (c : Fin 64) (s : State) (i : Nat) (e : LgEntry) (r : Reply),
    let x := s.chan c.val
    let u := s.modChan c.val (fun x => { x with
      freedE := x.freedE - min x.freedE 65535, freedP := x.freedP - min x.freedP 65535
      heldE := x.heldE + (min x.freedE 65535 : Nat), heldP := x.heldP + (min x.freedP 65535 : Nat), devAlive := x.devAlive + 1 })
    s.up = true → s.lostPath (s.pathOf c.val) = false → s.nextReply c.val = some (i, e) → e.chan.toNat = c.val →
    e.state = .complete → e.reply = some r →
    Answers (.replySend c) s (fun t => t = (u.sendOut (s.pathOf c.val)
      (rpPacket 1 false (s.keel.rebuilt.contains i) x.world r.status e.seq.toNat c.val s.pelNum (min x.freedE 65535)
        (min x.freedP 65535) x.devAlive.toNat r.det0 r.det1)).modChan c.val (fun x => { x with replyNext := e.seq.toNat + 1 }))) ∧
  (∀ (c : Fin 64) (s : State), (s.up = false ∨ s.lostPath (s.pathOf c.val) = true ∨ s.nextReply c.val = none ∨
      ∃ i e, s.nextReply c.val = some (i, e) ∧ (e.state ≠ .complete ∨ e.reply = none)) →
    exec (.replySend c) s = .next s) ∧
  (∀ (s : State) (e : EventRec) (rest : List EventRec), s.keel.events = e :: rest →
    (s.up = true → s.lostPath s.eventPath = false →
      Answers .eventRecordSend s (fun t => t = ({ s with keel := { s.keel with events := rest } } : State).sendOut s.eventPath {
        w0 := packF [(0, 4, 3), (4, 1, b2n e.world), (8, 8, e.src.toNat), (16, 32, e.eseq.toNat), (48, 16, e.lost.toNat)]
        w1 := e.w1, w2 := e.w2, w3 := e.w3 })) ∧
    (s.lostPath s.eventPath = true → exec .eventRecordSend s = .next s)) ∧
  (∀ (s : State) (m : Bool) (p : DevPacket),
    s.sendOut (.host m) p = { s with keel := { s.keel with out := s.keel.out ++ [(.host m, p)] } } ∧
    s.sendOut .ssp p = { s with
      keel := { s.keel with out := s.keel.out ++ [(.ssp, p)] }, ssp := { s.ssp with held := s.ssp.held ++ [p] } }))

/-- R379, R393 to R395, R403: NOP replies OK and does nothing else. CHANNEL_SET sets a channel other than its own to what it
states, with its mark: it opens a closed one, gives an open one that no entry is of new quotas, or closes it; one that
states what is so leaves its mark and changes nothing else; it refuses what breaks R379 with PARAM, and a channel in use
with STATE. R254, R310, R381, R382, R394, R395: a read replies with its bytes: in the detail words up to 16, else in a read
packet before the reply; registers are read word by word with their effects, and stored bytes once their code words have
been. A write stores its bytes or writes its registers. A range that the world does not reach, or one badly formed, moves
nothing; one with an uncorrectable or lost byte replies so; and one that meets a retraining channel waits. -/
def Obligations.ChannelAndAccessCommands : Prop :=
  ((∀ (c : Fin 64) (s : State) (i : Nat) (e : LgEntry), Running s c.val 0x01 i e → Refuses (.islNop c) s i 0x00) ∧
  (∀ (c : Fin 64) (s : State) (i : Nat) (e : LgEntry), Running s c.val 0x02 i e →
    let ch := bits (s.pw i 0) 7 0
    let y := s.chan ch
    let on := bit (s.pw i 0) 8
    let w := bit (s.pw i 0) 9
    let path := BitVec.ofNat 2 (bits (s.pw i 0) 11 10)
    let qe := bits (s.pw i 1) 17 0
    let qp := bits (s.pw i 1) 51 32
    let next := bits (s.pw i 2) 47 0
    let bad : Prop := s.rsvd i [(0, 63, 12), (1, 31, 18), (1, 63, 52), (2, 63, 48)] = true ∨ 63 < ch ∨ path = 1 ∨ ch = c.val ∨
      (on = true ∧ s.quotaBad ch qe qp = true)
    let same : Prop := y.isOpen = true ∧ on = true ∧ y.world = w ∧ y.path = path ∧ y.quotaE.toNat = qe ∧ y.quotaP.toNat = qp ∧
      y.next.toNat = next
    (bad → Refuses (.islChannelSet c) s i 0x12) ∧
    (¬ bad → ¬ same → y.isOpen = true → s.chanBusy ch = true → Refuses (.islChannelSet c) s i 0x11) ∧
    (¬ bad → (same ∨ y.isOpen = false ∨ s.chanBusy ch = false) →
      Answers (.islChannelSet c) s (fun t => Replied s t i { status := 0x00 } ∧
        (same → t.chan ch = { y with mark := some (e.markOf 0x00) }) ∧
        (¬ same → t.chan ch = { y with
          isOpen := on, world := w, path := path, quotaE := BitVec.ofNat 18 qe, quotaP := BitVec.ofNat 20 qp
          next := BitVec.ofNat 48 next, replyNext := next, racked := 0, mark := some (e.markOf 0x00)
          heldE := if on then (if y.isOpen then y.heldE + qe - y.quotaE.toNat else qe) else 0
          heldP := if on then (if y.isOpen then y.heldP + qp - y.quotaP.toNat else qp) else 0
          freedE := if on = true ∧ y.isOpen = true then y.freedE else 0
          freedP := if on = true ∧ y.isOpen = true then y.freedP else 0
          alivExp := if on = true ∧ y.isOpen = false then 0 else y.alivExp
          devAlive := if on = true ∧ y.isOpen = false then 0 else y.devAlive }) ∧
        (∀ d, d ≠ ch → t.chan d = s.chan d) ∧
        t = { s with keel := { s.keel with
          current := none, chans := t.keel.chans, ledger := t.keel.ledger, ledgerW := t.keel.ledgerW, ledgerE := t.keel.ledgerE } })))) ∧
  ((∀ (c : Fin 64) (ecc : List CodeWordError) (s : State) (i : Nat) (e : LgEntry), Running s c.val 0x03 i e →
    let a := bits (s.pw i 0) 39 0
    let n := bits (s.pw i 0) 52 40
    let regs : Prop := keelBase ≤ a ∧ a + n ≤ 0x10000000000
    let bad : Prop := s.rsvd i [(0, 63, 53)] = true ∨ a % 8 ≠ 0 ∨ n < 8 ∨ 4096 < n ∨ n % 8 ≠ 0
    let Gives (u : State) (bs : List Byte) : Prop := Answers (.islRead c ecc) s (fun t => t =
      if n ≤ 16 then u.complete i { status := 0x00, det0 := wordOfBytes bs, det1 := wordOfBytes (bs.drop 8) }
      else (u.sendOut (u.pathOf c.val) {
        w0 := packF [(0, 4, 2), (16, 48, e.seq.toNat)], w1 := packF [(0, 8, c.val), (16, 13, 0)], w2 := packF [(0, 13, n)]
        data := bs }).complete i { status := 0x00, det0 := BitVec.ofNat 64 n })
    (bad → Refuses (.islRead c ecc) s i 0x12) ∧
    (¬ bad → s.memHeld a n = true → exec (.islRead c ecc) s = .next s) ∧
    (¬ bad → s.memHeld a n = false →
      (regs → Gives (readWords e.world (n / 8) a s.begun).1 (bytesOfWords (readWords e.world (n / 8) a s.begun).2)) ∧
      (¬ regs → readBar s e.world a n = 3 → Refuses (.islRead c ecc) s i 0x13) ∧
      (¬ regs → readBar s e.world a n ≠ 3 → readBar s e.world a n ≠ 0 → Refuses (.islRead c ecc) s i 0x12) ∧
      (¬ regs → readBar s e.world a n = 0 →
        let u := s.begun.eccRange a n ecc
        ((u.memRead a n).1 = 0 → Gives u (u.memRead a n).2) ∧
        ((u.memRead a n).1 = 1 → Answers (.islRead c ecc) s (fun t => t =
          u.complete i { status := 0x31, det0 := packF [(16, 8, 1)] })) ∧
        (1 < (u.memRead a n).1 → Answers (.islRead c ecc) s (fun t => t =
          u.complete i { status := 0x33, det0 := packF [(16, 8, 2)] }))))) ∧
  (∀ (c : Fin 64) (ecc : List CodeWordError) (s : State) (i : Nat) (e : LgEntry), Running s c.val 0x04 i e → s.mem.resps = [] →
    let a := bits (s.pw i 0) 39 0
    let data := (s.paramsOf i).drop 8
    let regs : Prop := keelBase ≤ a ∧ a + data.length ≤ 0x10000000000
    let bad : Prop := s.rsvd i [(0, 63, 40)] = true ∨ a % 8 ≠ 0
    let k := s.memCheck e.world a data.length
    let u := (s.begun.eccWrite a data.length ecc).memWrite a data
    (bad → Refuses (.islWrite c ecc) s i 0x12) ∧
    (¬ bad → regs → Answers (.islWrite c ecc) s (fun t => t =
      ((writeWords e.world (wordsOfBytes data) a s.begun).complete i { status := 0x00 }).deliver)) ∧
    (¬ bad → ¬ regs → k = 3 → Refuses (.islWrite c ecc) s i 0x13) ∧
    (¬ bad → ¬ regs → k ≠ 3 → k ≠ 0 → Refuses (.islWrite c ecc) s i 0x12) ∧
    (¬ bad → ¬ regs → k = 0 → s.memHeld a data.length = true → exec (.islWrite c ecc) s = .next s) ∧
    (¬ bad → ¬ regs → k = 0 → s.memHeld a data.length = false → Answers (.islWrite c ecc) s (fun t => t =
      (u.1.complete i (if u.2 = 0 then { status := 0x00 }
        else { status := if u.2 = 2 then 0x33 else 0x31, det0 := packF [(16, 8, u.2)] })).deliver))))

/-- R387, R388, R403: ARM, RUN and the two Freewheel commands move the device state with their mark. QUIESCE moves it at once,
and bars full loads; it is answered when every task that had started then has been, in the order of these commands. Which
tasks QUIESCE waits for is the model's reading (log entry 64). -/
def Obligations.DeviceStates : Prop :=
  (∀ (c : Fin 64) (s : State) (i : Nat) (e : LgEntry),
    (Running s c.val 0x20 i e → Answers (.islArm c) s (fun t => Enters s t i e .armed)) ∧
    (Running s c.val 0x21 i e → Answers (.islRun c) s (fun t => Enters s t i e .running)) ∧
    (Running s c.val 0x22 i e → Answers (.islFreewheelEnter c) s (fun t => Enters s t i e .freewheel)) ∧
    (Running s c.val 0x23 i e → Answers (.islFreewheelLeave c) s (fun t => Enters s t i e .running)) ∧
    (Running s c.val 0x24 i e → Answers (.islQuiesce c) s (fun t => t = { s with keel := { s.keel with
      current := none, dstate := .quiesced, prev := s.keel.dstate, stateMark := some (e.markOf 0x00), drain := true
      quiescing := s.keel.quiescing ++ [(i, (s.keel.ledger.filter (fun x =>
        decide (x.2.opc = 0x30) && decide (x.2.state = .started))).map (·.2.order))] } }))) ∧
  (∀ (s : State) (i : Nat) (before : List (BitVec 32)) (rest : List (Nat × List (BitVec 32))) (e : LgEntry),
    s.keel.quiescing = (i, before) :: rest →
    let runs : Prop := ∃ x ∈ s.keel.ledger, x.2.opc = 0x30 ∧ x.2.state = .started ∧ x.2.order ∈ before
    (¬ runs → s.entry i = some e → e.state ≠ .complete →
      Answers .quiesceDrainEnd s (fun t => t.keel.quiescing = rest ∧ t.keel.drain = !rest.isEmpty ∧
        (∃ e', t.entry i = some e' ∧ e'.state = .complete ∧ e'.reply = some { status := 0x00 }) ∧
        (∀ j, j ≠ i → t.entry j = s.entry j) ∧
        t = { s with keel := { s.keel with
          quiescing := t.keel.quiescing, drain := t.keel.drain, ledger := t.keel.ledger, ledgerW := t.keel.ledgerW
          ledgerE := t.keel.ledgerE } })) ∧
    (runs → exec .quiesceDrainEnd s = .next s)) ∧
  (∀ s : State, s.keel.quiescing = [] → exec .quiesceDrainEnd s = .next s)

/-- R160, R178, R310, R381, R394, R396, R397, R403: a task that passes its issue checks joins the start queue of its tile, and
one that does not is answered; it waits while a channel retrains. A cancel is answered at once with what it found: no such
task 2, a complete one 1, else 0 with its mark on the task, whose context is told, or which is answered CANCELLED when it
runs nowhere. -/
def Obligations.TaskCommands : Prop :=
  (∀ (c : Fin 64) (ecc : List CodeWordError) (s : State) (i : Nat) (e : LgEntry), Running s c.val 0x30 i e →
    (s.retraining = true → exec (.islTaskIssue c ecc) s = .next s) ∧
    (s.retraining = false →
      Answers (.islTaskIssue c ecc) s (fun t =>
        match issueCheck ecc s.begun {
            entry := i, chan := c.val, seq := e.seq.toNat, world := e.world, desc := wordsOfBytes (s.paramsOf i), seqTab := []
            tvuTab := [], groups := [], keys := [], pring := none, num := s.fresh } with
        | (u, .ok k) => t = { u with startQ := t.startQ, fresh := u.fresh + 1 } ∧
          tget [] t.startQ k.logical = tget [] u.startQ k.logical ++ [k] ∧
          ∀ l, l ≠ k.logical → tget [] t.startQ l = tget [] u.startQ l
        | (u, .error r) => t = u.complete i r))) ∧
  (∀ (c : Fin 64) (s : State) (i : Nat) (e : LgEntry), Running s c.val 0x31 i e →
    let bad : Prop := s.rsvd i [(0, 63, 8), (1, 63, 48)] = true ∨ 63 < bits (s.pw i 0) 7 0
    (bad → Refuses (.islTaskCancel c) s i 0x12) ∧
    (¬ bad →
      (s.cancelTarget i = none →
        Answers (.islTaskCancel c) s (fun t => Replied s t i { status := 0x00, det0 := 2 } ∧ OnlyLedger s t ∧
          t = { s with keel := t.keel })) ∧
      (∀ j k, s.cancelTarget i = some (j, k) → k.state = .complete →
        Answers (.islTaskCancel c) s (fun t => Replied s t i { status := 0x00, det0 := 1 } ∧ OnlyLedger s t ∧
          t = { s with keel := t.keel })) ∧
      (∀ j k p x rest, s.cancelTarget i = some (j, k) → k.state ≠ .complete → j ≠ i → s.runsEntry j = (p, x) :: rest → x < 2 →
        Answers (.islTaskCancel c) s (fun t =>
          t.ctx p x = { s.ctx p x with cancelAsked := true } ∧ t.tile p = (s.tile p).setCtx x (t.ctx p x) ∧
          (∀ q, q ≠ p → t.tile q = s.tile q) ∧ t.entry j = some { k with mark := some (e.markOf 0x00), alive := k.alive + 1 } ∧
          (∃ e', t.entry i = some e' ∧ e'.state = .complete ∧ e'.reply = some { status := 0x00, det0 := 0 }) ∧
          (∀ m, m ≠ i → m ≠ j → t.entry m = s.entry m) ∧ t = { s with keel := t.keel, tiles := t.tiles } ∧ OnlyLedger s t)) ∧
      (∀ j k, s.cancelTarget i = some (j, k) → k.state ≠ .complete → j ≠ i → s.runsEntry j = [] →
        let past := ((s.startQ.flatMap (·.2)).find? (fun x => decide (x.entry = j))).map (·.past)
        Answers (.islTaskCancel c) s (fun t =>
          t.startQ = s.startQ.map (fun q => (q.1, q.2.filter (fun x => decide (x.entry ≠ j)))) ∧
          t.keel.replayQ = s.keel.replayQ.filter (· ≠ j) ∧
          t.entry j = some { k with
            mark := some (e.markOf 0x00), alive := k.alive + 2, state := .complete
            reply := some { status := 0x32, det0 := past.getD 0, det1 := BitVec.ofNat 64 (bits (s.pw j 0) 31 0) } } ∧
          (∃ e', t.entry i = some e' ∧ e'.state = .complete ∧ e'.reply = some { status := 0x00, det0 := 0 }) ∧
          (∀ m, m ≠ i → m ≠ j → t.entry m = s.entry m) ∧ t = { s with keel := t.keel, startQ := t.startQ }))))

/-- R85, R215, R344, R348, R349, R352, R381, R394, R403: what FLAGS_CLEAR, CTR_SET, ODO_PRESET, ACT_ARM and ACT_CANCEL do to the
thing that they name, with their mark there, and what they reply; words that R394 reserves are refused with PARAM. That a
refused command leaves no mark is the model's reading (log entry 60). -/
def Obligations.MarkedCommands : Prop :=
  (∀ (c : Fin 64) (s : State) (i : Nat) (e : LgEntry),
    ∀ x ∈ ([(.islFlagsClear c, 0x32, [(0, 47, 44), (0, 63, 56)]), (.islCtrSet c, 0x38, [(0, 63, 14), (1, 63, 48), (2, 63, 48)]),
        (.islOdoPreset c, 0x40, [(0, 63, 2), (1, 63, 48), (2, 63, 48)]), (.islActArm c, 0x41, [(0, 63, 14)]),
        (.islActCancel c, 0x42, [(0, 63, 14)]), (.islIngRelease c, 0x48, [(0, 63, 5), (1, 63, 48)])] :
        List (Instr × Nat × List (Nat × Nat × Nat))),
      Running s c.val x.2.1 i e → s.rsvd i x.2.2 = true → Refuses x.1 s i 0x12) ∧
  (∀ (c : Fin 64) (s : State) (i : Nat) (e : LgEntry), Running s c.val 0x32 i e → s.rsvd i [(0, 47, 44), (0, 63, 56)] = false →
    (flagAt (bits (s.pw i 0) 39 0) = none → Refuses (.islFlagsClear c) s i 0x12) ∧
    (∀ p g, flagAt (bits (s.pw i 0) 39 0) = some (p, g) →
      Answers (.islFlagsClear c) s (fun t =>
        let r := ((s.tile p).flag g).clear (BitVec.ofNat 4 (bits (s.pw i 0) 43 40)) (BitVec.ofNat 8 (bits (s.pw i 0) 55 48))
        let st : BitVec 8 := if r.1 then 0x00 else 0x41
        Replied s t i { status := st, det0 := r.2.toWord } ∧
        t.tile p = (s.tile p).setFlag g { r.2 with mark := some (e.markOf st r.2.toWord) } ∧ (∀ q, q ≠ p → t.tile q = s.tile q) ∧
        OnlyLedger s t ∧ t = { s with keel := t.keel, tiles := t.tiles }))) ∧
  (∀ (c : Fin 64) (s : State) (i : Nat) (e : LgEntry), Running s c.val 0x38 i e →
    s.rsvd i [(0, 63, 14), (1, 63, 48), (2, 63, 48)] = false →
    let k := bits (s.pw i 0) 11 0
    Answers (.islCtrSet c) s (fun t =>
      Replied s t i { status := 0x00 } ∧
      tget ({} : Counter) t.ctrs.ctrs k = {
        value := if bit (s.pw i 0) 12 then BitVec.ofNat 48 (bits (s.pw i 1) 47 0) else (s.wctr k).value
        limit := if bit (s.pw i 0) 13 then BitVec.ofNat 48 (bits (s.pw i 2) 47 0) else (s.wctr k).limit
        mark := some (e.markOf 0x00) } ∧
      (∀ j, j ≠ k → tget ({} : Counter) t.ctrs.ctrs j = tget {} s.ctrs.ctrs j) ∧
      t.ctrs.pool = s.ctrs.pool.filter (fun v => decide (v.1 ≠ k)) ∧ OnlyLedger s t ∧
      t = { s with keel := t.keel, ctrs := { s.ctrs with ctrs := t.ctrs.ctrs, pool := t.ctrs.pool } })) ∧
  (∀ (c : Fin 64) (s : State) (i : Nat) (e : LgEntry), Running s c.val 0x40 i e →
    s.rsvd i [(0, 63, 2), (1, 63, 48), (2, 63, 48)] = false →
    let k := bits (s.pw i 0) 1 0
    let a := BitVec.ofNat 48 (bits (s.pw i 1) 47 0)
    let v := BitVec.ofNat 48 (bits (s.pw i 2) 47 0)
    let far (m : Nat) : Prop :=
      (1024 ≤ (a - (s.odo k).pos m).toNat ∧ (a - (s.odo k).pos m).toNat < 2 ^ 47) ∨
      (1024 ≤ ((s.odo k).pos m - a).toNat ∧ ((s.odo k).pos m - a).toNat < 2 ^ 47)
    ((∀ m, m < 2 → s.live m k = true → far m) →
      Answers (.islOdoPreset c) s (fun t => Replied s t i { status := 0x00 } ∧
        t.odo k = { s.odo k with
          preW := if s.live 0 k then some (a, v) else (s.odo k).preW
          preE := if s.live 1 k then some (a, v) else (s.odo k).preE
          markW := if s.live 0 k then some (e.markOf 0x00) else (s.odo k).markW
          markE := if s.live 1 k then some (e.markOf 0x00) else (s.odo k).markE } ∧
        (∀ j, j ≠ k → t.odo j = s.odo j) ∧ OnlyLedger s t ∧
        t = { s with keel := t.keel, web := { s.web with odo := t.web.odo } })) ∧
    ((∃ m, m < 2 ∧ s.live m k = true ∧ ¬ far m) → Refuses (.islOdoPreset c) s i 0x12)) ∧
  (∀ (c : Fin 64) (s : State) (i : Nat) (e : LgEntry), Running s c.val 0x41 i e → s.rsvd i [(0, 63, 14)] = false →
    let k := bits (s.pw i 0) 13 0
    let x : ActEntry := {
      w0 := s.pw i 1, w1 := s.pw i 2 ||| packF [(24, 2, 1), (26, 1, b2n e.world)], mark := some (e.markOf 0x00) }
    let at_ := (s.odo x.ch).pos x.rim
    let pin := 128 * x.rim + x.pin
    let OnlyAct (t : State) : Prop := (∀ j, j ≠ k → t.act j = s.act j) ∧
      t = { s with keel := t.keel, web := { s.web with acts := t.web.acts }, fab := { s.fab with pins := t.fab.pins } }
    (e.world = false → (s.act k).world = true → Refuses (.islActArm c) s i 0x13) ∧
    (e.world = true ∨ (s.act k).world = false →
      (s.armBad { w0 := s.pw i 1, w1 := s.pw i 2 } = true → Refuses (.islActArm c) s i 0x12) ∧
      (s.armBad { w0 := s.pw i 1, w1 := s.pw i 2 } = false → (s.act k).st ≠ 0 → Refuses (.islActArm c) s i 0x11) ∧
      (s.armBad { w0 := s.pw i 1, w1 := s.pw i 2 } = false → (s.act k).st = 0 →
        (ahead x.target at_ x.rev = true →
          Answers (.islActArm c) s (fun t => Replied s t i { status := 0x00 } ∧ t.act k = x ∧ t.fab = s.fab ∧ OnlyAct t ∧
            OnlyLedger s t)) ∧
        (ahead x.target at_ x.rev = false → x.late = false →
          Answers (.islActArm c) s (fun t => ∃ u, t = u.complete i { status := 0x00 } ∧ u.act k = x.setSt 0 ∧ u.fab = s.fab ∧
            OnlyAct u ∧ u.keel = (s.begun.actRec k 2 x at_).keel)) ∧
        (ahead x.target at_ x.rev = false → x.late = true →
          Answers (.islActArm c) s (fun t => ∃ u, t = u.complete i { status := 0x00 } ∧
            u.act k = x.setSt (if x.op = 2 then 2 else 0) ∧ OnlyAct u ∧ u.keel = (s.begun.actRec k 1 x at_).keel ∧
            u.pin pin = { s.pin pin with latch := firedLatch x.op (s.pin pin).latch } ∧
            ∀ j, j ≠ pin → u.pin j = s.pin j))))) ∧
  (∀ (c : Fin 64) (s : State) (i : Nat) (e : LgEntry), Running s c.val 0x42 i e → s.rsvd i [(0, 63, 14)] = false →
    let k := bits (s.pw i 0) 13 0
    (e.world = false → (s.act k).world = true → Refuses (.islActCancel c) s i 0x13) ∧
    (e.world = true ∨ (s.act k).world = false →
      ((s.act k).st ≠ 0 →
        Answers (.islActCancel c) s (fun t => Replied s t i { status := 0x00 } ∧
          t.act k = { (s.act k).setSt 0 with mark := some (e.markOf 0x00) } ∧ (∀ j, j ≠ k → t.act j = s.act j) ∧
          OnlyLedger s t ∧ t = { s with keel := t.keel, web := { s.web with acts := t.web.acts } })) ∧
      ((s.act k).st = 0 → Refuses (.islActCancel c) s i 0x11)))

/-- R394, R413 to R415: a world is set for a tile that has no task in the scope, and clears what the scope holds; for a counter
bank, and zeroes its counters, drops its returned values and takes them from the tasks that hold them; for a lane group with
its lanes disabled. A world that is so already is left with all it holds; a scope or group in use is refused with STATE, and
a field that R413 reserves with PARAM. Clearing in one step is the model's choice (log entry 66). -/
def Obligations.WorldSets : Prop :=
  (∀ (c : Fin 64) (s : State) (i : Nat) (e : LgEntry), Running s c.val 0x50 i e →
    let kind := bits (s.pw i 0) 2 0
    let w := bit (s.pw i 0) 3
    let l := bits (s.pw i 0) 13 4
    let scope := bits (s.pw i 0) 15 14
    let bad : Prop := kind ≠ 1 ∨ s.rsvd i [(0, 63, 16)] = true ∨ 767 < l ∨ scope = 3
    let differs : Prop := (scope ≠ 2 ∧ s.wtile l 0 ≠ w) ∨ (scope ≠ 1 ∧ s.wtile l 1 ≠ w)
    (kind ≠ 2 → kind ≠ 3 → bad → Refuses (.islWorldSetTile c) s i 0x12) ∧
    (¬ bad → ¬ differs → Refuses (.islWorldSetTile c) s i 0x00) ∧
    (¬ bad → differs → s.scopeBusy l scope = true → Refuses (.islWorldSetTile c) s i 0x11) ∧
    (¬ bad → differs → s.scopeBusy l scope = false →
      Answers (.islWorldSetTile c) s (fun t => Replied s t i { status := 0x00 } ∧ OnlyLedger s t ∧
        t.wtile l 0 = (if scope = 2 then s.wtile l 0 else w) ∧ t.wtile l 1 = (if scope = 1 then s.wtile l 1 else w) ∧
        (∀ k, k ≠ l → t.wtile k 0 = s.wtile k 0 ∧ t.wtile k 1 = s.wtile k 1) ∧ (s.placed l = none → t.tiles = s.tiles) ∧
        (∀ p, s.placed l = some p → (∀ q, q ≠ p → t.tile q = s.tile q) ∧
          (scope = 0 ∨ (scope = 1 ∧ (s.tile p).split = false) → (∀ b a, (t.tile p).rd b a = 0) ∧ (∀ n, (t.tile p).acc_rd n = 0) ∧
            (∀ g, (t.tile p).flag g = {}) ∧ (t.ctx p 0).links = [] ∧ (t.ctx p 1).links = [] ∧ (t.tile p).imem = [] ∧
            (t.tile p).vregs = []) ∧
          (scope = 1 → (s.tile p).split = true → (∀ a, (t.tile p).rd 0 a = 0) ∧ (∀ a, (t.tile p).rd 1 a = (s.tile p).rd 1 a) ∧
            t.ctx p 1 = s.ctx p 1 ∧ (t.ctx p 0).links = []) ∧
          (scope = 2 → (∀ a, (t.tile p).rd 1 a = 0) ∧ (∀ a, (t.tile p).rd 0 a = (s.tile p).rd 0 a) ∧
            (t.ctx p 1).links = [] ∧ (t.ctx p 0).links = (s.ctx p 0).links)) ∧
        t = { s with keel := t.keel, tiles := t.tiles, sec := { s.sec with wtile0 := t.sec.wtile0, wtile1 := t.sec.wtile1 } }))) ∧
  (∀ (c : Fin 64) (s : State) (i : Nat) (e : LgEntry), Running s c.val 0x50 i e → bits (s.pw i 0) 2 0 = 2 →
    let w := bit (s.pw i 0) 3
    let b := bits (s.pw i 0) 13 4
    let bad : Prop := s.rsvd i [(0, 63, 14)] = true ∨ 15 < b
    let free (x : CtxSt) : CtxSt := { x with xr := x.xr.map (fun r =>
      (r.1, { r.2 with live := r.2.live.filter (fun k => decide (k / 256 ≠ b)) })) }
    (bad → Refuses (.islWorldSetCounterBank c) s i 0x12) ∧
    (¬ bad → s.wcbank b = w → Refuses (.islWorldSetCounterBank c) s i 0x00) ∧
    (¬ bad → s.wcbank b ≠ w →
      Answers (.islWorldSetCounterBank c) s (fun t => Replied s t i { status := 0x00 } ∧ OnlyLedger s t ∧ t.wcbank b = w ∧
        (∀ k, k ≠ b → t.wcbank k = s.wcbank k) ∧ t.ctrs.pool = s.ctrs.pool.filter (fun v => decide (v.1 / 256 ≠ b)) ∧
        (∀ k, k / 256 = b → (t.wctr k).value = 0 ∧ (t.wctr k).limit = 0) ∧ (∀ k, k / 256 ≠ b → t.wctr k = s.wctr k) ∧
        (∀ p, t.tile p = { s.tile p with c0 := free (s.tile p).c0, c1 := free (s.tile p).c1 }) ∧
        t = { s with keel := t.keel, tiles := t.tiles, ctrs := t.ctrs, sec := { s.sec with wcbank := t.sec.wcbank } }))) ∧
  (∀ (c : Fin 64) (s : State) (i : Nat) (e : LgEntry), Running s c.val 0x50 i e → bits (s.pw i 0) 2 0 = 3 →
    let w := bit (s.pw i 0) 3
    let g := bits (s.pw i 0) 13 4
    let bad : Prop := s.rsvd i [(0, 63, 14)] = true ∨ 11 < g
    let used : Prop := ∃ j, j < 8 ∧ (s.lane (portLane g j)).en = true
    (bad → Refuses (.islWorldSetLaneGroup c) s i 0x12) ∧
    (¬ bad → s.wlane g = w → Refuses (.islWorldSetLaneGroup c) s i 0x00) ∧
    (¬ bad → s.wlane g ≠ w → used → Refuses (.islWorldSetLaneGroup c) s i 0x11) ∧
    (¬ bad → s.wlane g ≠ w → ¬ used →
      Answers (.islWorldSetLaneGroup c) s (fun t => Replied s t i { status := 0x00 } ∧ OnlyLedger s t ∧ t.wlane g = w ∧
        (∀ k, k ≠ g → t.wlane k = s.wlane k) ∧
        t = { s with keel := t.keel, sec := { s.sec with wlane := t.sec.wlane } })))

/-- R310, R394, R420, R422, R423: attestation is refused with STATE without a valid epoch or with no index left, with WORLD or
PARAM by the range that it names; until the key tree is ready a command waits, and so it does for a retraining channel. Then
it takes the next index, and its signed report is written to memory. When the tree becomes ready, the commands that waited
go on in their order; a retraining channel holds that up. R419: what the two fuse commands blow, when they do, and what
FUSESTAT.FCMD then reads; a blow that does not read back bars every later one; the staging words are cleared after each
command; a write of the non-secure world has no effect. Whether a blow reads back is an operand (log entry 27). -/
def Obligations.AttestationAndFuses : Prop :=
  ((∀ (c : Fin 64) (ecc : List CodeWordError) (s : State) (i : Nat) (e : LgEntry), Running s c.val 0x51 i e → s.mem.resps = [] →
    let a := bits (s.pw i 0) 39 0
    let idx := 256 * s.sec.epoch.toNat + s.sec.attNext.toNat
    let none_ : Prop := s.sec.epv = false ∨ 256 ≤ s.sec.attNext.toNat
    let k := s.memCheck e.world a 5248
    let bad : Prop := s.rsvd i [(0, 63, 40)] = true ∨ a % 64 ≠ 0 ∨ k ≠ 0
    let rep := s.begun.report e.world idx [s.pw i 1, s.pw i 2, s.pw i 3, s.pw i 4]
    let s' := s.begun.modSec (fun x => { x with attNext := x.attNext + 1 })
    let u := (s'.eccWrite a rep.length ecc).memWrite a rep
    (none_ → Refuses (.islAttest c ecc) s i 0x11) ∧ (¬ none_ → k = 3 → Refuses (.islAttest c ecc) s i 0x13) ∧
    (¬ none_ → k ≠ 3 → bad → Refuses (.islAttest c ecc) s i 0x12) ∧
    (¬ none_ → ¬ bad → s.sec.attReady = false →
      Answers (.islAttest c ecc) s (fun t => t = { s with
        keel := { s.keel with current := none }, sec := { s.sec with attWait := s.sec.attWait ++ [i] } })) ∧
    (¬ none_ → ¬ bad → s.sec.attReady = true → s.memHeld a 5248 = true → exec (.islAttest c ecc) s = .next s) ∧
    (¬ none_ → ¬ bad → s.sec.attReady = true → s.memHeld a 5248 = false →
      Answers (.islAttest c ecc) s (fun t => t = (u.1.complete i
        (if u.2 = 0 then { status := 0x00, det0 := packF [(0, 20, idx)], det1 := BitVec.ofNat 64 a }
          else { status := if u.2 = 2 then 0x33 else 0x31 })).deliver))) ∧
  (∀ (ecc : List CodeWordError) (s : State), s.up = true → s.sec.epv = true → s.sec.attReady = false →
    (s.retraining = false ∨ s.sec.attWait = []) →
    Answers (.attstatReady ecc) s (fun t => t = (s.sec.attWait.foldl (fun u i => match u.entry i with
      | some e => u.attest i e.world ecc
      | none => u) (s.modSec (fun x => { x with attReady := true, attWait := [] }))).deliver)) ∧
  (∀ (ecc : List CodeWordError) (s : State), s.mem.resps = [] → (s.up = false ∨ s.sec.epv = false ∨ s.sec.attReady = true ∨
      (s.retraining = true ∧ s.sec.attWait ≠ [])) → exec (.attstatReady ecc) s = .next s)) ∧
  ((∀ (chk : Word32) (blown : Bool) (s : State), s.up = true →
    let ok : Prop := s.keel.dstate = .safe ∧ s.sec.owner = false ∧ crc32c s.sec.staged = chk ∧ s.sec.blowBarred = false
    (ok → Answers (.fuseBlowOwnerRoot true chk blown) s (fun t => t = { s with sec := t.sec } ∧
        t.sec = if blown then { s.sec with owner := true, ownerRoot := s.sec.staged, fcmd := 1, stage := [] }
          else { s.sec with blowBarred := true, fcmd := 3, stage := [] })) ∧
    (¬ ok → Answers (.fuseBlowOwnerRoot true chk blown) s (fun t => t = { s with sec := { s.sec with fcmd := 2, stage := [] } })) ∧
    exec (.fuseBlowOwnerRoot false chk blown) s = .next s) ∧
  (∀ (chk : Word32) (blown : Bool) (s : State), s.up = true →
    let ok : Prop := chk = 0 ∧ s.keel.dstate = .safe ∧ s.sec.owner = true ∧ (s.slot 0).signer ≠ some false ∧ s.sec.blowBarred = false
    (ok → Answers (.fuseDisableVendorRoot true chk blown) s (fun t => t = { s with sec := t.sec } ∧
        t.sec = if blown then { s.sec with voff := true, fcmd := 1, stage := [] }
          else { s.sec with blowBarred := true, fcmd := 3, stage := [] })) ∧
    (¬ ok → Answers (.fuseDisableVendorRoot true chk blown) s (fun t => t = { s with sec := { s.sec with fcmd := 2, stage := [] } })) ∧
    exec (.fuseDisableVendorRoot false chk blown) s = .next s))

/-- R50, R399, R408: a lost path is one until it restarts. The serial slave port loses its framing with its path, and its path
cannot restart while the reference is missing. At a restart each open channel whose path it is expects alive count 0, a
restart record of it goes out, and then again, in sequence order, each reply sent before that no RACK covers. R50, R479,
R480: what the serial slave port carries: a whole packet to the keel when it is ready, the oldest packet held for it to the
host, and nothing of a packet that the rise of SSP_CS_N cuts short, which loses the path. While it is lost, without the
reference, or in a transaction, none begins. When the port is ready and what loses it are the model's readings (log entry
81). -/
def Obligations.PathsAndSerialPort : Prop :=
  ((∀ (p : PathId) (s : State), s.boot.phase ≠ .held →
    Answers (.pathLoss p) s (fun t => p ∈ t.keel.lostPaths ∧ (∀ q, q ≠ p → (q ∈ t.keel.lostPaths ↔ q ∈ s.keel.lostPaths)) ∧
      t = { s with keel := { s.keel with lostPaths := t.keel.lostPaths }, ssp := t.ssp } ∧ (p ≠ .ssp → t.ssp = s.ssp) ∧
      (p = .ssp → t.ssp = { s.ssp with active := false, reading := false, complete := false, rx := [], driven := 0 }))) ∧
  (∀ (p : PathId) (s : State), s.boot.phase = .held → exec (.pathLoss p) s = .next s) ∧
  (∀ (p : PathId) (s : State), p ∈ s.keel.lostPaths → (p = .ssp → s.tim.refclk = true) → s.up = false →
    Answers (.pathRestart p) s (fun t => p ∉ t.keel.lostPaths ∧
      (∀ q, q ≠ p → (q ∈ t.keel.lostPaths ↔ q ∈ s.keel.lostPaths)) ∧
      t = { s with keel := { s.keel with lostPaths := t.keel.lostPaths } })) ∧
  (∀ (p : PathId) (s : State), p ∉ s.keel.lostPaths ∨ (p = .ssp ∧ s.tim.refclk = false) → exec (.pathRestart p) s = .next s) ∧
  (∀ (p : PathId) (s : State), p ∈ s.keel.lostPaths → (p = .ssp → s.tim.refclk = true) → s.up = true →
    Answers (.pathRestart p) s (fun t => p ∉ t.keel.lostPaths ∧
      (∀ q, q ≠ p → (q ∈ t.keel.lostPaths ↔ q ∈ s.keel.lostPaths)) ∧
      (∀ c, c ∈ s.pathChans p → (t.chan c).alivExp = 0) ∧
      (∀ c, c ∉ s.pathChans p → t.chan c = s.chan c) ∧ t.keel.ledger = s.keel.ledger ∧
      (∀ c, s.pathChans p = [c] → ∃ u v : State, u = ({ s with keel := { s.keel with lostPaths := t.keel.lostPaths } } : State).modChan c
          (fun y => { y with alivExp := 0 }) ∧
        v = u.emit 0x09 (s.chan c).world (BitVec.ofNat 64 c) ((s.chan c).next.setWidth 64)
          (packF [(0, 18, (s.chan c).heldE.toNat), (32, 20, (s.chan c).heldP.toNat)]) ∧
        ∃ es : List LgEntry, es.Pairwise (fun a b => a.seq.toNat < b.seq.toNat) ∧
          (∀ e ∈ es, ∃ j, (j, e) ∈ s.keel.ledger ∧ e.chan.toNat = c ∧ e.state = .complete ∧
            e.seq.toNat < (s.chan c).replyNext ∧ (s.chan c).racked ≤ e.seq.toNat) ∧
          (∀ x ∈ s.keel.ledger, x.2.chan.toNat = c → x.2.state = .complete → x.2.seq.toNat < (s.chan c).replyNext →
            (s.chan c).racked ≤ x.2.seq.toNat → ∃ e ∈ es, e.seq = x.2.seq) ∧
          t = es.foldl (fun w e => match e.reply with
            | some r => w.sendReply e r true
            | none => w) v) ∧
      t = { s with keel := t.keel, ssp := t.ssp, ser := t.ser }))) ∧
  ((∀ (bytes : List Byte) (s : State), s.sspUsable = true →
    (∀ p, s.sspReady = true → packetOfBytes bytes = some p →
      Answers (.sspWrite bytes) s (fun t => t.keel = { s.keel with arrived := s.keel.arrived ++ [(2, p)] } ∧
        t.ssp = { s.ssp with active := true, complete := true, drove := [1] } ∧ t = { s with keel := t.keel, ssp := t.ssp })) ∧
    (s.sspReady = true → packetOfBytes bytes = none →
      Answers (.sspWrite bytes) s (fun t => t = { s with ssp := { s.ssp with active := true, rx := bytes, drove := [1] } })) ∧
    (s.sspReady = false →
      Answers (.sspWrite bytes) s (fun t => t = { s with ssp := { s.ssp with active := true, drove := [0] } }))) ∧
  (∀ (n : Nat) (s : State), s.sspUsable = true →
    (∀ p rest, s.ssp.held = p :: rest →
      Answers (.sspRead n) s (fun t => t = { s with ssp := { s.ssp with
        active := true, reading := true, driven := min n p.bytes.length, drove := bytesOf 2 p.bytes.length ++ p.bytes.take n
        held := if p.bytes.length ≤ n then rest else p :: rest } })) ∧
    (s.ssp.held = [] → Answers (.sspRead n) s (fun t => t = { s with ssp := { s.ssp with
      active := true, reading := true, driven := 0, drove := [0, 0] } }))) ∧
  (∀ (bytes : List Byte) (n : Nat) (s : State), s.sspUsable = false →
    exec (.sspWrite bytes) s = .next s ∧ exec (.sspRead n) s = .next s) ∧
  (∀ s : State, s.sspUsable = true ↔
    (s.boot.phase = .ready ∧ s.tim.refclk = true ∧ .ssp ∉ s.keel.lostPaths ∧ s.ssp.active = false)) ∧
  (∀ s : State, s.ssp.active = true →
    let u : Ssp := { s.ssp with active := false, reading := false, complete := false, rx := [], driven := 0 }
    (s.ssp.reading = true ∨ s.ssp.complete = true ∨ s.ssp.rx = [] → exec .sspCsRise s = .next { s with ssp := u }) ∧
    (s.ssp.reading = false → s.ssp.complete = false → s.ssp.rx ≠ [] →
      Answers .sspCsRise s (fun t => .ssp ∈ t.keel.lostPaths ∧ (∀ q, q ≠ .ssp → (q ∈ t.keel.lostPaths ↔ q ∈ s.keel.lostPaths)) ∧
        t = { s with ssp := u, keel := { s.keel with lostPaths := t.keel.lostPaths } }))) ∧
  (∀ s : State, s.ssp.active = false → exec .sspCsRise s = .next s))

/-- R394, R445 to R448, R476: what the reset commands do to their units at once, besides leaving their mark: a tile loses its
tasks and its contents, a die those of its tiles and regions, a rim stops its lanes, positions and channels, a lane is off,
a spoke stops for its test, a region closes; one of the device begins a warm reset, which answers it. A task that a part
reset ends goes back into its start queue ahead of every later one, unless it was ending, and then it replies. A target that
does not exist gives PARAM. R21, R440, R445 to R447: when a unit's reset has completed, its command replies OK, record 0x18
goes out and the unit is in service again: a die in the tables, a lane acquiring on the entry it holds, a spoke by its wire
test, a region with its initial values if it was open, a rim with its ledger window, lanes and channels. One that does not
complete fails the unit where the part has a state for that. What a part reset that fails replies, and what a rim reset
keeps, are the model's readings (log entries 74, 75). -/
def Obligations.PartResets : Prop :=
  ((∀ (c : Fin 64) (s : State) (i : Nat) (e : LgEntry),
    ∀ x ∈ ([(.islResetTile c, 2, 191), (.islResetFieldDie c, 3, 15), (.islResetLane c, 5, 95), (.islResetSpoke c, 6, 33),
        (.islResetRegion c, 7, 127)] : List (Instr × Nat × Nat)),
      Running s c.val 0x28 i e → bits (s.pw i 0) 2 0 = x.2.1 →
      (s.rsvd i [(0, 7, 3), (0, 63, 16)] = true ∨ x.2.2 < bits (s.pw i 0) 15 8) → Refuses x.1 s i 0x12) ∧
  (∀ (c : Fin 64) (s : State) (i : Nat) (e : LgEntry), Running s c.val 0x28 i e → bits (s.pw i 0) 2 0 = 4 → s.mem.resps = [] →
    (s.rsvd i [(0, 7, 3), (0, 63, 16)] = true ∨ 1 < bits (s.pw i 0) 15 8) → Refuses (.islResetRim c) s i 0x12) ∧
  (∀ (c : Fin 64) (s : State) (i : Nat) (e : LgEntry), Running s c.val 0x28 i e →
    (bits (s.pw i 0) 2 0 = 0 ∨ (bits (s.pw i 0) 2 0 = 1 ∧ s.rsvd i [(0, 63, 3)] = true) → Refuses (.islResetWarm c) s i 0x12) ∧
    (bits (s.pw i 0) 2 0 = 1 → s.rsvd i [(0, 63, 3)] = false →
      (s.boot.phase = .ready →
        Answers (.islResetWarm c) s (fun t => t.boot.phase = .warm ∧ t.boot.warmCmds = s.boot.warmCmds ++ [i] ∧
          t.keel.resetMark = some (e.markOf 0x00) ∧ t.keel.warms = satInc s.keel.warms ∧ t.startQ = [] ∧ t.msgs = [] ∧
          ∀ p, TileCleared t p)) ∧
      (s.boot.phase = .warm →
        Answers (.islResetWarm c) s (fun t => t = { s with
          boot := { s.boot with warmCmds := s.boot.warmCmds ++ [i] }
          keel := { s.keel with current := none, resetMark := some (e.markOf 0x00) } })))) ∧
  (∀ (c : Fin 64) (s : State) (i n : Nat) (e : LgEntry), ResetOf s c.val i 2 n e → n ≤ 191 →
    Answers (.islResetTile c) s (fun t => ResetEntered s t i 2 n e ∧
      (∀ j p, j < 4 → s.placed (4 * n + j) = some p → TileCleared t p) ∧
      (∀ q, (∀ j, j < 4 → s.placed (4 * n + j) ≠ some q) → t.tile q = s.tile q) ∧
      t.mem.cells = s.mem.cells ∧ t.keel.dstate = s.keel.dstate ∧ t.web = s.web ∧ t.ser = s.ser)) ∧
  (∀ (s : State) (p c : Nat) (k : Task), c < 2 → (s.ctx p c).task = some k →
    let x := s.ctx p c
    (x.ending = none → x.cancelAsked = false →
      ((s.resetCtx p c true).ctx p c).task = none ∧ (s.resetCtx p c true).keel.ledger = s.keel.ledger ∧
      (∃ a b, tget [] (s.resetCtx p c true).startQ k.logical = a ++ { k with past := x.det0 p } :: b ∧
        tget [] s.startQ k.logical = a ++ b ∧ (∀ j ∈ a, j.num ≤ k.num) ∧ ∀ j, b.head? = some j → k.num < j.num) ∧
      ∀ l, l ≠ k.logical → tget [] (s.resetCtx p c true).startQ l = tget [] s.startQ l) ∧
    (x.ending.isSome ∨ x.cancelAsked = true → ∀ e, s.entry k.entry = some e → e.state ≠ .complete →
      ((s.resetCtx p c true).ctx p c).task = none ∧ (s.resetCtx p c true).startQ = s.startQ ∧
      RepliedWith (s.resetCtx p c true) k.entry {
        status := ({ x with ending := some (x.ending.getD .cancel) } : CtxSt).status, det0 := x.det0 p
        det1 := k.tag.setWidth 64 })) ∧
  (∀ (c : Fin 64) (s : State) (i n : Nat) (e : LgEntry), ResetOf s c.val i 3 n e → n ≤ 15 →
    ((s.dieState n).toNat < 2 →
      Answers (.islResetFieldDie c) s (fun t => ResetEntered s t i 3 n e ∧ t.dieState n = 1 ∧
        (∀ p, p / 52 = n → TileCleared t p) ∧
        (∀ p, p / 52 ≠ n → (∀ b a, (t.tile p).rd b a = (s.tile p).rd b a) ∧ ∀ a, (t.tile p).acc_rd a = (s.tile p).acc_rd a) ∧
        (∀ r, r / 8 = n → (t.region r).state = 1 ∧ (t.region r).empty = true ∧ (t.region r).frames = []) ∧
        (∀ m, m ≠ n → t.dieState m = s.dieState m) ∧ (tget ({} : PaceWord) t.tim.pace n).valid = false ∧
        (tget ({} : TempWord) t.tim.temps n).valid = false ∧ (t.weevil n).region = 0 ∧ (t.weevil n).pos = 0 ∧
        (∀ k, k ∈ spokesOf n → SideLike t (2 * k) (s.side (2 * k)).stopped ∧
          SideLike t (2 * k + 1) (s.side (2 * k + 1)).stopped) ∧
        (∀ k, k ∉ spokesOf n → SideLike t (2 * k) (s.side (2 * k)) ∧ SideLike t (2 * k + 1) (s.side (2 * k + 1))) ∧
        ∃ j, t.flt.swaps = s.flt.swaps ++ [j] ∧ j.dieTab = true ∧ n ∈ j.bg.dies)) ∧
    (2 ≤ (s.dieState n).toNat → Answers (.islResetFieldDie c) s (fun t => ResetEntered s t i 3 n e ∧
      t = { s with keel := { s.keel with current := none, resetMark := t.keel.resetMark }, flt := { s.flt with
        resets := t.flt.resets } }))) ∧
  (∀ (c : Fin 64) (s : State) (i m : Nat) (e : LgEntry), ResetOf s c.val i 4 m e → m ≤ 1 →
    Answers (.islResetRim c) s (fun t => ResetEntered s t i 4 m e ∧
      t.keel.mirror = s.keel.mirror &&& (if m = 0 then 2 else 1) ∧ (∀ l, l / 48 = m → (t.lane l).state = 0) ∧
      (∀ l, (t.lane l).cfg = (s.lane l).cfg ∧ (t.lane l).eq0 = (s.lane l).eq0) ∧
      (∀ k, k < 4 → (t.odo k).pos m = 0 ∧ (t.odo k).pre m = none ∧ (t.odo k).pos (1 - m) = (s.odo k).pos (1 - m)) ∧
      (∀ x ∈ t.web.acts, x.2.rim ≠ m) ∧ (∀ ch, ch / 40 = m → (t.mchan ch).sref = true) ∧
      (tget ({} : TempWord) t.tim.temps (16 + m)).valid = false ∧
      ∀ k, k ∈ spokesOf (16 + m) → (t.side (2 * k)).state = (s.side (2 * k)).stopped.state ∧
        (t.side (2 * k + 1)).state = (s.side (2 * k + 1)).stopped.state ∧
        (((t.side (2 * k)).state = 1 ∧ (s.side (2 * k)).state = 0) → (t.side (2 * k)).onWire = false ∧
          (t.side (2 * k)).ackDue = false))) ∧
  (∀ (c : Fin 64) (s : State) (i l : Nat) (e : LgEntry), ResetOf s c.val i 5 l e → l ≤ 95 →
    Answers (.islResetLane c) s (fun t => ResetEntered s t i 5 l e ∧ (t.lane l).state = 0 ∧ (t.lane l).cfg = (s.lane l).cfg ∧
      (t.lane l).eq0 = (s.lane l).eq0 ∧ (t.lane l).cdr = false ∧ (t.lane l).block = false ∧ (t.lane l).tx = [] ∧
      (t.lane l).held = [])) ∧
  (∀ (c : Fin 64) (s : State) (i k : Nat) (e : LgEntry), ResetOf s c.val i 6 k e → k ≤ 33 →
    Answers (.islResetSpoke c) s (fun t => ResetEntered s t i 6 k e ∧ t.side (2 * k) = (s.side (2 * k)).stopped ∧
      t.side (2 * k + 1) = (s.side (2 * k + 1)).stopped ∧ (∀ d, d / 2 ≠ k → t.side d = s.side d) ∧
      t = { s with spk := t.spk, keel := { s.keel with current := none, resetMark := t.keel.resetMark }
                   flt := { s.flt with resets := t.flt.resets } })) ∧
  (∀ (c : Fin 64) (s : State) (i r : Nat) (e : LgEntry), ResetOf s c.val i 7 r e → r ≤ 127 →
    ((s.region r).isOpen = true →
      Answers (.islResetRegion c) s (fun t => ResetEntered s t i 7 r e ∧ (t.region r).state = 3 ∧
        (t.region r).closing = some .reset ∧ (t.region r).reopen = true ∧ (t.region r).frames = (s.region r).frames ∧
        ((s.weevil (r / 8)).region.toNat = r % 8 → (t.weevil (r / 8)).pos = 0) ∧ ∀ q, q ≠ r → t.region q = s.region q)) ∧
    ((s.region r).isOpen = false → (s.region r).closing ≠ some .load →
      Answers (.islResetRegion c) s (fun t => ResetEntered s t i 7 r e ∧
        t.region r = { s.region r with state := 3, closing := (s.region r).closing.map (fun _ => .reset) } ∧
        (∀ q, q ≠ r → t.region q = s.region q) ∧
        ∀ n e', (s.region r).closing = some (.command n) → s.entry n = some e' → e'.state ≠ .complete →
          RepliedWith t n { status := 0x00 })) ∧
    (∀ j, (s.region r).isOpen = false → (s.region r).closing = some .load → s.ldr.job = some j → j.at_ = r →
      Answers (.islResetRegion c) s (fun t => ResetEntered s t i 7 r e ∧ (t.region r).state = 3 ∧
        (t.region r).closing = some .reset ∧ (t.region r).empty = true ∧ (t.region r).frames = [] ∧ t.ldr.job = none ∧
        t.ldr.waiting = j.entry :: s.ldr.waiting ∧ ∀ q, q ≠ r → t.region q = s.region q)))) ∧
  ((∀ (u : ResetUnit) (wires : List (SpokeDir × WireTest)) (s : State), s.mem.resps = [] → s.resetting u = false →
    exec (.partResetComplete u wires) s = .next s ∧ ∀ stuck, exec (.partResetTimeout u stuck) s = .next s) ∧
  (∀ (u : ResetUnit) (s : State) (i : Nat) (e : LgEntry),
    s.flt.resets = [{ kind := (unitCode u).1, target := (unitCode u).2, entry := some i }] → s.entry i = some e →
    e.state ≠ .complete → SpokesSound s → s.mem.resps = [] →
    (∀ r, u = .region r → (s.region r.val).closing = none) →
    Answers (.partResetComplete u []) s (fun t => t.flt.resets = [] ∧ RepliedWith t i { status := 0x00 } ∧
      (∃ v : State, LastEmitted v 0x18 (packF [(0, 3, (unitCode u).1), (8, 8, (unitCode u).2)]) 0 ∧
        v.keel.events <+: t.keel.events) ∧
      (∀ n, u = .die n → s.dieState n.val = 1 → t.dieState n.val = 0 ∧
        ∃ j, t.flt.swaps = s.flt.swaps ++ [j] ∧ j.dieTab = true ∧ n.val ∉ j.bg.dies) ∧
      (∀ l, u = .lane l → (s.lane l.val).en = true → (s.lane l.val).eqsrc = false → (t.lane l.val).state = 1) ∧
      (∀ l, u = .lane l → (s.lane l.val).en = false → t.lane l.val = s.lane l.val) ∧
      (∀ k, u = .spoke k → (s.side (2 * k.val)).state = 1 → (s.side (2 * k.val + 1)).state = 1 →
        t.side (2 * k.val) = { s.side (2 * k.val) with state := 0, segMask := 0, onWire := (s.side (2 * k.val)).held.isSome } ∧
        t.side (2 * k.val + 1) =
          { s.side (2 * k.val + 1) with state := 0, segMask := 0, onWire := (s.side (2 * k.val + 1)).held.isSome }) ∧
      (∀ r, u = .region r → (s.region r.val).state = 3 → (s.region r.val).reopen = true → (t.region r.val).isOpen = true ∧
        (t.region r.val).frames = (s.region r.val).frames ∧ (t.region r.val).se = []) ∧
      (∀ r, u = .region r → (s.region r.val).state = 3 → (s.region r.val).reopen = false → (t.region r.val).state = 1) ∧
      (∀ m, u = .rim m → t.keel.mirror = s.keel.mirror ||| (if m = 0 then 1 else 2) ∧
        ∀ ch, ch / 40 = m.val → (t.mchan ch).sref = false))) ∧
  (∀ (k : Fin 34) (wires : List (SpokeDir × WireTest)) (s : State) (i : Nat) (e : LgEntry),
    s.flt.resets = [{ kind := 6, target := k.val, entry := some i }] → s.entry i = some e → e.state ≠ .complete →
    s.mem.resps = [] → (s.side (2 * k.val)).state = 1 →
    (∀ n, n < 16 → ∃ j ∈ spokesOf n, j ≠ k.val ∧ (s.side (2 * j)).state ≠ 2) →
    let a := wireOf wires (2 * k.val)
    let b := wireOf wires (2 * k.val + 1)
    let fails : Prop := wireFails (2 * k.val) a = true ∨ wireFails (2 * k.val + 1) b = true
    Answers (.partResetComplete (.spoke k) wires) s (fun t => t.flt.resets = [] ∧ RepliedWith t i { status := 0x00 } ∧
      (t.side (2 * k.val)).state = (if fails then 2 else 0) ∧
      (t.side (2 * k.val)).segMask = wireMask (2 * k.val) a ∧
      (t.side (2 * k.val + 1)).segMask = wireMask (2 * k.val + 1) b ∧ (∀ d, d / 2 ≠ k.val → t.side d = s.side d) ∧
      (fails → (t.side (2 * k.val + 1)).state = 2 ∧ ∃ j, t.flt.swaps = s.flt.swaps ++ [j] ∧ k.val ∈ j.bg.spokes))) ∧
  (∀ (u : ResetUnit) (stuck : List (Fin 4)) (s : State) (i : Nat) (e : LgEntry),
    s.flt.resets = [{ kind := (unitCode u).1, target := (unitCode u).2, entry := some i }] → s.entry i = some e →
    e.state ≠ .complete → SpokesSound s → s.flt.swapped = [] →
    (∀ p c k, (s.ctx p c).task = some k → k.entry ≠ i) →
    Answers (.partResetTimeout u stuck) s (fun t => t.flt.resets = [] ∧ RepliedWith t i { status := 0x00 } ∧
      LastEmitted t 0x18 (packF [(0, 3, (unitCode u).1), (8, 8, (unitCode u).2)]) 1 ∧
      (∀ n j p, u = .tile n → j ∈ stuck → s.placed (4 * n.val + j.val) = some p → (s.ptile p).state = .active →
        ∃ r ∈ t.flt.retire, r.ptile = p) ∧
      (∀ n, u = .die n → (s.dieState n.val).toNat < 2 → t.dieState n.val = 2) ∧
      (∀ l, u = .lane l → (t.lane l.val).state = 3) ∧
      (∀ k, u = .spoke k → (t.side (2 * k.val)).state = 2 ∧ (t.side (2 * k.val + 1)).state = 2) ∧
      (∀ r, u = .region r → (s.region r.val).state = 3 → (t.region r.val).state = 1 ∧ (t.region r.val).reopen = false))))

/-- R428, R432, R433: the first retired tile is replaced, once both its contexts are idle and no other substitution is under
way, by the lowest spare of its die, whose contents are cleared; with no spare its logical tile loses its placement. Until
then nothing happens. R427, R433, R434, R436, R440, R441: each holder swaps to the first change once; when the last has, the
new tables are in force and their generation has advanced. A placement is in effect with its record; a tile with no spare is
retired with its record, and each task waiting for it replies FAULT_ABORT; an isolated die and its tiles are. A hold ends
with its ejection report, once no such token is under way; a die that does not answer is taken out of the tables. R402,
R443, R460: a standby pair that is ready takes over: every task ends, packets being accepted are dropped, the entries that
are not complete are to start again in their order, each open channel expects alive count 0, and record 0x17 goes out;
memory and the device state stay. With none ready nothing happens. A standby pair under test becomes ready, or retired. The
holds, the failover and the cause 3 are the model's readings (log entries 69, 72, 91). -/
def Obligations.RecoveryMachinery : Prop :=
  ((∀ (s : State) (r : Retirement) (rest : List Retirement), s.flt.retire = r :: rest →
    let idle : Prop := s.up = true ∧ s.placing = false ∧ (s.ctx r.ptile 0).task = none ∧ (s.ctx r.ptile 1).task = none
    let l := (s.ptile r.ptile).logical
    (idle → ∀ k ks, s.spares (r.ptile / 52) = k :: ks →
      Answers .spareSubstitution s (fun t =>
        t.flt.swaps = s.flt.swaps ++ [{
          bg := { s.lastRoutes with tile := tput l k s.lastRoutes.tile }, tileTab := true, dieTab := false
          why := .placement l r.ptile k r.code }] ∧
        (∀ b a, (t.tile (52 * (r.ptile / 52) + k)).rd b a = 0) ∧ (∀ n, (t.tile (52 * (r.ptile / 52) + k)).acc_rd n = 0) ∧
        (∀ q, q ≠ 52 * (r.ptile / 52) + k → t.tile q = s.tile q) ∧
        t = { s with tiles := t.tiles, flt := { s.flt with swaps := t.flt.swaps } })) ∧
    (idle → s.spares (r.ptile / 52) = [] →
      Answers .spareSubstitution s (fun t => t = { s with flt := { s.flt with swaps := s.flt.swaps ++ [{
          bg := { s.lastRoutes with tile := tdel l s.lastRoutes.tile }, tileTab := true, dieTab := false
          why := .noSpare l r.ptile r.code }] } })) ∧
    (¬ idle → exec .spareSubstitution s = .next s)) ∧
  (∀ s : State, s.flt.retire = [] → exec .spareSubstitution s = .next s)) ∧
  ((∀ (h : Fin 19) (s : State) (j : SwapJob) (rest : List SwapJob), s.flt.swaps = j :: rest → h.val ∉ s.flt.swapped →
    h.val ∈ s.holders → Still s →
    let last : Prop := ∀ x ∈ s.holders, x ≠ h.val → x ∈ s.flt.swapped
    (¬ last →
      Answers (.routeTableSwap h) s (fun t => t.flt.swapped = h.val :: s.flt.swapped ∧ t.flt.swaps = s.flt.swaps ∧
        t.routesOf h.val = j.bg ∧ t = { s with flt := { s.flt with swapped := t.flt.swapped, holds := t.flt.holds } } ∧
        ∀ d, d < 19 → j.dieTab = true → (∃ sp, sp < 4 ∧ s.flt.routes.next h.val d sp ≠ j.bg.next h.val d sp) →
          (h.val, d) ∈ t.flt.holds)) ∧
    (last →
      Answers (.routeTableSwap h) s (fun t => t.flt.swaps = rest ∧ t.flt.swapped = [] ∧ t.flt.routes = j.bg ∧
        t.flt.tgen = (if j.tileTab then s.flt.tgen + 1 else s.flt.tgen) ∧
        t.flt.dgen = (if j.dieTab then s.flt.dgen + 1 else s.flt.dgen) ∧
        (∀ l p k code, j.why = .placement l p k code → p ≠ 52 * (p / 52) + k →
          (t.ptile p).state = .retired ∧ (t.ptile (52 * (p / 52) + k)).state = .active ∧
          (t.ptile (52 * (p / 52) + k)).logical = l ∧ (∀ r ∈ t.flt.retire, r.ptile ≠ p) ∧
          LastEmitted t 0x10 (packF [(0, 10, l), (10, 4, p / 52), (14, 6, p % 52), (20, 6, k)]) (code.setWidth 64)) ∧
        (∀ l p code, j.why = .noSpare l p code → (t.ptile p).state = .retired ∧ tget [] t.startQ l = [] ∧
          LastEmitted t 0x11 (packF [(0, 10, l), (10, 4, p / 52), (14, 6, p % 52), (20, 6, 0x3F)]) (code.setWidth 64) ∧
          ∀ k ∈ tget [] s.startQ l, ∀ e, s.entry k.entry = some e → e.state ≠ .complete →
            ∃ e', t.entry k.entry = some e' ∧ e'.state = .complete ∧ ∃ r, e'.reply = some r ∧ r.status = 0x31) ∧
        (∀ n, j.why = .isolation n → n < 16 → t.dieState n = 3 ∧ (∀ k, k < 52 → (t.ptile (52 * n + k)).state = .isolated) ∧
          ∀ k, k ∈ spokesOf n → (t.side (2 * k)).state = 3 ∧ (t.side (2 * k + 1)).state = 3)))) ∧
  (∀ (h : Fin 19) (s : State), s.mem.resps = [] → (s.flt.swaps = [] ∨ h.val ∈ s.flt.swapped ∨ h.val ∉ s.holders) →
    exec (.routeTableSwap h) s = .next s) ∧
  (∀ (h d : Fin 19) (s : State), s.mem.resps = [] →
    ((h.val, d.val) ∈ s.flt.holds → s.underWay h.val d.val = false → Still s →
      Answers (.ejectionReport h d) s (fun t => (h.val, d.val) ∉ t.flt.holds ∧
        (∀ x, x ≠ (h.val, d.val) → (x ∈ t.flt.holds ↔ x ∈ s.flt.holds)) ∧
        t = { s with flt := { s.flt with holds := t.flt.holds } })) ∧
    ((h.val, d.val) ∉ s.flt.holds ∨ s.underWay h.val d.val = true → exec (.ejectionReport h d) s = .next s)) ∧
  (∀ (n : Fin 16) (router : Bool) (s : State),
    (s.up = true → (s.dieState n.val).toNat < 2 → s.flt.swaps = [] → s.flt.swapped = [] →
      Answers (.dieControlTimeout n router) s (fun t =>
        tget ({} : FieldDie) t.flt.dies n.val = { state := 2, cause := if router then 3 else 2 } ∧
        (∀ m, m ≠ n.val → t.dieState m = s.dieState m) ∧
        ∃ j, t.flt.swaps.getLast? = some j ∧ j.why = .isolation n.val ∧ n.val ∈ j.bg.dies ∧
          (∀ l k, tlook l j.bg.tile = some k → l / 48 ≠ n.val) ∧
          ∀ p c, p / 52 = n.val → c < 2 → (t.ctx p c).task = none)) ∧
    (s.up = false ∨ 2 ≤ (s.dieState n.val).toNat → exec (.dieControlTimeout n router) s = .next s))) ∧
  ((∀ (cause : FailoverCause) (bad : List (Nat × BitVec 3)) (s : State),
    (s.up = true → s.flt.standby = 0 →
      Answers (.tandemFailover cause bad) s (fun t =>
        let code : Nat := match cause with
          | .mismatch => 1
          | .memory => 2
          | .watchdog => 3
        t.flt.pair = !s.flt.pair ∧ t.flt.standby = 1 ∧ t.flt.fcause.toNat = code ∧ t.flt.failovers = satInc s.flt.failovers ∧
        LastEmitted t 0x17 (packF [(0, 1, b2n (!s.flt.pair)), (1, 3, code)]) 1 ∧ t.keel.current = none ∧
        t.keel.accepting = [] ∧ t.startQ = [] ∧ (∀ p c, c < 2 → (t.ctx p c).task = none) ∧ t.mem.cells = s.mem.cells ∧
        t.keel.dstate = s.keel.dstate ∧ t.keel.replayQ = t.replayOrder ∧ t.keel.rebuilt = t.keel.ledger.map (·.1) ∧
        (∀ c, (s.chan c).isOpen = true → (t.chan c).alivExp = 0))) ∧
    (s.up = false ∨ s.flt.standby ≠ 0 → exec (.tandemFailover cause bad) s = .next s)) ∧
  (∀ s : State, Rising s.keel.ledger →
    (∀ i, i ∈ s.replayOrder ↔ ∃ e, s.entry i = some e ∧ e.state ≠ .complete) ∧
    s.replayOrder.Pairwise (fun i j => ∀ e f, s.entry i = some e → s.entry j = some f →
      (s.keel.order - f.order).toNat ≤ (s.keel.order - e.order).toNat)) ∧
  (∀ s : State, exec .tandemWatchdog s = exec (.tandemFailover .watchdog []) s) ∧
  (∀ s : State, s.up = true → s.flt.standby = 0 → Answers .tandemWatchdog s (fun t => t.flt.pair = !s.flt.pair ∧
    t.flt.standby = 1 ∧ t.flt.fcause = 3 ∧ t.keel.dstate = s.keel.dstate)) ∧
  (∀ (pass : Bool) (s : State),
    (s.flt.standby = 1 → s.boot.phase ≠ .held →
      Answers (.standbySelfTest pass) s (fun t => t = { s with flt := { s.flt with standby := if pass then 0 else 2 } })) ∧
    (s.flt.standby ≠ 1 ∨ s.boot.phase = .held → exec (.standbySelfTest pass) s = .next s)))

/-- R56, R417, R447, R453, R486: a cold reset from any state leaves the block held with an empty ledger, Sealed, no listed
memory and no task, and keeps its fuses; the supply monitor holds it there until the supply is back, and does nothing from
480 mV on. R18, R21, R379, R405, R421, R428, R453, R454, R463: start-up in its steps. The release takes the rate, the
follower's role and the next epoch, with the first bit of three that reads back, and tests the spokes. With every channel
trained each logical tile stands, in order, on the tiles of its die that passed, and the rest are spares. Then the lead
opens channels 0 and 63 in Sealed, and a follower both through Vorot with its lanes enabled. Each step comes in its phase
alone; a warm reset asked for meanwhile begins once the channels are open. R306, R387, R401, R402, R447, R456, R476: a warm
reset ends every task, clears every tile and stops the channels in self-refresh; its release retests the spokes, puts a
device that was Running in Freewheel, frees an entry whose three copies are bad, and the keel takes packets again with the
entries that are not complete to start again. A warm reset asked for before Sealed waits for it; one that meets another
joins it. What a cold reset keeps and which records start-up emits are the model's readings (log entries 79, 80). -/
def Obligations.ResetsAndStartUp : Prop :=
  (∀ s : State,
    let Cold (t : State) : Prop :=
      t.boot = {} ∧ t.spk = {} ∧ t.flt = {} ∧ t.web = {} ∧ t.ctrs = {} ∧ t.ldr = {} ∧ t.ssp = {} ∧ t.tiles = [] ∧ t.startQ = [] ∧
      t.msgs = [] ∧ t.weevils = [] ∧ t.keel = { out := s.keel.out, lostPaths := s.keel.lostPaths } ∧
      t.mem = { raaimt := s.mem.raaimt } ∧ t.ser = { lrefMissing := s.ser.lrefMissing } ∧ t.fab.regions = [] ∧ t.fab.ffsel = [] ∧
      t.fab.ffland = [] ∧ (∀ i, (t.pin i).cfg = ({} : Pin).cfg) ∧
      t.sec = { epUsed := s.sec.epUsed, owner := s.sec.owner, ownerRoot := s.sec.ownerRoot, voff := s.sec.voff } ∧
      t.pending = s.pending ∧ t.hPart = s.hPart ∧ t.xPart = s.xPart ∧ t.tim.vddf = s.tim.vddf ∧ t.tim.refclk = s.tim.refclk ∧
      t.tim.pace = [] ∧ t.tim.temps = [] ∧ t.tim.floor = 0 ∧ t.tim.thermTrip = false
    Answers .coldReset s (fun t => Cold t ∧ t.tim.supplyHold = s.tim.supplyHold) ∧
    (s.tim.vddf < 480 → Answers .supplyMonitorColdReset s (fun t => Cold t ∧ t.tim.supplyHold = true)) ∧
    (480 ≤ s.tim.vddf → exec .supplyMonitorColdReset s = .next s)) ∧
  ((∀ (env : BootEnv) (s : State),
    (s.boot.phase = .held → s.tim.supplyHold = false →
      Answers (.coldResetRelease env) s (fun t => t.boot.phase = .training ∧
        t.boot.rate = (if env.memrate = 3 then 2 else env.memrate) ∧ t.boot.leadsel = env.leadselHigh ∧
        t.boot.follower = (!s.hPart || env.leadselHigh) ∧ t.keel = s.keel ∧ t.mem = s.mem ∧ t.tiles = s.tiles ∧
        (∀ j, j < 3 → s.sec.epUsed.toNat + j < 4096 → env.blows.getD j false = true →
          (∀ i, i < j → env.blows.getD i false = false) → t.sec.epv = true ∧
          t.sec.epoch.toNat = s.sec.epUsed.toNat + j ∧ t.sec.epUsed.toNat = s.sec.epUsed.toNat + j + 1) ∧
        ((∀ j, j < 3 → env.blows.getD j false = false ∨ 4096 ≤ s.sec.epUsed.toNat + j) →
          t.sec.epv = false ∧ t.sec.epUsed = s.sec.epUsed) ∧
        (∀ k, k < 34 →
          let fails := wireFails (2 * k) (wireOf env.wires (2 * k)) || wireFails (2 * k + 1) (wireOf env.wires (2 * k + 1))
          t.side (2 * k) = { state := if fails then 2 else 0, segMask := wireMask (2 * k) (wireOf env.wires (2 * k)) } ∧
          t.side (2 * k + 1) = { state := if fails then 2 else 0, segMask := wireMask (2 * k + 1) (wireOf env.wires (2 * k + 1)) }) ∧
        (∀ p : Fin 832, (t.ptile p.val).selftest = decide (p ∈ env.tileFails)))) ∧
    (s.boot.phase ≠ .held ∨ s.tim.supplyHold = true → exec (.coldResetRelease env) s = .next s)) ∧
  (∀ s : State,
    (s.boot.phase = .training → (∀ ch, ch < 80 → ch ∈ s.boot.trained) → SpokesSound s → s.flt.swaps = [] →
      let passed (n j : Nat) : Nat := ((List.range j).filter (fun k => !(s.ptile (52 * n + k)).selftest)).length
      Answers .tilePlacement s (fun t => t.boot.phase = .placed ∧
        (∀ n j, n < 16 → j < 52 →
          ((s.ptile (52 * n + j)).selftest = true → (t.ptile (52 * n + j)).state = .retired) ∧
          ((s.ptile (52 * n + j)).selftest = false → 48 ≤ passed n j → (t.ptile (52 * n + j)).state = .spare) ∧
          ((s.ptile (52 * n + j)).selftest = false → passed n j < 48 → (t.ptile (52 * n + j)).state = .active ∧
            (t.ptile (52 * n + j)).logical = 48 * n + passed n j ∧ t.placed (48 * n + passed n j) = some (52 * n + j))) ∧
        t = { s with boot := t.boot, flt := t.flt })) ∧
    (s.boot.phase ≠ .training ∨ (∃ ch, ch < 80 ∧ ch ∉ s.boot.trained) → exec .tilePlacement s = .next s)) ∧
  (∀ s : State,
    (s.boot.phase = .placed → s.boot.warmAsked = false →
      Answers .sealedEntry s (fun t => t.boot.phase = .ready ∧ t.keel.mirror = 3 ∧ t.keel.ledger = [] ∧
        t.keel.dstate = s.keel.dstate ∧ t.keel.evPath = (if s.boot.follower then 3 else 0) ∧
        (∀ c, (t.chan c).isOpen = true ↔ c = 0 ∨ c = 63) ∧ (t.chan 0).world = true ∧ (t.chan 63).world = true ∧
        (t.chan 0).path = (if s.boot.follower then 3 else 0) ∧ (t.chan 63).path = 2 ∧ (t.chan 0).quotaE = 4096 ∧
        (t.chan 0).quotaP = 16384 ∧ (t.chan 63).quotaE = 256 ∧ (t.chan 63).quotaP = 1024 ∧ (t.chan 0).heldE = 4096 ∧
        (t.chan 0).heldP = 16384 ∧ (t.chan 63).heldE = 256 ∧ (t.chan 63).heldP = 1024 ∧
        (s.boot.follower = false → t = { s with boot := t.boot, keel := t.keel }) ∧
        (s.boot.follower = true → (∀ l, l < 96 → (s.lane l).en = false) → ∀ l, l < 96 → (t.lane l).en = true ∧ (t.lane l).mode = 2 ∧ (t.lane l).rate = 1))) ∧
    (s.boot.phase = .placed → s.boot.warmAsked = true →
      Answers .sealedEntry s (fun t => t.boot.phase = .warm ∧ t.boot.warmAsked = false ∧ t.keel.warms = satInc s.keel.warms ∧
        t.keel.mirror = 3 ∧ t.keel.ledger = [] ∧ (∀ c, (t.chan c).isOpen = true ↔ c = 0 ∨ c = 63) ∧
        (∀ p, TileCleared t p) ∧ ∀ ch, ch < 80 → (t.mchan ch).sref = true)) ∧
    (s.boot.phase ≠ .placed → exec .sealedEntry s = .next s))) ∧
  ((∀ s : State, s.boot.phase = .ready →
    Answers .warmReset s (fun t => t.boot.phase = .warm ∧ t.keel.warms = satInc s.keel.warms ∧ t.startQ = [] ∧ t.msgs = [] ∧
      (∀ p, TileCleared t p) ∧ t.keel.dstate = s.keel.dstate ∧ t.mem.net = [] ∧ t.mem.pend = [] ∧ t.mem.copies = [] ∧
      t.keel.accepting = [] ∧ t.keel.arrived = [] ∧ (∀ ch, ch < 80 → (t.mchan ch).sref = true) ∧
      (∀ d, (t.side d).held = none ∧ (t.side d).onWire = false ∧ (t.side d).rx0 = [] ∧ (t.side d).rx1 = []) ∧
      t.flt.resets = [] ∧ ∀ n, (t.weevil n).master = (s.weevil n).master ∧ (t.weevil n).pos = 0)) ∧
  (∀ s : State, (s.boot.phase = .placed ∨ s.boot.phase = .training) →
    exec .warmReset s = .next { s with boot := { s.boot with warmAsked := true } }) ∧
  (∀ s : State, (s.boot.phase = .warm ∨ s.boot.phase = .held) → exec .warmReset s = .next s) ∧
  (∀ (bad : List (Nat × BitVec 3)) (s : State), s.boot.phase = .warm → SpokesSound s →
    Answers (.warmResetRelease bad []) s (fun t => t.boot.phase = .ready ∧
      t.keel.dstate = (if s.keel.dstate = .running then .freewheel else s.keel.dstate) ∧
      t.flt.standby = (if s.flt.standby = 2 then 2 else 1) ∧ t.keel.current = none ∧ t.keel.replayQ = t.replayOrder ∧
      t.keel.rebuilt = t.keel.ledger.map (·.1) ∧ (∀ c, (s.chan c).isOpen = true → (t.chan c).alivExp = 0) ∧
      (∀ i, i < 131072 → (i, (7 : BitVec 3)) ∈ bad → t.entry i = none) ∧
      (∀ i, (∀ x ∈ bad, x.1 = i → x.2 ≠ 7) → t.entry i = s.entry i) ∧
      (∀ d, (s.side d).state = 1 → (s.side (2 * (d / 2))).state ≠ 3 → d < 68 → (t.side d).state = 0) ∧ ∀ ch, ch < 80 → (t.mchan ch).sref = false)) ∧
  (∀ (bad : List (Nat × BitVec 3)) (wires : List (SpokeDir × WireTest)) (s : State), s.boot.phase ≠ .warm → s.mem.resps = [] →
    exec (.warmResetRelease bad wires) s = .next s))

/-- R9, R47, R248, R250, R275, R305, R400, R419, R431: a register write by the non-secure world, while the block is not up, or
below the windows of registers, changes nothing; one by the secure world sets the fields of its word, and a reserved value
leaves its field. A word with a command of its own is written as by that command. That registers can be written only while
the block is up is the model's choice (log entry 57). -/
def Obligations.RegisterWrites : Prop :=
  ∀ (v : Word) (s : State),
    (∀ a, exec (.registerWrite false a v) s = .next s) ∧
    (s.up = false → ∀ w a, exec (.registerWrite w a v) s = .next s) ∧
    (∀ a : BitVec 40, (a.toNat < 0xFC00000000 ∨ a.toNat % 8 ≠ 0 ∨ 0xFC41000000 ≤ a.toNat) →
      exec (.registerWrite true a v) s = .next s) ∧
    (s.up = true →
      Answers (.registerWrite true 0xFC00020088 v) s (fun t => t = { s with tim := { s.tim with
        floor := BitVec.ofNat 16 (bits v 15 0), clrReq := s.tim.clrReq || bit v 16 } }) ∧
      Answers (.registerWrite true 0xFC000D4088 v) s (fun t => t = { s with flt := { s.flt with
        tlim := if bits v 3 0 = 0 then s.flt.tlim else BitVec.ofNat 4 (bits v 3 0) } }) ∧
      Answers (.registerWrite true 0xFC000F1010 v) s (fun t => t = { s with keel := { s.keel with
        evPath := BitVec.ofNat 2 (bits v 1 0) } }) ∧
      (∀ m : Fin 2, Answers (.registerWrite true (0xFC00071400 + 8 * BitVec.ofNat 40 m.val) v) s (fun t =>
        t = { s with mem := { s.mem with mctl := t.mem.mctl } } ∧
        tget ({} : Mctl) t.mem.mctl m.val = (tget ({} : Mctl) s.mem.mctl m.val).merge v ∧
        tget ({} : Mctl) t.mem.mctl (1 - m.val) = tget ({} : Mctl) s.mem.mctl (1 - m.val))) ∧
      (∀ w : Fin 8, Answers (.registerWrite true (0xFC000C0200 + 8 * BitVec.ofNat 40 w.val) v) s (fun t =>
        t = { s with sec := { s.sec with stage := t.sec.stage } } ∧ tget 0 t.sec.stage w.val = v ∧
        ∀ k, k ≠ w.val → tget 0 t.sec.stage k = tget 0 s.sec.stage k)) ∧
      (∀ (m : Fin 2) (l : Fin 16),
        let a : Nat := 16 * m.val + l.val
        let o := tget 0 s.fab.ffland a
        Answers (.registerWrite true (0xFC00050800 + 8 * BitVec.ofNat 40 a) v) s (fun t =>
          t = { s with fab := { s.fab with ffland := t.fab.ffland } } ∧ (∀ k, k ≠ a → tget 0 t.fab.ffland k = tget 0 s.fab.ffland k) ∧
          tget 0 t.fab.ffland a = packF [(0, 4, if bits v 3 0 % 4 / 2 = m.val then bits v 3 0 else bits o 3 0), (4, 4, bits v 7 4),
            (8, 1, bits v 8 8)])) ∧
      (∀ (n : Fin 16) (p : Fin 16),
        let a : Nat := 16 * n.val + p.val
        Answers (.registerWrite true (0xFC40088000 + 0x100000 * BitVec.ofNat 40 n.val + 8 * BitVec.ofNat 40 p.val) v) s (fun t =>
          t = { s with fab := { s.fab with ffsel := t.fab.ffsel } } ∧ (∀ k, k ≠ a → tget 0 t.fab.ffsel k = tget 0 s.fab.ffsel k) ∧
          tget 0 t.fab.ffsel a = ffselMerge (tget 0 s.fab.ffsel a) v ∧
          (bits v 1 0 = 0 ∨ (bits v 1 0 = 1 ∧ bits v 22 5 < 150000 ∧ bits v 25 23 < 4) →
            tget 0 t.fab.ffsel a = packF [(0, 26, bits v 25 0)]))) ∧
      (∀ (m : Fin 2) (e : Fin 256), exec (.registerWrite true
          (0xFC00070000 + 0x800 * BitVec.ofNat 40 m.val + 8 * BitVec.ofNat 40 e.val) v) s = exec (.mrtWrite true m e v) s) ∧
      (∀ (m : Fin 2) (p : Fin 16), exec (.registerWrite true
          (0xFC00071800 + 0x80 * BitVec.ofNat 40 m.val + 8 * BitVec.ofNat 40 p.val) v) s = exec (.rtportWrite true m p v) s) ∧
      (∀ (m : Fin 2) (p : Fin 16) (k : Fin 3), exec (.registerWrite true (0xFC000E0000 + 0x400 * BitVec.ofNat 40 m.val +
          0x40 * BitVec.ofNat 40 p.val + 8 * BitVec.ofNat 40 k.val) v) s = exec (.ingcfgWrite true m p k v) s) ∧
      (∀ (m : Fin 2) (p : Fin 128), exec (.registerWrite true
          (0xFC00050000 + 0x400 * BitVec.ofNat 40 m.val + 8 * BitVec.ofNat 40 p.val) v) s = exec (.gpiocfgWrite true m p v) s) ∧
      (∀ (m : Fin 2) (l : Fin 48), exec (.registerWrite true
          (0xFC00080000 + 0x180 * BitVec.ofNat 40 m.val + 8 * BitVec.ofNat 40 l.val) v) s = exec (.lncfgWrite true m l v) s) ∧
      (∀ c : Fin 4, exec (.registerWrite true (0xFC00090000 + 8 * BitVec.ofNat 40 c.val) v) s =
        exec (.odocfgWrite true c v) s) ∧
      (∀ n : Fin 16, exec (.registerWrite true (0xFC40089000 + 0x100000 * BitVec.ofNat 40 n.val) v) s =
        exec (.wvctlWrite true n v) s))

/-- What reset leaves, where the manual gives the value: R22, R29 (spokes), R45, R46 (pace), R83 (flags), R211 (counters), R287,
R298, R305 (memory), R388, R400, R405 (keel), R411, R412 (worlds), R431, R444 (recovery); and what every step keeps holds
there. -/
def Obligations.ResetState : Prop :=
  let s := State.reset
  s.boot.phase = .held ∧ s.keel.dstate = .sealed ∧ s.keel.dstateWord = 0 ∧ s.keel.ledger = [] ∧ s.keel.events = [] ∧
  s.keel.evPath = 0 ∧ s.keel.lgstat = 0 ∧ (∀ c, (s.chan c).isOpen = false) ∧
  (∀ d, (s.side d).state = 0 ∧ (s.side d).credit0 = 4 ∧ (s.side d).credit1 = 4 ∧ (s.side d).held = none ∧
    (s.side d).rx0 = [] ∧ (s.side d).rx1 = []) ∧
  (∀ n, (tget ({} : PaceWord) s.tim.pace n) = { cur := 0, min := 0xFFFF, seq := 0, valid := false }) ∧
  s.tim.dpace = { cur := 0, min := 0xFFFF, seq := 0, valid := false } ∧ s.tim.floor = 0 ∧
  (∀ p e, ((s.tile p).flag e).toWord = 0) ∧ (∀ p, (s.tile p).split = false ∧ (s.ctx p 0).task = none ∧ (s.ctx p 1).task = none) ∧
  (∀ k, (s.wctr k).value = 0 ∧ (s.wctr k).limit = 0) ∧ s.ctrs.pool = [] ∧
  s.mem.cells = [] ∧ (∀ ix, (s.mrtE ix).word = packF [(1, 1, 1), (4, 2, 2)]) ∧
  (∀ m, (tget ({} : Mctl) s.mem.mctl m).word = packF [(0, 10, 0x40), (16, 15, 0x800), (32, 2, 2), (40, 8, 0x10)]) ∧
  (∀ q, (tget ({} : RtPort) s.mem.rtport q).word = packF [(0, 6, 0x10), (8, 6, 0x20), (16, 6, 0x30)]) ∧
  (∀ l, s.wtile l 0 = true ∧ s.wtile l 1 = true) ∧ (∀ b, s.wcbank b = true) ∧ (∀ g, s.wlane g = true) ∧
  s.flt.tlim = 2 ∧ s.flt.standby = 1 ∧ s.flt.tgen = 0 ∧ s.flt.dgen = 0 ∧ s.startQ = [] ∧ s.msgs = [] ∧ s.pending = [] ∧
  BlockInv s

/-- What every step of the block keeps: the canonical form of memory, the three equal copies of the ledger (R389) and the bound
of the event queue (R400). The equal copies rest on log entry 37. -/
def Obligations.StepKeepsInvariant : Prop :=
  ∀ s t : State, BlockInv s → step s = .next t → BlockInv t

/-- Fuses are blown and never unblown (R417, R419, R421): a blown root or disabled vendor root stays so, epoch bits only grow,
and that at a cold start alone; and what part the device is never changes (R5). That fuses outlive a cold reset in the model
is log entry 79. -/
def Obligations.FusesNeverRevert : Prop :=
  ∀ (c : Instr) (s t : State), exec c s = .next t →
    t.hPart = s.hPart ∧ t.xPart = s.xPart ∧ s.sec.epUsed.toNat ≤ t.sec.epUsed.toNat ∧
    ((∀ env, c ≠ .coldResetRelease env) → t.sec.epUsed = s.sec.epUsed) ∧
    (s.sec.owner = true → t.sec.owner = true ∧ t.sec.ownerRoot = s.sec.ownerRoot) ∧ (s.sec.voff = true → t.sec.voff = true)

/-- R387: the keel changes its state only as the table gives, whatever command comes. -/
def Obligations.DeviceStateChanges : Prop :=
  ∀ (c : Instr) (s t : State), exec c s = .next t → t.keel.dstate ≠ s.keel.dstate →
    (t.keel.dstate = .sealed ∧ (c = .coldReset ∨ c = .supplyMonitorColdReset)) ∨
    (t.keel.dstate = .safe ∧ (s.keel.dstate = .sealed ∨ s.keel.dstate = .quiesced)) ∨
    (t.keel.dstate = .armed ∧ ∃ n, c = .islArm n) ∨
    (t.keel.dstate = .running ∧ ∃ n, c = .islRun n ∨ c = .islFreewheelLeave n) ∨
    (t.keel.dstate = .freewheel ∧
      ((∃ n, c = .islFreewheelEnter n) ∨ (s.keel.dstate = .running ∧ ∃ bad wires, c = .warmResetRelease bad wires))) ∨
    (t.keel.dstate = .quiesced ∧ ∃ n, c = .islQuiesce n)
end

