-- ==== Sys2Proof/Laws/Table.lean ====
section
/-! SUPPORT. Sparse tables: a read after a write gives what was written, and a write leaves every other key alone. -/
set_option autoImplicit false
namespace Sys2Proof.Machine

variable {α : Type}

@[simp] theorem tlook_nil (k : Nat) : tlook k ([] : Table α) = none := rfl
@[simp] theorem tget_nil (d : α) (k : Nat) : tget d ([] : Table α) k = d := rfl

@[simp] theorem tlook_tput (k : Nat) (v : α) (t : Table α) : tlook k (tput k v t) = some v := by
  induction t with
  | nil => simp [tput, tlook]
  | cons x r ih =>
    obtain ⟨j, u⟩ := x
    by_cases h : k < j
    · simp [tput, h, tlook]
    · by_cases e : k = j
      · simp [tput, e, tlook]
      · simp [tput, h, e, tlook, Ne.symm e, ih]

theorem tlook_tput_ne {k m : Nat} (h : m ≠ k) (v : α) (t : Table α) : tlook m (tput k v t) = tlook m t := by
  induction t with
  | nil => simp [tput, tlook, Ne.symm h]
  | cons x r ih =>
    obtain ⟨j, u⟩ := x
    by_cases hl : k < j
    · simp [tput, hl, tlook, Ne.symm h]
    · by_cases e : k = j
      · subst e; simp [tput, tlook, Ne.symm h]
      · simp [tput, hl, e, tlook, ih]

@[simp] theorem tget_tput (d : α) (k : Nat) (v : α) (t : Table α) : tget d (tput k v t) k = v := by simp [tget]

theorem tget_tput_ne {k m : Nat} (h : m ≠ k) (d v : α) (t : Table α) : tget d (tput k v t) m = tget d t m := by
  simp [tget, tlook_tput_ne h]

theorem tget_tput_ite (d : α) (k m : Nat) (v : α) (t : Table α) :
    tget d (tput k v t) m = if m = k then v else tget d t m := by
  by_cases h : m = k
  · subst h; simp
  · simp [h, tget_tput_ne h]

@[simp] theorem tget_tmod (d : α) (k : Nat) (f : α → α) (t : Table α) : tget d (tmod d k f t) k = f (tget d t k) := by
  simp [tmod]

theorem tget_tmod_ne {k m : Nat} (h : m ≠ k) (d : α) (f : α → α) (t : Table α) : tget d (tmod d k f t) m = tget d t m := by
  simp [tmod, tget_tput_ne h]

@[simp] theorem tlook_tdel (k : Nat) (t : Table α) : tlook k (tdel k t) = none := by
  induction t with
  | nil => rfl
  | cons x r ih =>
    obtain ⟨j, u⟩ := x
    by_cases h : j = k
    · subst h; simpa [tdel] using ih
    · simpa [tdel, h, tlook] using ih

theorem tlook_tdel_ne {k m : Nat} (h : m ≠ k) (t : Table α) : tlook m (tdel k t) = tlook m t := by
  induction t with
  | nil => rfl
  | cons x r ih =>
    obtain ⟨j, u⟩ := x
    by_cases hj : j = k
    · subst hj
      have e : tdel j ((j, u) :: r) = tdel j r := by simp [tdel]
      simp [e, ih, tlook, Ne.symm h]
    · have e : tdel k ((j, u) :: r) = (j, u) :: tdel k r := by simp [tdel, hj]
      simp [e, tlook, ih]

@[simp] theorem tget_tdel (d : α) (k : Nat) (t : Table α) : tget d (tdel k t) k = d := by simp [tget]
theorem tget_tdel_ne {k m : Nat} (h : m ≠ k) (d : α) (t : Table α) : tget d (tdel k t) m = tget d t m := by
  simp [tget, tlook_tdel_ne h]

/-- A table whose values are all changed by one function. -/
theorem tlook_map (f : Nat → α → α) (k : Nat) (t : Table α) :
    tlook k (t.map (fun x => (x.1, f x.1 x.2))) = (tlook k t).map (f k) := by
  induction t with
  | nil => rfl
  | cons x r ih =>
    obtain ⟨j, u⟩ := x
    by_cases h : j = k
    · subst h; simp [tlook]
    · simpa [tlook, h] using ih

/-! ## Keys strictly rising -/

theorem rising_nil : Rising ([] : Table α) := List.Pairwise.nil

theorem rising_filter {t : Table α} (f : Nat × α → Bool) (h : Rising t) : Rising (t.filter f) :=
  List.Pairwise.filter f h

theorem mem_tput {k : Nat} {v : α} {t : Table α} {x : Nat × α} (h : x ∈ tput k v t) : x = (k, v) ∨ x ∈ t := by
  induction t with
  | nil => simpa [tput] using h
  | cons y r ih =>
    obtain ⟨j, u⟩ := y
    simp only [tput] at h
    split at h
    · simpa using h
    · split at h
      · rcases List.mem_cons.mp h with e | e
        · exact .inl e
        · exact .inr (List.mem_cons_of_mem _ e)
      · rcases List.mem_cons.mp h with e | e
        · exact .inr (e ▸ List.mem_cons_self)
        · rcases ih e with e | e
          · exact .inl e
          · exact .inr (List.mem_cons_of_mem _ e)

theorem rising_tput {t : Table α} (k : Nat) (v : α) (h : Rising t) : Rising (tput k v t) := by
  induction t with
  | nil => simp [tput, Rising]
  | cons y r ih =>
    obtain ⟨j, u⟩ := y
    have hr : Rising r := (List.pairwise_cons.mp h).2
    have hj : ∀ z ∈ r, j < z.1 := (List.pairwise_cons.mp h).1
    simp only [tput]
    split
    · rename_i hk
      refine List.pairwise_cons.mpr ⟨?_, h⟩
      intro z hz
      rcases List.mem_cons.mp hz with e | e
      · subst e; exact hk
      · exact Nat.lt_trans hk (hj z e)
    · split
      · rename_i hk
        subst hk
        exact List.pairwise_cons.mpr ⟨hj, hr⟩
      · rename_i h1 h2
        refine List.pairwise_cons.mpr ⟨?_, ih hr⟩
        intro z hz
        rcases mem_tput hz with e | e
        · subst e; simp only; omega
        · exact hj z e

theorem rising_tdel {t : Table α} (k : Nat) (h : Rising t) : Rising (tdel k t) := rising_filter _ h
theorem rising_tclear {t : Table α} (lo hi : Nat) (h : Rising t) : Rising (tclear lo hi t) := rising_filter _ h
theorem rising_tmod {t : Table α} (d : α) (k : Nat) (f : α → α) (h : Rising t) : Rising (tmod d k f t) := rising_tput k _ h

end Sys2Proof.Machine
end

