-- ==== Sys2Proof/Laws/State.lean ====
section
/-! SUPPORT. What each update of a unit leaves as it was, and what a read of the unit then gives. -/
set_option autoImplicit false
namespace Sys2Proof.Machine

/-! ## Tiles -/

@[simp] theorem tile_setTile (s : State) (p : Nat) (t : Tile) : (s.setTile p t).tile p = t := by simp [State.tile, State.setTile]
theorem tile_setTile_ne {p q : Nat} (h : q ≠ p) (s : State) (t : Tile) : (s.setTile p t).tile q = s.tile q := by
  simp [State.tile, State.setTile, tget_tput_ne h]
@[simp] theorem setTile_spk (s : State) (p : Nat) (t : Tile) : (s.setTile p t).spk = s.spk := rfl
@[simp] theorem setTile_tim (s : State) (p : Nat) (t : Tile) : (s.setTile p t).tim = s.tim := rfl
@[simp] theorem setTile_keel (s : State) (p : Nat) (t : Tile) : (s.setTile p t).keel = s.keel := rfl
@[simp] theorem setTile_sec (s : State) (p : Nat) (t : Tile) : (s.setTile p t).sec = s.sec := rfl
@[simp] theorem setTile_flt (s : State) (p : Nat) (t : Tile) : (s.setTile p t).flt = s.flt := rfl
@[simp] theorem setTile_boot (s : State) (p : Nat) (t : Tile) : (s.setTile p t).boot = s.boot := rfl
@[simp] theorem setTile_mem (s : State) (p : Nat) (t : Tile) : (s.setTile p t).mem = s.mem := rfl
@[simp] theorem setTile_fab (s : State) (p : Nat) (t : Tile) : (s.setTile p t).fab = s.fab := rfl
@[simp] theorem setTile_msgs (s : State) (p : Nat) (t : Tile) : (s.setTile p t).msgs = s.msgs := rfl
@[simp] theorem setTile_ctrs (s : State) (p : Nat) (t : Tile) : (s.setTile p t).ctrs = s.ctrs := rfl
@[simp] theorem setTile_fresh (s : State) (p : Nat) (t : Tile) : (s.setTile p t).fresh = s.fresh := rfl
@[simp] theorem setTile_startQ (s : State) (p : Nat) (t : Tile) : (s.setTile p t).startQ = s.startQ := rfl
@[simp] theorem setTile_pending (s : State) (p : Nat) (t : Tile) : (s.setTile p t).pending = s.pending := rfl

@[simp] theorem tile_modTile (s : State) (p : Nat) (f : Tile → Tile) : (s.modTile p f).tile p = f (s.tile p) := by
  simp [State.modTile]
theorem tile_modTile_ne {p q : Nat} (h : q ≠ p) (s : State) (f : Tile → Tile) : (s.modTile p f).tile q = s.tile q :=
  tile_setTile_ne h s _
@[simp] theorem modTile_spk (s : State) (p : Nat) (f : Tile → Tile) : (s.modTile p f).spk = s.spk := rfl
@[simp] theorem modTile_keel (s : State) (p : Nat) (f : Tile → Tile) : (s.modTile p f).keel = s.keel := rfl
@[simp] theorem modTile_sec (s : State) (p : Nat) (f : Tile → Tile) : (s.modTile p f).sec = s.sec := rfl
@[simp] theorem modTile_flt (s : State) (p : Nat) (f : Tile → Tile) : (s.modTile p f).flt = s.flt := rfl
@[simp] theorem modTile_mem (s : State) (p : Nat) (f : Tile → Tile) : (s.modTile p f).mem = s.mem := rfl
@[simp] theorem modTile_fresh (s : State) (p : Nat) (f : Tile → Tile) : (s.modTile p f).fresh = s.fresh := rfl

/-! ## Contexts of a tile -/

@[simp] theorem ctx_setCtx (t : Tile) (c : Nat) (x : CtxSt) : (t.setCtx c x).ctx c = x := by
  unfold Tile.ctx Tile.setCtx; split <;> rfl
@[simp] theorem ctx_modCtx (t : Tile) (c : Nat) (f : CtxSt → CtxSt) : (t.modCtx c f).ctx c = f (t.ctx c) := by
  simp [Tile.modCtx]
@[simp] theorem state_ctx_modCtx (s : State) (p c : Nat) (f : CtxSt → CtxSt) : (s.modCtx p c f).ctx p c = f (s.ctx p c) := by
  simp [State.ctx, State.modCtx]
@[simp] theorem modCtx_tile (s : State) (p c : Nat) (f : CtxSt → CtxSt) : (s.modCtx p c f).tile p = (s.tile p).modCtx c f := by
  simp [State.modCtx]
theorem modCtx_tile_ne {p q : Nat} (h : q ≠ p) (s : State) (c : Nat) (f : CtxSt → CtxSt) :
    (s.modCtx p c f).tile q = s.tile q := tile_modTile_ne h s _
@[simp] theorem modCtx_keel (s : State) (p c : Nat) (f : CtxSt → CtxSt) : (s.modCtx p c f).keel = s.keel := rfl
@[simp] theorem modCtx_mem (s : State) (p c : Nat) (f : CtxSt → CtxSt) : (s.modCtx p c f).mem = s.mem := rfl
@[simp] theorem modCtx_flt (s : State) (p c : Nat) (f : CtxSt → CtxSt) : (s.modCtx p c f).flt = s.flt := rfl
@[simp] theorem modCtx_fresh (s : State) (p c : Nat) (f : CtxSt → CtxSt) : (s.modCtx p c f).fresh = s.fresh := rfl

/-! ## Spoke directions -/

@[simp] theorem side_modSide (s : State) (d : Nat) (f : SpokeSide → SpokeSide) : (s.modSide d f).side d = f (s.side d) := by
  simp [State.side, State.modSide]
theorem side_modSide_ne {d e : Nat} (h : e ≠ d) (s : State) (f : SpokeSide → SpokeSide) : (s.modSide d f).side e = s.side e := by
  simp [State.side, State.modSide, tget_tmod_ne h]
@[simp] theorem modSide_rerouted (s : State) (d : Nat) (f : SpokeSide → SpokeSide) :
    (s.modSide d f).spk.rerouted = s.spk.rerouted := rfl
@[simp] theorem modSide_ejected (s : State) (d : Nat) (f : SpokeSide → SpokeSide) :
    (s.modSide d f).spk.ejected = s.spk.ejected := rfl
@[simp] theorem modSide_keel (s : State) (d : Nat) (f : SpokeSide → SpokeSide) : (s.modSide d f).keel = s.keel := rfl
@[simp] theorem modSide_flt (s : State) (d : Nat) (f : SpokeSide → SpokeSide) : (s.modSide d f).flt = s.flt := rfl

/-! ## Channels of the keel, memory channels, entries of the region table -/

@[simp] theorem chan_modChan (s : State) (c : Nat) (f : ChanSt → ChanSt) : (s.modChan c f).chan c = f (s.chan c) := by
  simp [State.chan, State.modChan]
theorem chan_modChan_ne {c d : Nat} (h : d ≠ c) (s : State) (f : ChanSt → ChanSt) : (s.modChan c f).chan d = s.chan d := by
  simp [State.chan, State.modChan, tget_tmod_ne h]
@[simp] theorem modChan_ledger (s : State) (c : Nat) (f : ChanSt → ChanSt) : (s.modChan c f).keel.ledger = s.keel.ledger := rfl
@[simp] theorem modChan_tiles (s : State) (c : Nat) (f : ChanSt → ChanSt) : (s.modChan c f).tiles = s.tiles := rfl
@[simp] theorem modChan_mem (s : State) (c : Nat) (f : ChanSt → ChanSt) : (s.modChan c f).mem = s.mem := rfl

@[simp] theorem mchan_modMchan (s : State) (i : Nat) (f : MemChan → MemChan) : (s.modMchan i f).mchan i = f (s.mchan i) := by
  simp [State.mchan, State.modMchan]
theorem mchan_modMchan_ne {i j : Nat} (h : j ≠ i) (s : State) (f : MemChan → MemChan) :
    (s.modMchan i f).mchan j = s.mchan j := by simp [State.mchan, State.modMchan, tget_tmod_ne h]
@[simp] theorem modMchan_cells (s : State) (i : Nat) (f : MemChan → MemChan) : (s.modMchan i f).mem.cells = s.mem.cells := rfl
@[simp] theorem modMchan_keel (s : State) (i : Nat) (f : MemChan → MemChan) : (s.modMchan i f).keel = s.keel := rfl
@[simp] theorem modMchan_tiles (s : State) (i : Nat) (f : MemChan → MemChan) : (s.modMchan i f).tiles = s.tiles := rfl

@[simp] theorem mrtE_modMrt (s : State) (i : Nat) (f : MrtEntry → MrtEntry) : (s.modMrt i f).mrtE i = f (s.mrtE i) := by
  simp [State.mrtE, State.modMrt]
theorem mrtE_modMrt_ne {i j : Nat} (h : j ≠ i) (s : State) (f : MrtEntry → MrtEntry) : (s.modMrt i f).mrtE j = s.mrtE j := by
  simp [State.mrtE, State.modMrt, tget_tmod_ne h]
@[simp] theorem modMrt_cells (s : State) (i : Nat) (f : MrtEntry → MrtEntry) : (s.modMrt i f).mem.cells = s.mem.cells := rfl
@[simp] theorem modMrt_keel (s : State) (i : Nat) (f : MrtEntry → MrtEntry) : (s.modMrt i f).keel = s.keel := rfl

/-! ## Regions, pins, lanes, Vorot ports, streams and counters -/

@[simp] theorem region_modRegion (s : State) (r : Nat) (f : Region → Region) : (s.modRegion r f).region r = f (s.region r) := by
  simp [State.region, State.modRegion]
theorem region_modRegion_ne {r q : Nat} (h : q ≠ r) (s : State) (f : Region → Region) : (s.modRegion r f).region q = s.region q := by
  simp [State.region, State.modRegion, tget_tmod_ne h]
@[simp] theorem modRegion_keel (s : State) (r : Nat) (f : Region → Region) : (s.modRegion r f).keel = s.keel := rfl
@[simp] theorem modRegion_mem (s : State) (r : Nat) (f : Region → Region) : (s.modRegion r f).mem = s.mem := rfl
@[simp] theorem modRegion_pins (s : State) (r : Nat) (f : Region → Region) : (s.modRegion r f).fab.pins = s.fab.pins := rfl

@[simp] theorem pin_modPin (s : State) (i : Nat) (f : Pin → Pin) : (s.modPin i f).pin i = f (s.pin i) := by
  simp [State.pin, State.modPin]
theorem pin_modPin_ne {i j : Nat} (h : j ≠ i) (s : State) (f : Pin → Pin) : (s.modPin i f).pin j = s.pin j := by
  simp [State.pin, State.modPin, tget_tmod_ne h]
@[simp] theorem modPin_regions (s : State) (i : Nat) (f : Pin → Pin) : (s.modPin i f).fab.regions = s.fab.regions := rfl

@[simp] theorem lane_modLane (s : State) (i : Nat) (f : Lane → Lane) : (s.modLane i f).lane i = f (s.lane i) := by
  simp [State.lane, State.modLane]
theorem lane_modLane_ne {i j : Nat} (h : j ≠ i) (s : State) (f : Lane → Lane) : (s.modLane i f).lane j = s.lane j := by
  simp [State.lane, State.modLane, tget_tmod_ne h]
@[simp] theorem modLane_keel (s : State) (i : Nat) (f : Lane → Lane) : (s.modLane i f).keel = s.keel := rfl
@[simp] theorem modLane_fab (s : State) (i : Nat) (f : Lane → Lane) : (s.modLane i f).fab = s.fab := rfl

/-! ## The counter of free values -/

@[simp] theorem bump_tiles (s : State) : s.bump.tiles = s.tiles := rfl
@[simp] theorem bump_tile (s : State) (p : Nat) : s.bump.tile p = s.tile p := rfl
@[simp] theorem bump_keel (s : State) : s.bump.keel = s.keel := rfl
@[simp] theorem bump_mem (s : State) : s.bump.mem = s.mem := rfl
@[simp] theorem bump_fresh (s : State) : s.bump.fresh = s.fresh + 1 := rfl
@[simp] theorem bump_flt (s : State) : s.bump.flt = s.flt := rfl

/-! ## The ledger (R389, R390) -/

@[simp] theorem entry_lgPut (s : State) (i : Nat) (e : LgEntry) :
    (s.lgPut i e).entry i = some { e with alive := e.alive + 1 } := by simp [State.entry, State.lgPut]
theorem entry_lgPut_ne {i j : Nat} (h : j ≠ i) (s : State) (e : LgEntry) : (s.lgPut i e).entry j = s.entry j := by
  simp [State.entry, State.lgPut, tlook_tput_ne h]
@[simp] theorem entry_lgFree (s : State) (i : Nat) : (s.lgFree i).entry i = none := by simp [State.entry, State.lgFree]
theorem entry_lgFree_ne {i j : Nat} (h : j ≠ i) (s : State) : (s.lgFree i).entry j = s.entry j := by
  simp [State.entry, State.lgFree, tlook_tdel_ne h]
@[simp] theorem lgPut_tiles (s : State) (i : Nat) (e : LgEntry) : (s.lgPut i e).tiles = s.tiles := rfl
@[simp] theorem lgPut_mem (s : State) (i : Nat) (e : LgEntry) : (s.lgPut i e).mem = s.mem := rfl
@[simp] theorem lgPut_chans (s : State) (i : Nat) (e : LgEntry) : (s.lgPut i e).keel.chans = s.keel.chans := rfl
@[simp] theorem lgPut_events (s : State) (i : Nat) (e : LgEntry) : (s.lgPut i e).keel.events = s.keel.events := rfl

/-- What `complete` can do: nothing to an entry that is free or already complete, and otherwise one write of the entry. -/
theorem complete_cases (s : State) (i : Nat) (r : Reply) :
    (s.complete i r = s ∧ ∀ e, s.entry i = some e → e.state = .complete) ∨
    ∃ e, s.entry i = some e ∧ e.state ≠ .complete ∧
      s.complete i r = s.lgPut i { e with state := .complete, reply := some r } := by
  unfold State.complete
  cases h : s.entry i with
  | none => exact .inl ⟨rfl, by simp⟩
  | some e =>
    by_cases hc : e.state = .complete
    · exact .inl ⟨by simp [hc], by simpa using hc⟩
    · exact .inr ⟨e, rfl, hc, by simp [hc]⟩

/-! ## Event records (R398) -/

/-- Emitting a record changes the keel alone. -/
theorem emit_only_keel (s : State) (c : Nat) (w : World) (a b d : Word) :
    s.emit c w a b d = { s with keel := (s.emit c w a b d).keel } := by unfold State.emit; dsimp only; split <;> rfl

@[simp] theorem emit_tiles (s : State) (c : Nat) (w : World) (a b d : Word) : (s.emit c w a b d).tiles = s.tiles := by
  unfold State.emit; dsimp only; split <;> rfl
@[simp] theorem emit_spk (s : State) (c : Nat) (w : World) (a b d : Word) : (s.emit c w a b d).spk = s.spk := by
  unfold State.emit; dsimp only; split <;> rfl
@[simp] theorem emit_tim (s : State) (c : Nat) (w : World) (a b d : Word) : (s.emit c w a b d).tim = s.tim := by
  unfold State.emit; dsimp only; split <;> rfl
@[simp] theorem emit_mem (s : State) (c : Nat) (w : World) (a b d : Word) : (s.emit c w a b d).mem = s.mem := by
  unfold State.emit; dsimp only; split <;> rfl
@[simp] theorem emit_flt (s : State) (c : Nat) (w : World) (a b d : Word) : (s.emit c w a b d).flt = s.flt := by
  unfold State.emit; dsimp only; split <;> rfl
@[simp] theorem emit_sec (s : State) (c : Nat) (w : World) (a b d : Word) : (s.emit c w a b d).sec = s.sec := by
  unfold State.emit; dsimp only; split <;> rfl
@[simp] theorem emit_boot (s : State) (c : Nat) (w : World) (a b d : Word) : (s.emit c w a b d).boot = s.boot := by
  unfold State.emit; dsimp only; split <;> rfl
@[simp] theorem emit_ledger (s : State) (c : Nat) (w : World) (a b d : Word) :
    (s.emit c w a b d).keel.ledger = s.keel.ledger := by unfold State.emit; dsimp only; split <;> rfl
@[simp] theorem emit_chans (s : State) (c : Nat) (w : World) (a b d : Word) :
    (s.emit c w a b d).keel.chans = s.keel.chans := by unfold State.emit; dsimp only; split <;> rfl

end Sys2Proof.Machine
end

