-- ==== Sys2Proof/Laws/Commands.lean ====
section
/-! SUPPORT. Everything that each shared operation of the commands can do, said once. -/
set_option autoImplicit false
namespace Sys2Proof.Machine

/-- A register write runs while the device is up and is ignored otherwise (R453). -/
theorem whenUp_cases (s : State) (f : State → State) : (s.up = true ∧ s.whenUp f = f s) ∨ (s.up = false ∧ s.whenUp f = s) := by
  unfold State.whenUp
  cases h : s.up <;> simp

/-- An `ISL_` row runs for the started command of its channel and opcode, and does nothing otherwise (R385). -/
theorem islRun_cases (s : State) (c o : Nat) (f : Nat → LgEntry → State → State) :
    (∃ i e, s.keel.current = some i ∧ s.entry i = some e ∧ e.chan.toNat = c ∧ e.opc.toNat = o ∧
      s.islRun c o f = f i e { s with keel := { s.keel with current := none } }) ∨
    (s.islRun c o f = s ∧ ∀ i e, s.keel.current = some i → s.entry i = some e → ¬ (e.chan.toNat = c ∧ e.opc.toNat = o)) := by
  unfold State.islRun
  cases hc : s.keel.current with
  | none => exact .inr ⟨rfl, fun i e h => by cases h⟩
  | some i =>
    cases he : s.entry i with
    | none => exact .inr ⟨by simp [he], fun j e h g => by cases h; rw [he] at g; cases g⟩
    | some e =>
      by_cases h : e.chan.toNat = c ∧ e.opc.toNat = o
      · exact .inl ⟨i, e, rfl, he, h.1, h.2, by simp [he, h]⟩
      · refine .inr ⟨?_, fun j e' hj g => by cases hj; rw [he] at g; cases g; exact h⟩
        simp only [he]
        rw [if_neg]
        simpa using h

/-- What the storage of a tile shows (R91, R116, R122): the step runs, perhaps with a correction counted, or a fault takes its
place, or nothing happens. -/
theorem underHw_cases (s : State) (p c : Nat) (hw : HwEvent) (mvp : Bool) (entry pc : Nat) (ok : HwEvent → Bool) (f : State → State) :
    s.underHw p c hw mvp entry pc ok f = f s ∨
    (∃ a b e, s.underHw p c hw mvp entry pc ok f = f (s.modTile p (fun t => t.correct a b e))) ∨
    (∃ code l1 l2, hwLoc entry pc hw = some (code, l1, l2) ∧
      s.underHw p c hw mvp entry pc ok f = s.tileFault p (hwScope (s.tile p) c hw) mvp code l1 l2) ∨
    s.underHw p c hw mvp entry pc ok f = s := by
  unfold State.underHw
  split
  · exact .inl rfl
  · exact .inr (.inl ⟨_, _, _, rfl⟩)
  · split
    · exact .inr (.inr (.inr rfl))
    · split
      · rename_i h; exact .inr (.inr (.inl ⟨_, _, _, h, rfl⟩))
      · exact .inr (.inr (.inr rfl))

@[simp] theorem underHw_none (s : State) (p c : Nat) (mvp : Bool) (entry pc : Nat) (ok : HwEvent → Bool) (f : State → State) :
    s.underHw p c .none mvp entry pc ok f = f s := rfl

/-- A sequencer entry is taken when it is of its row's kind (R176). -/
theorem takeEntry_cases (s : State) (p c kind : Nat) (hw : HwEvent) (f : Task → List Word → State → State) :
    (∃ k e ok, (s.tile p).entryAt c = some (k, e) ∧ sqKind e = kind ∧
      s.takeEntry p c kind hw f = s.underHw p c hw false (s.ctx p c).pos 0 ok (f k e)) ∨
    s.takeEntry p c kind hw f = s := by
  unfold State.takeEntry
  split
  · exact .inr rfl
  · rename_i k e h
    by_cases hk : sqKind e = kind
    · exact .inl ⟨k, e, _, h, hk, by rw [if_neg (by simp [hk])]⟩
    · exact .inr (by simp [hk])

/-- An offered transfer of its row's kind is skipped or taken, while the context is active (R189, R191, R213). -/
theorem takeXfer_cases (s : State) (p c kind : Nat) (fwd : Bool) (f : Task → Nat → List Word → Ixs → State → State) :
    (∃ k xi d v, (s.ctx p c).task = some k ∧ (s.ctx p c).offerX = some xi ∧ (s.ctx p c).descOf xi = some d ∧
      (s.ctx p c).active = true ∧ xfKind d = kind ∧ xfFwd d = fwd ∧
      (v = (s.ctx p c).idx ∨ nextTile k (s.ctx p c).idx = some v) ∧ s.takeXfer p c kind fwd f = f k xi d v s) ∨
    s.takeXfer p c kind fwd f = s.modCtx p c CtxSt.xTaken ∨ s.takeXfer p c kind fwd f = s := by
  unfold State.takeXfer
  dsimp only
  cases ht : ((s.tile p).ctx c).task with
  | none => exact .inr (.inr rfl)
  | some k =>
    cases ho : ((s.tile p).ctx c).offerX with
    | none => exact .inr (.inr rfl)
    | some xi =>
      dsimp only
      cases hd : ((s.tile p).ctx c).descOf xi with
      | none => exact .inr (.inr rfl)
      | some d =>
        dsimp only
        split
        · exact .inr (.inr rfl)
        · rename_i hc
          simp only [Bool.or_eq_true, not_or, Bool.not_eq_true', decide_eq_true_eq, Bool.not_eq_false, ne_eq, Decidable.not_not] at hc
          obtain ⟨⟨⟨ha, hk⟩, hf⟩, -⟩ := hc
          split
          · exact .inr (.inl rfl)
          · split
            · split
              · exact .inr (.inl rfl)
              · rename_i v hv
                exact .inl ⟨k, xi, d, v, ht, ho, hd, ha, hk, hf, .inr hv, rfl⟩
            · exact .inl ⟨k, xi, d, _, ht, ho, hd, ha, hk, hf, .inl rfl, rfl⟩

/-- A TVU row that meets no event, range or encoding fault runs its instruction (R127, R130, R137). -/
theorem tvuIssue_runs {s : State} {p opc : Nat} {f : Nat → Word32 → Tile → TvuOut} {g : Prog} {w : Word32}
    (hg : (s.tile p).prog = some g) (hw : tget 0 (s.tile p).imem g.pc = w) (hv : g.waitv = none) (hs : g.slots = 0)
    (he : g.eventPending ((s.tile p).ctx g.ctx) = false) (hp : (s.tile p).pcOk g.ctx g.pc = true)
    (ho : tvuOpcOk (tiOpc w) = true) (hl : tvuLegal w = true) (hopc : tiOpc w = opc) :
    tvuIssue p .none opc f s = match f g.ctx w (s.tile p) with
      | .ok t => (s.setTile p t).bump
      | .error sub => s.tvuFault p g.ctx g.pc sub := by
  rw [hopc] at ho
  unfold tvuIssue
  simp only [hg, hw, hv, hs, he, hp, ho, hl, hopc, Option.isSome_none, Bool.false_or, Bool.and_false, Bool.false_eq_true, if_false,
    Bool.not_true, reduceCtorEq, ne_eq, not_true_eq_false, decide_false, Bool.false_and, underHw_none]
  try rfl

/-- A frame is taken in when it is the one expected; otherwise at most its port answers it (R327, R330). -/
theorem takeFrame_cases (s : State) (v kind : Nat) (fr : Frame) (f : State → State) :
    (2 ≤ (s.port v).state.toNat ∧ fsKind fr.hdr = kind ∧ fr.crc = frameCrc fr.hdr fr.data ∧ fsSeq fr.hdr = (s.port v).rxSeq ∧
      s.takeFrame v kind fr f = f (s.modPort v (fun x => { x with rxSeq := x.rxSeq + 1, nakked := false }))) ∨
    (∃ g, s.takeFrame v kind fr f = s.modPort v g) ∨ s.takeFrame v kind fr f = s := by
  unfold State.takeFrame
  dsimp only
  split
  · exact .inr (.inr rfl)
  · rename_i h
    simp only [Bool.or_eq_true, not_or, decide_eq_true_eq, ne_eq, Decidable.not_not, Nat.not_lt] at h
    split
    · rename_i hc
      simp only [Bool.and_eq_true, decide_eq_true_eq] at hc
      exact .inl ⟨h.1, h.2, hc.1, hc.2, rfl⟩
    · split
      · exact .inr (.inl ⟨_, rfl⟩)
      · split
        · exact .inr (.inr rfl)
        · exact .inr (.inl ⟨_, rfl⟩)

/-- The commands of a rim, tile or other unit's reset that exist leave their mark and their job (R394, R445). -/
theorem resetRun_eq (s : State) (c kind limit : Nat) (f : Nat → State → State) :
    s.resetRun c kind limit f = s.islRun c 0x28 (fun i e u =>
      if bits (u.pw i 0) 2 0 ≠ kind then s
      else if u.rsvd i [(0, 7, 3), (0, 63, 16)] || limit < bits (u.pw i 0) 15 8 then u.done i stPARAM
      else f (bits (u.pw i 0) 15 8) ((u.modKeel (fun k => { k with resetMark := some (e.markOf stOK) })).modFlt (fun x => { x with
        resets := x.resets ++ [{ kind := kind, target := bits (u.pw i 0) 15 8, entry := some i }] }))) := rfl

end Sys2Proof.Machine
end

