-- ==== Sys2Proof/Laws/Kept.lean ====
section
/-! SUPPORT. What no part of a command disturbs: the canonical form of memory, the equal copies of the ledger, the bound of the
event queue, the fuses, the part that the device is, and the device state but for the end of a full load. -/
set_option autoImplicit false
namespace Sys2Proof.Machine

/-- What a change of the keel keeps. -/
structure KeelKept (k l : Keel) : Prop where
  copies : k.ledgerW = k.ledger ∧ k.ledgerE = k.ledger → l.ledgerW = l.ledger ∧ l.ledgerE = l.ledger
  events : k.events.length ≤ 16384 → l.events.length ≤ 16384
  dstate : l.dstate = k.dstate ∨ (l.dstate = .safe ∧ (k.dstate = .sealed ∨ k.dstate = .quiesced))

/-- What a change of the security state keeps. -/
structure SecKept (x y : Security) : Prop where
  epUsed : y.epUsed = x.epUsed
  owner : x.owner = true → y.owner = true ∧ y.ownerRoot = x.ownerRoot
  voff : x.voff = true → y.voff = true

/-- `t` follows `s` by steps that keep all of this. -/
structure Kept (s t : State) : Prop where
  parts : t.hPart = s.hPart ∧ t.xPart = s.xPart
  mem : Memory.wf s.mem → Memory.wf t.mem
  keel : KeelKept s.keel t.keel
  sec : SecKept s.sec t.sec

theorem KeelKept.refl (k : Keel) : KeelKept k k := ⟨id, id, .inl rfl⟩
theorem SecKept.refl (x : Security) : SecKept x x := ⟨rfl, fun h => ⟨h, rfl⟩, id⟩
theorem Kept.refl (s : State) : Kept s s := ⟨⟨rfl, rfl⟩, id, .refl _, .refl _⟩

theorem KeelKept.trans {k l m : Keel} (h : KeelKept k l) (g : KeelKept l m) : KeelKept k m := by
  refine ⟨fun e => g.copies (h.copies e), fun e => g.events (h.events e), ?_⟩
  rcases g.dstate with e | ⟨e, d⟩
  · rw [e]; exact h.dstate
  · rcases h.dstate with f | ⟨f, c⟩
    · exact .inr ⟨e, f ▸ d⟩
    · exact .inr ⟨e, c⟩

theorem SecKept.trans {x y z : Security} (h : SecKept x y) (g : SecKept y z) : SecKept x z :=
  ⟨g.epUsed.trans h.epUsed, fun e => ⟨(g.owner (h.owner e).1).1, (g.owner (h.owner e).1).2.trans (h.owner e).2⟩,
    fun e => g.voff (h.voff e)⟩

theorem Kept.trans {s t u : State} (h : Kept s t) (g : Kept t u) : Kept s u :=
  ⟨⟨g.parts.1.trans h.parts.1, g.parts.2.trans h.parts.2⟩, fun e => g.mem (h.mem e), h.keel.trans g.keel, h.sec.trans g.sec⟩

/-- A change of the keel that leaves the ledger, the events and the state. -/
theorem KeelKept.same {k l : Keel} (h : l.ledger = k.ledger ∧ l.ledgerW = k.ledgerW ∧ l.ledgerE = k.ledgerE)
    (e : l.events = k.events) (d : l.dstate = k.dstate) : KeelKept k l := by
  refine ⟨fun c => ?_, fun c => e ▸ c, .inl d⟩
  rw [h.1, h.2.1, h.2.2]; exact c

/-- A change of the security state that leaves the fuses. -/
theorem SecKept.same {x y : Security} (h : y.epUsed = x.epUsed) (o : y.owner = x.owner) (r : y.ownerRoot = x.ownerRoot)
    (v : y.voff = x.voff) : SecKept x y := ⟨h, fun e => ⟨o.trans e, r⟩, fun e => v.trans e⟩

/-- A record update of a state that follows `s`. -/
theorem Kept.upd {s u : State} {spk tim keel sec flt boot ssp tiles startQ msgs ctrs mem fab ldr weevils ser web readData fresh pending}
    (h : Kept s u) (hk : KeelKept u.keel keel) (hs : SecKept u.sec sec) (hm : Rising u.mem.cells → Rising mem.cells) :
    Kept s { hPart := u.hPart, xPart := u.xPart, spk := spk, tim := tim, keel := keel, sec := sec, flt := flt, boot := boot
             ssp := ssp, tiles := tiles, startQ := startQ, msgs := msgs, ctrs := ctrs, mem := mem, fab := fab, ldr := ldr
             weevils := weevils, ser := ser, web := web, readData := readData, fresh := fresh, pending := pending } :=
  h.trans ⟨⟨rfl, rfl⟩, hm, hk, hs⟩

theorem Kept.ite {s a b : State} {c : Prop} [Decidable c] (ha : Kept s a) (hb : Kept s b) : Kept s (if c then a else b) := by
  split <;> assumption

theorem Kept.iteFst {β : Type} {s : State} {a b : State × β} {c : Prop} [Decidable c] (ha : Kept s a.1) (hb : Kept s b.1) :
    Kept s (if c then a else b).1 := by
  split <;> assumption

theorem Kept.foldl {α : Type} (f : State → α → State) (l : List α) {s t : State} (h : Kept s t) (hf : ∀ u x, Kept u (f u x)) :
    Kept s (l.foldl f t) := by
  induction l generalizing t with
  | nil => exact h
  | cons x r ih => exact ih (h.trans (hf t x))

theorem Kept.foldlFst {α β : Type} (f : State × β → α → State × β) (l : List α) {s : State} {t : State × β} (h : Kept s t.1)
    (hf : ∀ u x, Kept u.1 (f u x).1) : Kept s (l.foldl f t).1 := by
  induction l generalizing t with
  | nil => exact h
  | cons x r ih => exact ih (h.trans (hf t x))

/-- The first part of a pair that is known. -/
theorem Kept.ofPair {β : Type} {s u : State} {y : β} {e : State × β} (h : e = (u, y)) (k : Kept s e.1) : Kept s u := by
  rw [h] at k; exact k

/-! ## Operations that take a function -/

theorem Kept.setMem {s t : State} {f : Memory → Memory} (h : Kept s t) (hf : Rising t.mem.cells → Rising (f t.mem).cells) :
    Kept s (t.setMem f) := h.upd (.refl _) (.refl _) hf

theorem Kept.modKeel {s t : State} {f : Keel → Keel} (h : Kept s t) (hf : KeelKept t.keel (f t.keel)) : Kept s (t.modKeel f) :=
  h.upd hf (.refl _) id

theorem Kept.modSec {s t : State} {f : Security → Security} (h : Kept s t) (hf : SecKept t.sec (f t.sec)) : Kept s (t.modSec f) :=
  h.upd (.refl _) hf id

theorem Kept.whenUp {s t : State} {f : State → State} (h : Kept s t) (hf : ∀ u, Kept u (f u)) : Kept s (t.whenUp f) := by
  unfold State.whenUp; split
  · exact h.trans (hf t)
  · exact h

theorem Kept.islRun {s t : State} {c o : Nat} {f : Nat → LgEntry → State → State} (h : Kept s t)
    (hf : ∀ i e u, Kept t u → Kept t (f i e u)) : Kept s (t.islRun c o f) := by
  unfold State.islRun
  split
  · exact h
  · split
    · exact h
    · split
      · exact h.trans (hf _ _ _ (Kept.upd (.refl t) (.same ⟨rfl, rfl, rfl⟩ rfl rfl) (.refl _) id))
      · exact h

end Sys2Proof.Machine
end

