-- ==== Sys2Proof/Laws/KeptTile.lean ====
section
/-! SUPPORT. What `Kept` names is kept by every operation on the tile, the spokes, memory and its streams: one lemma for each. -/
set_option autoImplicit false
namespace Sys2Proof.Machine

/-! ## Ops.lean -/

theorem setTile_kept (s : State) (a1 : Nat) (a2 : Tile) : Kept s (State.setTile s a1 a2) := by
  unfold State.setTile
  with_reducible refine Kept.upd ?_ (.refl _) (.refl _) id
  exact .refl _

theorem modTile_kept (s : State) (a1 : Nat) (a2 : Tile → Tile) : Kept s (State.modTile s a1 a2) := by
  unfold State.modTile
  exact setTile_kept _ _ _

theorem modCtx_kept (s : State) (a1 a2 : Nat) (a3 : CtxSt → CtxSt) : Kept s (State.modCtx s a1 a2 a3) := by
  unfold State.modCtx
  exact modTile_kept _ _ _

theorem modChan_kept (s : State) (a1 : Nat) (a2 : ChanSt → ChanSt) : Kept s (State.modChan s a1 a2) := by
  unfold State.modChan
  refine Kept.upd ?_ ?_ ?_ ?_
  · exact .refl _
  · exact .same ⟨rfl, rfl, rfl⟩ rfl rfl
  · with_reducible exact .refl _
  · with_reducible exact id

theorem modMchan_kept (s : State) (a1 : Nat) (a2 : MemChan → MemChan) : Kept s (State.modMchan s a1 a2) := by
  unfold State.modMchan
  with_reducible refine Kept.upd ?_ (.refl _) (.refl _) id
  exact .refl _

theorem modMrt_kept (s : State) (a1 : Nat) (a2 : MrtEntry → MrtEntry) : Kept s (State.modMrt s a1 a2) := by
  unfold State.modMrt
  with_reducible refine Kept.upd ?_ (.refl _) (.refl _) id
  exact .refl _

theorem bump_kept (s : State) : Kept s (State.bump s) := by
  unfold State.bump
  with_reducible refine Kept.upd ?_ (.refl _) (.refl _) id
  exact .refl _

theorem emit_kept (s : State) (a1 : Nat) (a2 : World) (a3 a4 a5 : Word) :
    Kept s (State.emit s a1 a2 a3 a4 a5) := by
  unfold State.emit
  dsimp only
  split
  · rename_i h
    refine Kept.upd (.refl _) ⟨id, fun _ => ?_, .inl rfl⟩ (.refl _) id
    simp only [List.length_append, List.length_cons, List.length_nil]; omega
  · exact Kept.upd (.refl _) ⟨id, id, .inl rfl⟩ (.refl _) id

theorem lgPut_kept (s : State) (a1 : Nat) (a2 : LgEntry) :
    Kept s (State.lgPut s a1 a2) := by
  refine Kept.upd (.refl _) ⟨fun h => ?_, id, .inl rfl⟩ (.refl _) id
  rw [h.1, h.2]; exact ⟨rfl, rfl⟩

theorem lgFree_kept (s : State) (a1 : Nat) :
    Kept s (State.lgFree s a1) := by
  refine Kept.upd (.refl _) ⟨fun h => ?_, id, .inl rfl⟩ (.refl _) id
  rw [h.1, h.2]; exact ⟨rfl, rfl⟩

theorem complete_kept (s : State) (a1 : Nat) (a2 : Reply) : Kept s (State.complete s a1 a2) := by
  unfold State.complete
  split
  · refine Kept.ite ?_ ?_
    · exact .refl _
    · exact lgPut_kept _ _ _
  · exact .refl _

theorem poolReturn_kept (s : State) (a1 a2 : Nat) : Kept s (State.poolReturn s a1 a2) := by
  unfold State.poolReturn
  refine Kept.ite ?_ ?_
  · with_reducible refine Kept.upd ?_ (.refl _) (.refl _) id
    exact .refl _
  · dsimp only
    refine Kept.trans ?_ (emit_kept _ _ _ _ _ _)
    with_reducible refine Kept.upd ?_ (.refl _) (.refl _) id
    exact .refl _

theorem returnVal_kept (s : State) (a1 : World) (a2 a3 : Nat) : Kept s (State.returnVal s a1 a2 a3) := by
  unfold State.returnVal
  refine Kept.ite ?_ ?_
  · exact poolReturn_kept _ _ _
  · exact .refl _

theorem returnValues_kept (s : State) (a1 a2 : Nat) : Kept s (State.returnValues s a1 a2) := by
  unfold State.returnValues
  dsimp only
  refine Kept.trans ?_ (modCtx_kept _ _ _ _)
  refine Kept.foldl _ _ ?_ (fun _ _ => ?_)
  · exact .refl _
  · split
    · exact returnVal_kept _ _ _ _
    · exact .refl _

theorem beginEnd_kept (s : State) (a1 a2 : Nat) (a3 : EndWhy) : Kept s (State.beginEnd s a1 a2 a3) := by
  unfold State.beginEnd
  dsimp only
  refine Kept.trans ?_ (modTile_kept _ _ _)
  exact returnValues_kept _ _ _

theorem countFault_kept (s : State) (a1 a2 : Nat) : Kept s (State.countFault s a1 a2) := by
  unfold State.countFault
  dsimp only
  refine Kept.ite ?_ ?_
  · with_reducible refine Kept.upd ?_ (.refl _) (.refl _) id
    exact .refl _
  · with_reducible refine Kept.upd ?_ (.refl _) (.refl _) id
    exact .refl _

theorem tileFault_kept (s : State) (a1 a2 : Nat) (a3 : Bool) (a4 a5 a6 : Nat) :
    Kept s (State.tileFault s a1 a2 a3 a4 a5 a6) := by
  unfold State.tileFault
  dsimp only
  refine Kept.ite ?_ ?_
  · refine Kept.trans ?_ (countFault_kept _ _ _)
    refine Kept.trans ?_ (modTile_kept _ _ _)
    exact beginEnd_kept _ _ _ _
  · refine Kept.trans ?_ (modTile_kept _ _ _)
    exact beginEnd_kept _ _ _ _

theorem streamFault_kept (s : State) (a1 a2 a3 a4 : Nat) : Kept s (State.streamFault s a1 a2 a3 a4) := by
  unfold State.streamFault
  exact tileFault_kept _ _ _ _ _ _ _

theorem forgetAcc_kept (s : State) (a1 a2 : Nat) : Kept s (State.forgetAcc s a1 a2) := by
  unfold State.forgetAcc
  refine Kept.ite ?_ ?_
  · refine Kept.trans ?_ (bump_kept _)
    exact modTile_kept _ _ _
  · exact .refl _

theorem finishTask_kept (s : State) (a1 a2 : Nat) : Kept s (State.finishTask s a1 a2) := by
  unfold State.finishTask
  dsimp only
  split
  · exact .refl _
  · refine Kept.trans ?_ (modCtx_kept _ _ _ _)
    refine Kept.trans ?_ (forgetAcc_kept _ _ _)
    exact complete_kept _ _ _

theorem Kept.underHw {s t : State} {p c : Nat} {hw : HwEvent} {mvp : Bool} {entry pc : Nat} {ok : HwEvent → Bool}
    {f : State → State} (h : Kept s t) (hf : ∀ u, Kept t u → Kept t (f u)) : Kept s (t.underHw p c hw mvp entry pc ok f) := by
  refine h.trans ?_
  unfold State.underHw
  split
  · exact hf _ (.refl _)
  · exact hf _ (modTile_kept _ _ _)
  · split
    · exact .refl _
    · split
      · exact tileFault_kept _ _ _ _ _ _ _
      · exact .refl _

/-! ## Array.lean -/

theorem flagWordRead_kept (a0 : Nat) (a1 : Engine) (a2 : World) (s : State) : Kept s (flagWordRead a0 a1 a2 s) := by
  unfold flagWordRead
  refine Kept.ite ?_ ?_
  · with_reducible refine Kept.upd ?_ (.refl _) (.refl _) id
    exact .refl _
  · dsimp only
    refine Kept.trans ?_ (modTile_kept _ _ _)
    with_reducible refine Kept.upd ?_ (.refl _) (.refl _) id
    exact .refl _

theorem load_kept (a0 a1 : Nat) (s : State) : Kept s (load a0 a1 s) := by
  unfold load
  dsimp only
  split
  · refine Kept.ite ?_ ?_
    · exact .refl _
    · split
      · exact tileFault_kept _ _ _ _ _ _ _
      · exact modCtx_kept _ _ _ _
  · exact .refl _

theorem loadBeat_kept (a0 a1 : Nat) (a2 : HwEvent) (s : State) : Kept s (loadBeat a0 a1 a2 s) := by
  unfold loadBeat
  dsimp only
  split
  · refine Kept.ite ?_ ?_
    · exact .refl _
    · refine Kept.underHw ?_ (fun _ _ => ?_)
      · exact .refl _
      · refine Kept.ite ?_ ?_
        · split
          · assumption
          · refine Kept.trans ?_ (modCtx_kept _ _ _ _)
            assumption
        · refine Kept.trans ?_ (modCtx_kept _ _ _ _)
          assumption
  · exact .refl _

theorem planeComplete_kept (a0 a1 : Nat) (s : State) : Kept s (planeComplete a0 a1 s) := by
  unfold planeComplete
  exact modCtx_kept _ _ _ _

theorem tvuFault_kept (s : State) (a1 a2 a3 a4 : Nat) : Kept s (State.tvuFault s a1 a2 a3 a4) := by
  unfold State.tvuFault
  dsimp only
  refine Kept.trans ?_ (tileFault_kept _ _ _ _ _ _ _)
  exact modTile_kept _ _ _

theorem stream_kept (a0 a1 : Nat) (s : State) : Kept s (stream a0 a1 s) := by
  unfold stream
  dsimp only
  split
  · refine Kept.ite ?_ ?_
    · exact .refl _
    · split
      · exact tileFault_kept _ _ _ _ _ _ _
      · refine Kept.ite ?_ ?_
        · exact tileFault_kept _ _ _ _ _ _ _
        · split
          · split
            · refine Kept.trans ?_ (tvuFault_kept _ _ _ _ _)
              exact modCtx_kept _ _ _ _
            · exact modCtx_kept _ _ _ _
          · exact modCtx_kept _ _ _ _
  · exact .refl _

theorem rowIssue_kept (a0 a1 : Nat) (a2 : HwEvent) (s : State) : Kept s (rowIssue a0 a1 a2 s) := by
  unfold rowIssue
  dsimp only
  split
  · exact .refl _
  · refine Kept.ite ?_ ?_
    · exact .refl _
    · refine Kept.underHw ?_ (fun _ _ => ?_)
      · exact .refl _
      · refine Kept.ite ?_ ?_
        · refine Kept.trans ?_ (modTile_kept _ _ _)
          refine Kept.trans ?_ (bump_kept _)
          assumption
        · refine Kept.trans ?_ (modTile_kept _ _ _)
          refine Kept.trans ?_ (bump_kept _)
          assumption

theorem outputVectorWritten_kept (a0 a1 : Nat) (a2 : HwEvent) (s : State) : Kept s (outputVectorWritten a0 a1 a2 s) := by
  unfold outputVectorWritten
  dsimp only
  split
  · exact .refl _
  · refine Kept.ite ?_ ?_
    · exact .refl _
    · refine Kept.underHw ?_ (fun _ _ => ?_)
      · exact .refl _
      · refine Kept.trans ?_ (bump_kept _)
        refine Kept.trans ?_ (setTile_kept _ _ _)
        assumption

theorem drain_kept (a0 a1 : Nat) (a2 : HwEvent) (s : State) : Kept s (drain a0 a1 a2 s) := by
  unfold drain
  dsimp only
  split
  · refine Kept.ite ?_ ?_
    · exact .refl _
    · split
      · exact tileFault_kept _ _ _ _ _ _ _
      · refine Kept.ite ?_ ?_
        · exact tileFault_kept _ _ _ _ _ _ _
        · refine Kept.underHw ?_ (fun _ _ => ?_)
          · exact .refl _
          · refine Kept.trans ?_ (bump_kept _)
            refine Kept.trans ?_ (setTile_kept _ _ _)
            assumption
  · exact .refl _

theorem mvp_kept (a0 : Nat) (a1 : HwEvent) (s : State) : Kept s (mvp a0 a1 s) := by
  unfold mvp
  dsimp only
  split
  · refine Kept.ite ?_ ?_
    · exact .refl _
    · split
      · exact tileFault_kept _ _ _ _ _ _ _
      · refine Kept.underHw ?_ (fun _ _ => ?_)
        · exact .refl _
        · refine Kept.trans ?_ (bump_kept _)
          refine Kept.trans ?_ (setTile_kept _ _ _)
          assumption
  · exact .refl _

theorem fence_kept (a0 a1 : Nat) (s : State) : Kept s (fence a0 a1 s) := by
  unfold fence
  split
  · exact modCtx_kept _ _ _ _
  · exact .refl _

theorem fenceComplete_kept (a0 a1 : Nat) (s : State) : Kept s (fenceComplete a0 a1 s) := by
  unfold fenceComplete
  dsimp only
  refine Kept.ite ?_ ?_
  · exact modCtx_kept _ _ _ _
  · exact .refl _

theorem arrayNop_kept (a0 a1 : Nat) (s : State) : Kept s (arrayNop a0 a1 s) := by
  unfold arrayNop
  split
  · exact modCtx_kept _ _ _ _
  · exact .refl _

theorem stall_kept (a0 a1 : Nat) (s : State) : Kept s (stall a0 a1 s) := by
  unfold stall
  dsimp only
  refine Kept.ite ?_ ?_
  · exact .refl _
  · refine Kept.ite ?_ ?_
    · refine Kept.trans ?_ (tileFault_kept _ _ _ _ _ _ _)
      refine Kept.ite ?_ ?_
      · exact tileFault_kept _ _ _ _ _ _ _
      · exact .refl _
    · refine Kept.ite ?_ ?_
      · exact tileFault_kept _ _ _ _ _ _ _
      · exact .refl _

/-! ## Tvu.lean -/

theorem tvuIssue_kept (a0 : Nat) (a1 : HwEvent) (a2 : Nat) (a3 : Nat → Word32 → Tile → TvuOut) (s : State) :
    Kept s (tvuIssue a0 a1 a2 a3 s) := by
  unfold tvuIssue
  dsimp only
  split
  · exact .refl _
  · refine Kept.ite ?_ ?_
    · exact .refl _
    · refine Kept.ite ?_ ?_
      · exact tvuFault_kept _ _ _ _ _
      · refine Kept.ite ?_ ?_
        · exact tvuFault_kept _ _ _ _ _
        · refine Kept.ite ?_ ?_
          · exact tvuFault_kept _ _ _ _ _
          · refine Kept.ite ?_ ?_
            · exact .refl _
            · refine Kept.ite ?_ ?_
              · exact tvuFault_kept _ _ _ _ _
              · split
                · refine Kept.ite ?_ ?_
                  · exact tvuFault_kept _ _ _ _ _
                  · exact .refl _
                · exact .refl _
                · refine Kept.underHw ?_ (fun _ _ => ?_)
                  · exact .refl _
                  · split
                    · refine Kept.trans ?_ (bump_kept _)
                      refine Kept.trans ?_ (setTile_kept _ _ _)
                      assumption
                    · refine Kept.trans ?_ (tvuFault_kept _ _ _ _ _)
                      assumption

theorem tvuProgramStart_kept (a0 : Nat) (s : State) : Kept s (tvuProgramStart a0 s) := by
  unfold tvuProgramStart
  dsimp only
  split
  · exact setTile_kept _ _ _
  · exact .refl _

theorem cancellationNotice_kept (a0 : Nat) (s : State) : Kept s (cancellationNotice a0 s) := by
  unfold cancellationNotice
  dsimp only
  split
  · refine Kept.ite ?_ ?_
    · exact setTile_kept _ _ _
    · exact .refl _
  · exact .refl _

theorem faultNotice_kept (a0 : Nat) (s : State) : Kept s (faultNotice a0 s) := by
  unfold faultNotice
  dsimp only
  split
  · refine Kept.ite ?_ ?_
    · exact setTile_kept _ _ _
    · exact .refl _
  · exact .refl _

theorem pacelineEvent_kept (a0 : Nat) (s : State) : Kept s (pacelineEvent a0 s) := by
  unfold pacelineEvent
  dsimp only
  split
  · refine Kept.ite ?_ ?_
    · exact setTile_kept _ _ _
    · exact .refl _
  · exact .refl _

theorem tvuNop_kept (a0 : Nat) (a1 : HwEvent) (s : State) : Kept s (tvuNop a0 a1 s) := by
  unfold tvuNop
  exact tvuIssue_kept _ _ _ _ _

theorem tvuEnd_kept (a0 : Nat) (a1 : HwEvent) (s : State) : Kept s (tvuEnd a0 a1 s) := by
  unfold tvuEnd
  exact tvuIssue_kept _ _ _ _ _

theorem tvuBr_kept (a0 : Nat) (a1 : HwEvent) (s : State) : Kept s (tvuBr a0 a1 s) := by
  unfold tvuBr
  exact tvuIssue_kept _ _ _ _ _

theorem tvuBloop_kept (a0 : Nat) (a1 : HwEvent) (s : State) : Kept s (tvuBloop a0 a1 s) := by
  unfold tvuBloop
  exact tvuIssue_kept _ _ _ _ _

theorem tvuRep_kept (a0 : Nat) (a1 : HwEvent) (s : State) : Kept s (tvuRep a0 a1 s) := by
  unfold tvuRep
  exact tvuIssue_kept _ _ _ _ _

theorem tvuRete_kept (a0 : Nat) (a1 : HwEvent) (s : State) : Kept s (tvuRete a0 a1 s) := by
  unfold tvuRete
  exact tvuIssue_kept _ _ _ _ _

theorem tvuEven_kept (a0 : Nat) (a1 : HwEvent) (s : State) : Kept s (tvuEven a0 a1 s) := by
  unfold tvuEven
  exact tvuIssue_kept _ _ _ _ _

theorem tvuWaitv_kept (a0 : Nat) (a1 : HwEvent) (s : State) : Kept s (tvuWaitv a0 a1 s) := by
  unfold tvuWaitv
  exact tvuIssue_kept _ _ _ _ _

theorem waitvComplete_kept (a0 : Nat) (s : State) : Kept s (waitvComplete a0 s) := by
  unfold waitvComplete
  dsimp only
  split
  · split
    · refine Kept.ite ?_ ?_
      · exact setTile_kept _ _ _
      · exact .refl _
    · exact .refl _
  · exact .refl _

theorem tvuRrel_kept (a0 : Nat) (a1 : HwEvent) (s : State) : Kept s (tvuRrel a0 a1 s) := by
  unfold tvuRrel
  exact tvuIssue_kept _ _ _ _ _

theorem tvuFrd_kept (a0 : Nat) (a1 : HwEvent) (s : State) : Kept s (tvuFrd a0 a1 s) := by
  unfold tvuFrd
  exact tvuIssue_kept _ _ _ _ _

theorem tvuFclr_kept (a0 : Nat) (a1 : HwEvent) (s : State) : Kept s (tvuFclr a0 a1 s) := by
  unfold tvuFclr
  exact tvuIssue_kept _ _ _ _ _

theorem tvuRot_kept (a0 : Nat) (a1 : HwEvent) (s : State) : Kept s (tvuRot a0 a1 s) := by
  unfold tvuRot
  exact tvuIssue_kept _ _ _ _ _

theorem tvuSetl_kept (a0 : Nat) (a1 : HwEvent) (s : State) : Kept s (tvuSetl a0 a1 s) := by
  unfold tvuSetl
  exact tvuIssue_kept _ _ _ _ _

theorem tvuSeth_kept (a0 : Nat) (a1 : HwEvent) (s : State) : Kept s (tvuSeth a0 a1 s) := by
  unfold tvuSeth
  exact tvuIssue_kept _ _ _ _ _

theorem tvuSaddi_kept (a0 : Nat) (a1 : HwEvent) (s : State) : Kept s (tvuSaddi a0 a1 s) := by
  unfold tvuSaddi
  exact tvuIssue_kept _ _ _ _ _

theorem tvuSmov_kept (a0 : Nat) (a1 : HwEvent) (s : State) : Kept s (tvuSmov a0 a1 s) := by
  unfold tvuSmov
  exact tvuIssue_kept _ _ _ _ _

theorem tvuVld_kept (a0 : Nat) (a1 : HwEvent) (s : State) : Kept s (tvuVld a0 a1 s) := by
  unfold tvuVld
  exact tvuIssue_kept _ _ _ _ _

theorem tvuVst_kept (a0 : Nat) (a1 : HwEvent) (s : State) : Kept s (tvuVst a0 a1 s) := by
  unfold tvuVst
  exact tvuIssue_kept _ _ _ _ _

theorem tvuVstsh_kept (a0 : Nat) (a1 : HwEvent) (s : State) : Kept s (tvuVstsh a0 a1 s) := by
  unfold tvuVstsh
  exact tvuIssue_kept _ _ _ _ _

theorem tvuVec_kept (a0 : Nat) (a1 : HwEvent) (a2 : Nat) (a3 : Tile → Word32 → Nat → Word32 × List Fl) (s : State) :
    Kept s (tvuVec a0 a1 a2 a3 s) := by
  unfold tvuVec
  exact tvuIssue_kept _ _ _ _ _

theorem tvuVadd_kept (a0 : Nat) (a1 : HwEvent) (s : State) : Kept s (tvuVadd a0 a1 s) := by
  unfold tvuVadd
  exact tvuVec_kept _ _ _ _ _

theorem tvuVsub_kept (a0 : Nat) (a1 : HwEvent) (s : State) : Kept s (tvuVsub a0 a1 s) := by
  unfold tvuVsub
  exact tvuVec_kept _ _ _ _ _

theorem tvuVmul_kept (a0 : Nat) (a1 : HwEvent) (s : State) : Kept s (tvuVmul a0 a1 s) := by
  unfold tvuVmul
  exact tvuVec_kept _ _ _ _ _

theorem tvuVmad_kept (a0 : Nat) (a1 : HwEvent) (s : State) : Kept s (tvuVmad a0 a1 s) := by
  unfold tvuVmad
  exact tvuVec_kept _ _ _ _ _

theorem tvuVmax_kept (a0 : Nat) (a1 : HwEvent) (s : State) : Kept s (tvuVmax a0 a1 s) := by
  unfold tvuVmax
  exact tvuVec_kept _ _ _ _ _

theorem tvuVmin_kept (a0 : Nat) (a1 : HwEvent) (s : State) : Kept s (tvuVmin a0 a1 s) := by
  unfold tvuVmin
  exact tvuVec_kept _ _ _ _ _

theorem tvuVcmp_kept (a0 : Nat) (a1 : HwEvent) (s : State) : Kept s (tvuVcmp a0 a1 s) := by
  unfold tvuVcmp
  exact tvuIssue_kept _ _ _ _ _

theorem tvuVsel_kept (a0 : Nat) (a1 : HwEvent) (s : State) : Kept s (tvuVsel a0 a1 s) := by
  unfold tvuVsel
  exact tvuVec_kept _ _ _ _ _

theorem tvuVcvt_kept (a0 : Nat) (a1 : HwEvent) (s : State) : Kept s (tvuVcvt a0 a1 s) := by
  unfold tvuVcvt
  exact tvuVec_kept _ _ _ _ _

theorem tvuVshr_kept (a0 : Nat) (a1 : HwEvent) (s : State) : Kept s (tvuVshr a0 a1 s) := by
  unfold tvuVshr
  exact tvuVec_kept _ _ _ _ _

theorem tvuVshl_kept (a0 : Nat) (a1 : HwEvent) (s : State) : Kept s (tvuVshl a0 a1 s) := by
  unfold tvuVshl
  exact tvuVec_kept _ _ _ _ _

theorem tvuVexp_kept (a0 : Nat) (a1 : HwEvent) (s : State) : Kept s (tvuVexp a0 a1 s) := by
  unfold tvuVexp
  exact tvuVec_kept _ _ _ _ _

theorem tvuVrcp_kept (a0 : Nat) (a1 : HwEvent) (s : State) : Kept s (tvuVrcp a0 a1 s) := by
  unfold tvuVrcp
  exact tvuVec_kept _ _ _ _ _

theorem tvuVrsq_kept (a0 : Nat) (a1 : HwEvent) (s : State) : Kept s (tvuVrsq a0 a1 s) := by
  unfold tvuVrsq
  exact tvuVec_kept _ _ _ _ _

theorem tvuVtanh_kept (a0 : Nat) (a1 : HwEvent) (s : State) : Kept s (tvuVtanh a0 a1 s) := by
  unfold tvuVtanh
  exact tvuVec_kept _ _ _ _ _

theorem tvuReduce_kept (a0 : Nat) (a1 : HwEvent) (a2 : Nat) (a3 : Bool) (a4 : Word32) (s : State) :
    Kept s (tvuReduce a0 a1 a2 a3 a4 s) := by
  unfold tvuReduce
  exact tvuIssue_kept _ _ _ _ _

theorem tvuVrsum_kept (a0 : Nat) (a1 : HwEvent) (s : State) : Kept s (tvuVrsum a0 a1 s) := by
  unfold tvuVrsum
  exact tvuReduce_kept _ _ _ _ _ _

theorem tvuVrmax_kept (a0 : Nat) (a1 : HwEvent) (s : State) : Kept s (tvuVrmax a0 a1 s) := by
  unfold tvuVrmax
  exact tvuReduce_kept _ _ _ _ _ _

theorem tvuVbin2_kept (a0 : Nat) (a1 : HwEvent) (s : State) : Kept s (tvuVbin2 a0 a1 s) := by
  unfold tvuVbin2
  exact tvuVec_kept _ _ _ _ _

theorem tvuVslide_kept (a0 : Nat) (a1 : HwEvent) (s : State) : Kept s (tvuVslide a0 a1 s) := by
  unfold tvuVslide
  exact tvuVec_kept _ _ _ _ _

theorem tvuVbcst_kept (a0 : Nat) (a1 : HwEvent) (s : State) : Kept s (tvuVbcst a0 a1 s) := by
  unfold tvuVbcst
  exact tvuVec_kept _ _ _ _ _

theorem tvuVsplat_kept (a0 : Nat) (a1 : HwEvent) (s : State) : Kept s (tvuVsplat a0 a1 s) := by
  unfold tvuVsplat
  exact tvuIssue_kept _ _ _ _ _

/-! ## Spokes.lean -/

theorem modSide_kept (s : State) (a1 : Nat) (a2 : SpokeSide → SpokeSide) : Kept s (State.modSide s a1 a2) := by
  unfold State.modSide
  with_reducible refine Kept.upd ?_ (.refl _) (.refl _) id
  exact .refl _

theorem drive_kept (s : State) (a1 : Nat) (a2 : Token) : Kept s (State.drive s a1 a2) := by
  unfold State.drive
  exact modSide_kept _ _ _

theorem eject_kept (s : State) (a1 : Nat) (a2 : Token) : Kept s (State.eject s a1 a2) := by
  unfold State.eject
  dsimp only
  split
  · with_reducible refine Kept.upd ?_ (.refl _) (.refl _) id
    exact .refl _
  · exact .refl _
  · with_reducible refine Kept.upd ?_ (.refl _) (.refl _) id
    exact .refl _
  · with_reducible refine Kept.upd ?_ (.refl _) (.refl _) id
    exact .refl _
  · with_reducible refine Kept.upd ?_ (.refl _) (.refl _) id
    exact .refl _

theorem pass_kept (s : State) (a1 a2 a3 : Nat) (a4 : Token) : Kept s (State.pass s a1 a2 a3 a4) := by
  unfold State.pass
  dsimp only
  refine Kept.ite ?_ ?_
  · refine Kept.trans ?_ (eject_kept _ _ _)
    with_reducible refine Kept.upd ?_ (.refl _) (.refl _) id
    exact .refl _
  · refine Kept.trans ?_ (drive_kept _ _ _)
    with_reducible refine Kept.upd ?_ (.refl _) (.refl _) id
    exact .refl _

theorem pump_kept (n k : Nat) (s : State) : Kept s (pump n k s) := by
  induction k generalizing s with
  | zero => exact .refl _
  | succ k ih =>
    unfold pump
    split
    · exact .refl _
    · exact (Kept.trans (Kept.upd (.refl _) (.refl _) (.refl _) id) (pass_kept _ _ _ _ _)).trans (ih _)

theorem pumpDie_kept (s : State) (a1 : Nat) : Kept s (State.pumpDie s a1) := by
  unfold State.pumpDie
  exact pump_kept _ _ _

theorem refill_kept (n : Nat) (ts : List Token) (s : State) : Kept s (refill n ts s).1 := by
  induction ts generalizing s with
  | nil => exact .refl _
  | cons t rest ih =>
    unfold refill
    split
    · exact Kept.iteFst ((Kept.ite (eject_kept _ _ _) (drive_kept _ _ _)).trans (ih _)) (.refl _)
    · exact .refl _

theorem routerGo_kept (s : State) (a1 : Nat) : Kept s (State.routerGo s a1) := by
  unfold State.routerGo
  dsimp only
  refine Kept.trans ?_ (pumpDie_kept _ _)
  split
  · exact .refl _
  · with_reducible refine Kept.upd ?_ (.refl _) (.refl _) id
    exact refill_kept _ _ _

theorem inject_kept (s : State) (a1 a2 : Nat) (a3 : List Token) : Kept s (State.inject s a1 a2 a3) := by
  unfold State.inject
  dsimp only
  split
  · exact .refl _
  · refine Kept.ite ?_ ?_
    · exact .refl _
    · refine Kept.trans ?_ (pumpDie_kept _ _)
      with_reducible refine Kept.upd ?_ (.refl _) (.refl _) id
      exact .refl _

theorem send_kept (s : State) (a1 a2 : Nat) (a3 : Msg) : Kept s (State.send s a1 a2 a3) := by
  unfold State.send
  dsimp only
  exact inject_kept _ _ _ _

theorem sendTile_kept (s : State) (a1 : Nat) (a2 : Msg) : Kept s (State.sendTile s a1 a2) := by
  unfold State.sendTile
  exact send_kept _ _ _ _

theorem dropLoads_kept (s : State) (a1 : Load → Bool) : Kept s (State.dropLoads s a1) := by
  unfold State.dropLoads
  dsimp only
  with_reducible refine Kept.upd ?_ (.refl _) (.refl _) id
  exact .refl _

theorem spokeTokenReceived_kept (a0 : Nat) (a1 : List (BitVec 4)) (s : State) : Kept s (spokeTokenReceived a0 a1 s) := by
  unfold spokeTokenReceived
  dsimp only
  refine Kept.ite ?_ ?_
  · exact .refl _
  · refine Kept.ite ?_ ?_
    · exact modSide_kept _ _ _
    · split
      · refine Kept.ite ?_ ?_
        · exact .refl _
        · refine Kept.ite ?_ ?_
          · exact modSide_kept _ _ _
          · refine Kept.ite ?_ ?_
            · exact .refl _
            · exact modSide_kept _ _ _
      · exact .refl _

theorem acknowledgeTransition_kept (a0 : Nat) (s : State) : Kept s (acknowledgeTransition a0 s) := by
  unfold acknowledgeTransition
  dsimp only
  refine Kept.ite ?_ ?_
  · exact .refl _
  · refine Kept.trans ?_ (routerGo_kept _ _)
    exact modSide_kept _ _ _

theorem creditReturn_kept (a0 : Nat) (a1 : Bool) (s : State) : Kept s (creditReturn a0 a1 s) := by
  unfold creditReturn
  dsimp only
  split
  · exact .refl _
  · split
    · exact .refl _
    · refine Kept.ite ?_ ?_
      · refine Kept.trans ?_ (routerGo_kept _ _)
        refine Kept.trans ?_ (routerGo_kept _ _)
        refine Kept.trans ?_ (pass_kept _ _ _ _ _)
        exact modSide_kept _ _ _
      · exact .refl _

theorem stallDetected_kept (a0 : Nat) (s : State) : Kept s (stallDetected a0 s) := by
  unfold stallDetected
  dsimp only
  refine Kept.ite ?_ ?_
  · exact .refl _
  · exact modSide_kept _ _ _

theorem addSwap_kept (s : State) (a1 : SwapJob) : Kept s (State.addSwap s a1) := by
  unfold State.addSwap
  with_reducible refine Kept.upd ?_ (.refl _) (.refl _) id
  exact .refl _

theorem handBack_kept (s : State) (a1 : Nat) : Kept s (State.handBack s a1) := by
  unfold State.handBack
  dsimp only
  refine Kept.trans ?_ (modSide_kept _ _ _)
  with_reducible refine Kept.upd ?_ (.refl _) (.refl _) id
  exact .refl _

theorem failSpoke_kept (s : State) (a1 a2 : Nat) : Kept s (State.failSpoke s a1 a2) := by
  unfold State.failSpoke
  refine Kept.ite ?_ ?_
  · exact .refl _
  · dsimp only
    refine Kept.trans ?_ (addSwap_kept _ _)
    refine Kept.trans ?_ (modSide_kept _ _ _)
    refine Kept.trans ?_ (handBack_kept _ _)
    refine Kept.trans ?_ (modSide_kept _ _ _)
    exact handBack_kept _ _

theorem wireTestComplete_kept (a0 : Nat) (a1 : WireTest) (s : State) : Kept s (wireTestComplete a0 a1 s) := by
  unfold wireTestComplete
  refine Kept.ite ?_ ?_
  · exact .refl _
  · refine Kept.ite ?_ ?_
    · exact failSpoke_kept _ _ _
    · dsimp only
      refine Kept.ite ?_ ?_
      · exact modSide_kept _ _ _
      · refine Kept.trans ?_ (emit_kept _ _ _ _ _ _)
        exact modSide_kept _ _ _

/-! ## Mem.lean -/

theorem restate_kept (s : State) (a1 : Nat) : Kept s (State.restate s a1) := by
  unfold State.restate
  dsimp only
  refine Kept.ite ?_ ?_
  · exact .refl _
  · refine Kept.trans ?_ (emit_kept _ _ _ _ _ _)
    exact modMrt_kept _ _ _

theorem memRespond_kept (s : State) (a1 : MemReq) (a2 : Nat) (a3 : List Byte) : Kept s (State.memRespond s a1 a2 a3) := by
  unfold State.memRespond
  dsimp only
  exact inject_kept _ _ _ _

theorem partDone_kept (s : State) (a1 : Nat) (a2 : List (Nat × List Byte)) (a3 : Nat) : Kept s (State.partDone s a1 a2 a3) := by
  unfold State.partDone
  dsimp only
  split
  · exact .refl _
  · refine Kept.ite ?_ ?_
    · refine Kept.trans ?_ (memRespond_kept _ _ _ _)
      refine Kept.setMem ?_ ?_
      · exact .refl _
      · with_reducible exact id
    · refine Kept.setMem ?_ ?_
      · exact .refl _
      · with_reducible exact id

theorem rehome_kept (s : State) (a1 : Nat) (a2 : Part) : Kept s (State.rehome s a1 a2) := by
  unfold State.rehome
  dsimp only
  refine Kept.ite ?_ ?_
  · exact modMchan_kept _ _ _
  · refine Kept.ite ?_ ?_
    · exact .refl _
    · exact partDone_kept _ _ _ _

theorem failDevice_kept (s : State) (dev cause : Nat) : Kept s (s.failDevice dev cause) := by
  unfold State.failDevice
  refine Kept.ite (.refl _) ?_
  dsimp only
  refine Kept.foldl _ _ ?_ (fun _ _ => restate_kept _ _)
  refine Kept.foldl _ _ ?_ (fun _ _ => ?_)
  · refine Kept.trans ?_ (emit_kept _ _ _ _ _ _)
    exact Kept.upd (Kept.setMem (.refl _) id) (.same ⟨rfl, rfl, rfl⟩ rfl rfl) (.refl _) id
  · exact Kept.foldl _ _ (modMchan_kept _ _ _) (fun _ _ => rehome_kept _ _ _)

theorem markBad_kept (s : State) (a1 a2 : Nat) : Kept s (State.markBad s a1 a2) := by
  unfold State.markBad
  dsimp only
  refine Kept.ite ?_ ?_
  · exact .refl _
  · refine Kept.ite ?_ ?_
    · refine Kept.trans ?_ (failDevice_kept _ _ _)
      refine Kept.trans ?_ (modMchan_kept _ _ _)
      refine Kept.setMem ?_ ?_
      · exact .refl _
      · with_reducible exact id
    · refine Kept.trans ?_ (modMchan_kept _ _ _)
      refine Kept.setMem ?_ ?_
      · exact .refl _
      · with_reducible exact id

theorem clearBad_kept (s : State) (a1 : Bool) (a2 a3 : Nat) : Kept s (State.clearBad s a1 a2 a3) := by
  unfold State.clearBad
  dsimp only
  refine Kept.setMem ?_ ?_
  · exact .refl _
  · with_reducible exact id

theorem rising_memPut (k : Nat) (bs : List Byte) (m : List Host.Cell) (h : Rising m) : Rising (memPut k bs m) := by
  have g : ∀ (l : List (Byte × Nat)) (m : List Host.Cell), Rising m → Rising (l.foldl (fun m p => tput (k + p.2) p.1 m) m) := by
    intro l; induction l with
    | nil => intro m h; exact h
    | cons x r ih => intro m h; exact ih _ (rising_tput _ _ h)
  exact g _ m h

theorem rising_areas (n : Nat) (areas : List Nat) (m : List Host.Cell) (h : Rising m) :
    Rising (areas.foldl (fun cs lo => tclear lo (lo + n) cs) m) := by
  induction areas generalizing m with
  | nil => exact h
  | cons x r ih => exact ih _ (rising_tclear _ _ h)

theorem putBytes_kept (s : State) (ch off : Nat) (bs : List Byte) : Kept s (s.putBytes ch off bs) :=
  Kept.setMem (.refl _) (rising_memPut _ _ _)

theorem store_kept (s : State) (a1 : Bool) (a2 a3 : Nat) (a4 : List Byte) : Kept s (State.store s a1 a2 a3 a4) := by
  unfold State.store
  dsimp only
  refine Kept.ite ?_ ?_
  · refine Kept.setMem ?_ ?_
    · exact putBytes_kept _ _ _ _
    · with_reducible exact id
  · exact putBytes_kept _ _ _ _

theorem flipWord_kept (s : State) (a1 a2 : Nat) (a3 : List (Nat × Sym)) : Kept s (State.flipWord s a1 a2 a3) := by
  unfold State.flipWord
  refine Kept.ite ?_ ?_
  · exact .refl _
  · exact putBytes_kept _ _ _ _

theorem eccWord_kept (s : State) (a1 a2 : Nat) (a3 : List CodeWordError) : Kept s (State.eccWord s a1 a2 a3) := by
  unfold State.eccWord
  refine Kept.ite ?_ ?_
  · exact .refl _
  · dsimp only
    split
    · exact .refl _
    · split
      · exact flipWord_kept _ _ _ _
      · refine Kept.trans ?_ (flipWord_kept _ _ _ _)
        exact modMchan_kept _ _ _
      · exact markBad_kept _ _ _

theorem eccSpot_kept (s : State) (a1 : Bool) (a2 : Nat × Nat) (a3 : List CodeWordError) :
    Kept s (State.eccSpot s a1 a2 a3) := by
  unfold State.eccSpot
  refine Kept.ite ?_ ?_
  · exact .refl _
  · refine Kept.foldl _ _ ?_ (fun _ _ => ?_)
    · exact .refl _
    · exact eccWord_kept _ _ _ _

theorem repair_kept (s : State) (a1 : MrtEntry) (a2 a3 a4 : Nat) (a5 : List CodeWordError) :
    Kept s (State.repair s a1 a2 a3 a4 a5).1 := by
  unfold State.repair
  dsimp only
  refine Kept.iteFst ?_ ?_
  · dsimp only
    exact .refl _
  · refine Kept.iteFst ?_ ?_
    · dsimp only
      refine Kept.trans ?_ (store_kept _ _ _ _ _)
      refine Kept.trans ?_ (clearBad_kept _ _ _ _)
      exact eccSpot_kept _ _ _ _
    · dsimp only
      exact eccSpot_kept _ _ _ _

theorem applyWrite_kept (s : State) (a1 : Nat) (a2 : Part) (a3 : List CodeWordError) :
    Kept s (State.applyWrite s a1 a2 a3).1 := by
  unfold State.applyWrite
  dsimp only
  refine Kept.foldlFst _ _ ?_ (fun _ _ => ?_)
  · dsimp only
    exact .refl _
  · refine Kept.iteFst ?_ ?_
    · dsimp only
      refine Kept.trans ?_ (store_kept _ _ _ _ _)
      exact clearBad_kept _ _ _ _
    · refine Kept.iteFst ?_ ?_
      · refine Kept.iteFst ?_ ?_
        · dsimp only
          refine Kept.trans ?_ (store_kept _ _ _ _ _)
          exact repair_kept _ _ _ _ _ _
        · dsimp only
          exact repair_kept _ _ _ _ _ _
      · dsimp only
        exact store_kept _ _ _ _ _

theorem forgetArea_kept (s : State) (ix : Nat) (e : MrtEntry) : Kept s (s.forgetArea ix e) := by
  unfold State.forgetArea
  dsimp only
  refine Kept.setMem (.refl _) (fun h => ?_)
  with_reducible exact rising_areas _ _ _ h

theorem enqueue_kept (s : State) (a1 : Nat × Part) : Kept s (State.enqueue s a1) := by
  unfold State.enqueue
  exact modMchan_kept _ _ _

theorem takeRequest_kept (s : State) (r : MemReq) : ∀ u, s.takeRequest r = some u → Kept s u := by
  have hite : ∀ {c : Prop} [Decidable c] {a b : Option State}, (∀ u, a = some u → Kept s u) → (∀ u, b = some u → Kept s u) →
      ∀ u, (if c then a else b) = some u → Kept s u := by
    intro c _ a b ha hb u; split
    · exact ha u
    · exact hb u
  have hsome : ∀ {t : State}, Kept s t → ∀ u, some t = some u → Kept s u := by
    intro t h u e; cases e; exact h
  unfold State.takeRequest
  dsimp only
  have base : ∀ parts fwd, Kept s ((List.foldl (fun (s : State) (x : Nat × Part) => s.enqueue x)
      (s.setMem (fun m => { m with nextId := m.nextId + 1 })) parts).setMem (fun m => { m with copies := m.copies ++ fwd })) := by
    intro parts fwd
    exact Kept.setMem (Kept.foldl _ _ (Kept.setMem (.refl _) id) (fun _ _ => enqueue_kept _ _)) id
  refine hite (hsome (memRespond_kept _ _ _ _)) (hite (fun u e => by cases e) (hite ?_ ?_))
  · exact hsome ((base _ _).trans (memRespond_kept _ _ _ _))
  · exact hsome (Kept.setMem (base _ _) id)

theorem memoryRequest_kept (m port : Nat) (s : State) : Kept s (memoryRequest m port s) := by
  unfold memoryRequest
  split
  · exact .refl _
  · dsimp only
    split
    · exact (Kept.setMem (.refl _) id).trans (memRespond_kept _ _ _ _)
    · split
      · rename_i h; exact (Kept.setMem (.refl _) id).trans (takeRequest_kept _ _ _ h)
      · exact .refl _

theorem sendReq_kept (s : State) (a1 : MemReq) : Kept s (State.sendReq s a1) := by
  unfold State.sendReq
  dsimp only
  exact inject_kept _ _ _ _

theorem rtFill_kept (s : State) (a1 : Nat) (a2 : Nat → Nat) : Kept s (State.rtFill s a1 a2) := by
  unfold State.rtFill
  refine Kept.setMem ?_ ?_
  · exact .refl _
  · with_reducible exact id

theorem lowerRaa_kept (s : State) (a1 a2 : Nat) : Kept s (State.lowerRaa s a1 a2) := by
  unfold State.lowerRaa
  split
  · exact modMchan_kept _ _ _
  · exact .refl _

theorem activate_kept (s : State) (a1 a2 a3 : Nat) : Kept s (State.activate s a1 a2 a3) := by
  unfold State.activate
  dsimp only
  exact modMchan_kept _ _ _

theorem issueDue_kept (s : State) (a1 : Nat) (a2 : Due) : Kept s (State.issueDue s a1 a2) := by
  unfold State.issueDue
  dsimp only
  split
  · refine Kept.trans ?_ (lowerRaa_kept _ _ _)
    refine Kept.trans ?_ (modMchan_kept _ _ _)
    exact modMchan_kept _ _ _
  · refine Kept.trans ?_ (modMchan_kept _ _ _)
    refine Kept.trans ?_ (activate_kept _ _ _ _)
    exact modMchan_kept _ _ _
  · refine Kept.trans ?_ (lowerRaa_kept _ _ _)
    refine Kept.trans ?_ (modMchan_kept _ _ _)
    exact modMchan_kept _ _ _
  · refine Kept.trans ?_ (bump_kept _)
    refine Kept.trans ?_ (modMchan_kept _ _ _)
    exact modMchan_kept _ _ _

theorem openRow_kept (s : State) (a1 a2 : Nat) : Kept s (State.openRow s a1 a2) := by
  unfold State.openRow
  dsimp only
  refine Kept.ite ?_ ?_
  · exact .refl _
  · refine Kept.trans ?_ (activate_kept _ _ _ _)
    refine Kept.ite ?_ ?_
    · exact issueDue_kept _ _ _
    · exact .refl _

theorem openRows_kept (s : State) (a1 : Nat) (a2 : Part) : Kept s (State.openRows s a1 a2) := by
  unfold State.openRows
  refine Kept.foldl _ _ ?_ (fun _ _ => ?_)
  · exact .refl _
  · exact openRow_kept _ _ _

theorem readPart_kept (s : State) (a1 : Nat) (a2 : Part) (a3 : List CodeWordError) : Kept s (State.readPart s a1 a2 a3).1 := by
  unfold State.readPart
  dsimp only
  refine Kept.foldlFst _ _ ?_ (fun _ _ => ?_)
  · dsimp only
    exact .refl _
  · refine Kept.iteFst ?_ ?_
    · dsimp only
      exact .refl _
    · refine Kept.iteFst ?_ ?_
      · dsimp only
        exact repair_kept _ _ _ _ _ _
      · dsimp only
        exact repair_kept _ _ _ _ _ _

theorem eccSeen_kept (s : State) (a1 : Nat) (a2 : Part) (a3 : List CodeWordError) : Kept s (State.eccSeen s a1 a2 a3) := by
  unfold State.eccSeen
  refine Kept.ite ?_ ?_
  · refine Kept.ite ?_ ?_
    · exact .refl _
    · split
      · exact .refl _
      · exact eccSpot_kept _ _ _ _
  · refine Kept.foldl _ _ ?_ (fun _ _ => ?_)
    · exact .refl _
    · refine Kept.ite ?_ ?_
      · exact .refl _
      · exact eccSpot_kept _ _ _ _

theorem issuePart_kept (s : State) (a1 : Nat) (a2 : Part) (a3 : List CodeWordError) : Kept s (State.issuePart s a1 a2 a3) := by
  unfold State.issuePart
  dsimp only
  refine Kept.ite ?_ ?_
  · refine Kept.trans ?_ (rehome_kept _ _ _)
    refine Kept.trans ?_ (eccSeen_kept _ _ _ _)
    refine Kept.trans ?_ (openRows_kept _ _ _)
    exact modMchan_kept _ _ _
  · refine Kept.ite ?_ ?_
    · refine Kept.ite ?_ ?_
      · refine Kept.trans ?_ (partDone_kept _ _ _ _)
        refine Kept.trans ?_ (applyWrite_kept _ _ _ _)
        refine Kept.trans ?_ (eccSeen_kept _ _ _ _)
        refine Kept.trans ?_ (openRows_kept _ _ _)
        exact modMchan_kept _ _ _
      · refine Kept.trans ?_ (applyWrite_kept _ _ _ _)
        refine Kept.trans ?_ (eccSeen_kept _ _ _ _)
        refine Kept.trans ?_ (openRows_kept _ _ _)
        exact modMchan_kept _ _ _
    · refine Kept.trans ?_ (bump_kept _)
      refine Kept.trans ?_ (partDone_kept _ _ _ _)
      refine Kept.trans ?_ (readPart_kept _ _ _ _)
      refine Kept.trans ?_ (eccSeen_kept _ _ _ _)
      refine Kept.trans ?_ (openRows_kept _ _ _)
      exact modMchan_kept _ _ _

theorem catchUp_kept (s : State) (a1 : Nat) : Kept s (State.catchUp s a1) := by
  unfold State.catchUp
  refine Kept.ite ?_ ?_
  · exact .refl _
  · exact modMchan_kept _ _ _

theorem commandSlot_kept (a0 a1 : Nat) (a2 : List (Fin 16)) (a3 : List CodeWordError) (s : State) :
    Kept s (commandSlot a0 a1 a2 a3 s) := by
  unfold commandSlot
  dsimp only
  refine Kept.ite ?_ ?_
  · exact .refl _
  · split
    · refine Kept.trans ?_ (issueDue_kept _ _ _)
      exact catchUp_kept _ _
    · split
      · refine Kept.trans ?_ (issuePart_kept _ _ _ _)
        exact catchUp_kept _ _
      · exact catchUp_kept _ _

theorem mirrorCopy_kept (a0 a1 : Nat) (s : State) : Kept s (mirrorCopy a0 a1 s) := by
  unfold mirrorCopy
  dsimp only
  split
  · exact .refl _
  · refine Kept.ite ?_ ?_
    · refine Kept.trans ?_ (partDone_kept _ _ _ _)
      refine Kept.setMem ?_ ?_
      · exact .refl _
      · with_reducible exact id
    · refine Kept.ite ?_ ?_
      · exact .refl _
      · refine Kept.trans ?_ (partDone_kept _ _ _ _)
        refine Kept.trans ?_ (enqueue_kept _ _)
        refine Kept.setMem ?_ ?_
        · exact .refl _
        · with_reducible exact id

theorem refreshDue_kept (a0 a1 : Nat) (s : State) : Kept s (refreshDue a0 a1 s) := by
  unfold refreshDue
  dsimp only
  refine Kept.ite ?_ ?_
  · exact .refl _
  · refine Kept.ite ?_ ?_
    · exact modMchan_kept _ _ _
    · exact modMchan_kept _ _ _

theorem flush_kept (s : State) (a1 : Nat) : Kept s (State.flush s a1) := by
  unfold State.flush
  dsimp only
  refine Kept.foldl _ _ ?_ (fun _ _ => ?_)
  · refine Kept.foldl _ _ ?_ (fun _ _ => ?_)
    · exact .refl _
    · exact issuePart_kept _ _ _ _
  · refine Kept.trans ?_ (partDone_kept _ _ _ _)
    refine Kept.trans ?_ (applyWrite_kept _ _ _ _)
    refine Kept.trans ?_ (openRows_kept _ _ _)
    refine Kept.setMem ?_ ?_
    · exact .refl _
    · with_reducible exact id

theorem keelPass_kept (s : State) (a1 a2 : Nat) (a3 : Bool) : Kept s (State.keelPass s a1 a2 a3) := by
  unfold State.keelPass
  refine Kept.trans ?_ (openRow_kept _ _ _)
  refine Kept.ite ?_ ?_
  · exact modMchan_kept _ _ _
  · exact .refl _

theorem rewriteCopy_kept (s : State) (a1 : Bool) (a2 a3 : Nat × Nat) : Kept s (State.rewriteCopy s a1 a2 a3) := by
  unfold State.rewriteCopy
  dsimp only
  refine Kept.ite ?_ ?_
  · exact clearBad_kept _ _ _ _
  · refine Kept.trans ?_ (store_kept _ _ _ _ _)
    exact clearBad_kept _ _ _ _

theorem eccRead_kept (s : State) (a1 : Nat) (a2 : Bool) (a3 : List CodeWordError) : Kept s (State.eccRead s a1 a2 a3) := by
  unfold State.eccRead
  dsimp only
  split
  · exact .refl _
  · refine Kept.ite ?_ ?_
    · exact .refl _
    · refine Kept.ite ?_ ?_
      · exact keelPass_kept _ _ _ _
      · refine Kept.trans ?_ (eccSpot_kept _ _ _ _)
        exact keelPass_kept _ _ _ _
  · refine Kept.ite ?_ ?_
    · refine Kept.ite ?_ ?_
      · exact .refl _
      · refine Kept.ite ?_ ?_
        · exact keelPass_kept _ _ _ _
        · refine Kept.trans ?_ (eccSpot_kept _ _ _ _)
          exact keelPass_kept _ _ _ _
    · refine Kept.ite ?_ ?_
      · refine Kept.trans ?_ (rewriteCopy_kept _ _ _ _)
        refine Kept.ite ?_ ?_
        · refine Kept.ite ?_ ?_
          · exact .refl _
          · refine Kept.ite ?_ ?_
            · exact keelPass_kept _ _ _ _
            · refine Kept.trans ?_ (eccSpot_kept _ _ _ _)
              exact keelPass_kept _ _ _ _
        · refine Kept.ite ?_ ?_
          · refine Kept.trans ?_ (keelPass_kept _ _ _ _)
            refine Kept.ite ?_ ?_
            · exact .refl _
            · refine Kept.ite ?_ ?_
              · exact keelPass_kept _ _ _ _
              · refine Kept.trans ?_ (eccSpot_kept _ _ _ _)
                exact keelPass_kept _ _ _ _
          · refine Kept.trans ?_ (eccSpot_kept _ _ _ _)
            refine Kept.trans ?_ (keelPass_kept _ _ _ _)
            refine Kept.ite ?_ ?_
            · exact .refl _
            · refine Kept.ite ?_ ?_
              · exact keelPass_kept _ _ _ _
              · refine Kept.trans ?_ (eccSpot_kept _ _ _ _)
                exact keelPass_kept _ _ _ _
      · refine Kept.ite ?_ ?_
        · refine Kept.ite ?_ ?_
          · exact .refl _
          · refine Kept.ite ?_ ?_
            · exact keelPass_kept _ _ _ _
            · refine Kept.trans ?_ (eccSpot_kept _ _ _ _)
              exact keelPass_kept _ _ _ _
        · refine Kept.ite ?_ ?_
          · refine Kept.trans ?_ (keelPass_kept _ _ _ _)
            refine Kept.ite ?_ ?_
            · exact .refl _
            · refine Kept.ite ?_ ?_
              · exact keelPass_kept _ _ _ _
              · refine Kept.trans ?_ (eccSpot_kept _ _ _ _)
                exact keelPass_kept _ _ _ _
          · refine Kept.trans ?_ (eccSpot_kept _ _ _ _)
            refine Kept.trans ?_ (keelPass_kept _ _ _ _)
            refine Kept.ite ?_ ?_
            · exact .refl _
            · refine Kept.ite ?_ ?_
              · exact keelPass_kept _ _ _ _
              · refine Kept.trans ?_ (eccSpot_kept _ _ _ _)
                exact keelPass_kept _ _ _ _

theorem eccRange_kept (s : State) (a1 a2 : Nat) (a3 : List CodeWordError) : Kept s (State.eccRange s a1 a2 a3) := by
  unfold State.eccRange
  refine Kept.foldl _ _ ?_ (fun _ _ => ?_)
  · exact .refl _
  · exact eccRead_kept _ _ _ _

theorem eccWrite_kept (s : State) (a1 a2 : Nat) (a3 : List CodeWordError) : Kept s (State.eccWrite s a1 a2 a3) := by
  unfold State.eccWrite
  refine Kept.foldl _ _ ?_ (fun _ _ => ?_)
  · exact .refl _
  · dsimp only
    refine Kept.ite ?_ ?_
    · exact .refl _
    · refine Kept.foldl _ _ ?_ (fun _ _ => ?_)
      · exact .refl _
      · exact eccSpot_kept _ _ _ _

theorem writeWord_kept (s : State) (a1 : Nat) (a2 a3 : Bool) (a4 : List Byte) : Kept s (State.writeWord s a1 a2 a3 a4).1 := by
  unfold State.writeWord
  dsimp only
  refine Kept.iteFst ?_ ?_
  · dsimp only
    exact .refl _
  · split
    · dsimp only
      refine Kept.foldl _ _ ?_ (fun _ _ => ?_)
      · refine Kept.foldl _ _ ?_ (fun _ _ => ?_)
        · exact .refl _
        · refine Kept.trans ?_ (keelPass_kept _ _ _ _)
          exact flush_kept _ _
      · refine Kept.trans ?_ (store_kept _ _ _ _ _)
        refine Kept.ite ?_ ?_
        · exact clearBad_kept _ _ _ _
        · refine Kept.ite ?_ ?_
          · exact rewriteCopy_kept _ _ _ _
          · exact .refl _
    · refine Kept.iteFst ?_ ?_
      · dsimp only
        refine Kept.foldl _ _ ?_ (fun _ _ => ?_)
        · refine Kept.foldl _ _ ?_ (fun _ _ => ?_)
          · exact .refl _
          · refine Kept.trans ?_ (keelPass_kept _ _ _ _)
            exact flush_kept _ _
        · refine Kept.trans ?_ (store_kept _ _ _ _ _)
          exact clearBad_kept _ _ _ _
      · dsimp only
        refine Kept.foldl _ _ ?_ (fun _ _ => ?_)
        · exact .refl _
        · refine Kept.trans ?_ (keelPass_kept _ _ _ _)
          exact flush_kept _ _

theorem memWrite_kept (s : State) (a : Nat) (bs : List Byte) : Kept s (s.memWrite a bs).1 := by
  unfold State.memWrite
  refine Kept.foldlFst _ _ (.refl _) (fun acc c => ?_)
  exact writeWord_kept _ _ _ _ _

theorem commandTimeout_kept (a0 a1 : Nat) (s : State) : Kept s (commandTimeout a0 a1 s) := by
  unfold commandTimeout
  dsimp only
  refine Kept.ite ?_ ?_
  · exact failDevice_kept _ _ _
  · exact .refl _

theorem mrtSet_kept (s : State) (a1 : Nat) (a2 : Word) : Kept s (State.mrtSet s a1 a2) := by
  unfold State.mrtSet
  dsimp only
  refine Kept.ite ?_ ?_
  · exact .refl _
  · refine Kept.ite ?_ ?_
    · exact .refl _
    · refine Kept.ite ?_ ?_
      · exact modMrt_kept _ _ _
      · refine Kept.ite ?_ ?_
        · exact modMrt_kept _ _ _
        · refine Kept.trans ?_ (restate_kept _ _)
          refine Kept.ite ?_ ?_
          · refine Kept.trans ?_ (forgetArea_kept _ _ _)
            exact modMrt_kept _ _ _
          · exact modMrt_kept _ _ _

theorem mrtWrite_kept (a0 : World) (a1 a2 : Nat) (a3 : Word) (s : State) : Kept s (mrtWrite a0 a1 a2 a3 s) := by
  unfold mrtWrite
  refine Kept.ite ?_ ?_
  · exact mrtSet_kept _ _ _
  · exact .refl _

theorem releaseFillComplete_kept (a0 a1 : Nat) (s : State) : Kept s (releaseFillComplete a0 a1 s) := by
  unfold releaseFillComplete
  dsimp only
  split
  · exact .refl _
  · refine Kept.trans ?_ (restate_kept _ _)
    refine Kept.trans ?_ (modMrt_kept _ _ _)
    exact forgetArea_kept _ _ _

theorem rtportWrite_kept (a0 : World) (a1 a2 : Nat) (a3 : Word) (s : State) : Kept s (rtportWrite a0 a1 a2 a3 s) := by
  unfold rtportWrite
  dsimp only
  refine Kept.ite ?_ ?_
  · refine Kept.setMem ?_ ?_
    · exact .refl _
    · with_reducible exact id
  · exact .refl _

theorem trainingComplete_kept (a0 a1 : Nat) (a2 : Bool) (a3 : List Word) (s : State) :
    Kept s (trainingComplete a0 a1 a2 a3 s) := by
  unfold trainingComplete
  dsimp only
  refine Kept.ite ?_ ?_
  · exact .refl _
  · refine Kept.foldl _ _ ?_ (fun _ _ => ?_)
    · refine Kept.ite ?_ ?_
      · refine Kept.trans ?_ (modMchan_kept _ _ _)
        refine Kept.ite ?_ ?_
        · with_reducible refine Kept.upd ?_ (.refl _) (.refl _) id
          exact .refl _
        · exact .refl _
      · refine Kept.trans ?_ (failDevice_kept _ _ _)
        refine Kept.trans ?_ (modMchan_kept _ _ _)
        refine Kept.ite ?_ ?_
        · with_reducible refine Kept.upd ?_ (.refl _) (.refl _) id
          exact .refl _
        · exact .refl _
    · refine Kept.ite ?_ ?_
      · exact .refl _
      · exact complete_kept _ _ _

/-! ## Issue.lean -/

theorem issueRead_kept (a0 : List CodeWordError) (s : State) (a2 : World) (a3 a4 a5 : Nat) :
    Kept s (issueRead a0 s a2 a3 a4 a5).1 := by
  unfold issueRead
  refine Kept.iteFst ?_ ?_
  · dsimp only
    exact .refl _
  · refine Kept.iteFst ?_ ?_
    · dsimp only
      exact .refl _
    · dsimp only
      split
      · dsimp only
        exact eccRange_kept _ _ _ _
      · dsimp only
        exact eccRange_kept _ _ _ _

theorem issueCheck_kept (ecc : List CodeWordError) (s : State) (k : Task) : Kept s (issueCheck ecc s k).1 := by
  unfold issueCheck
  split
  · exact .refl _
  · have h1 := issueRead_kept ecc s k.world 7 (k.f 7 39 0) (64 * k.nxfer)
    revert h1
    generalize issueRead ecc s k.world 7 (k.f 7 39 0) (64 * k.nxfer) = r1
    intro h1
    obtain ⟨s1, o1⟩ := r1
    cases o1 with
    | error e => exact h1
    | ok xb =>
      dsimp only at h1 ⊢
      split
      · exact h1
      · have h2 := issueRead_kept ecc s1 k.world 8 (k.f 5 39 0) (24 * k.seqN)
        revert h2
        generalize issueRead ecc s1 k.world 8 (k.f 5 39 0) (24 * k.seqN) = r2
        intro h2
        obtain ⟨s2, o2⟩ := r2
        cases o2 with
        | error e => exact h1.trans h2
        | ok qb =>
          dsimp only at h2 ⊢
          split
          · exact h1.trans h2
          · have h3 := issueRead_kept ecc s2 k.world 9 (k.f 6 39 0) (4 * k.tvuWords)
            revert h3
            generalize issueRead ecc s2 k.world 9 (k.f 6 39 0) (4 * k.tvuWords) = r3
            intro h3
            obtain ⟨s3, o3⟩ := r3
            have h4 := (h1.trans h2).trans h3
            cases o3 with
            | error e => exact h4
            | ok tb =>
              dsimp only at h4 ⊢
              repeat' first
                | with_reducible exact h4
                | split

/-! ## Seq.lean -/

theorem fetchGroup_kept (s : State) (a1 a2 a3 : Nat) (a4 : Task) : Kept s (State.fetchGroup s a1 a2 a3 a4) := by
  unfold State.fetchGroup
  dsimp only
  refine Kept.trans ?_ (sendReq_kept _ _)
  exact modCtx_kept _ _ _ _

theorem taskStart_kept (a0 : Nat) (s : State) : Kept s (taskStart a0 s) := by
  unfold taskStart
  dsimp only
  split
  · exact .refl _
  · split
    · exact .refl _
    · refine Kept.ite ?_ ?_
      · exact .refl _
      · split
        · refine Kept.trans ?_ (fetchGroup_kept _ _ _ _ _)
          refine Kept.trans ?_ (setTile_kept _ _ _)
          with_reducible refine Kept.upd ?_ (.refl _) (.refl _) id
          exact .refl _
        · refine Kept.trans ?_ (setTile_kept _ _ _)
          with_reducible refine Kept.upd ?_ (.refl _) (.refl _) id
          exact .refl _

theorem Kept.takeEntry {s t : State} {p c kind : Nat} {hw : HwEvent} {f : Task → List Word → State → State} (h : Kept s t)
    (hf : ∀ k e u, Kept t u → Kept t (f k e u)) : Kept s (t.takeEntry p c kind hw f) := by
  refine h.trans ?_
  unfold State.takeEntry
  split
  · exact .refl _
  · split
    · exact .refl _
    · exact Kept.underHw (.refl _) (hf _ _)

theorem seqArrayEntry_kept (a0 a1 : Nat) (a2 : HwEvent) (s : State) : Kept s (seqArrayEntry a0 a1 a2 s) := by
  unfold seqArrayEntry
  refine Kept.takeEntry ?_ (fun _ _ _ _ => ?_)
  · exact .refl _
  · refine Kept.trans ?_ (modCtx_kept _ _ _ _)
    assumption

theorem seqTvuEntry_kept (a0 a1 : Nat) (a2 : HwEvent) (s : State) : Kept s (seqTvuEntry a0 a1 a2 s) := by
  unfold seqTvuEntry
  refine Kept.takeEntry ?_ (fun _ _ _ _ => ?_)
  · exact .refl _
  · refine Kept.trans ?_ (modTile_kept _ _ _)
    assumption

theorem xfer_kept (a0 a1 : Nat) (a2 : HwEvent) (s : State) : Kept s (xfer a0 a1 a2 s) := by
  unfold xfer
  refine Kept.takeEntry ?_ (fun _ _ _ _ => ?_)
  · exact .refl _
  · dsimp only
    refine Kept.ite ?_ ?_
    · refine Kept.trans ?_ (modCtx_kept _ _ _ _)
      assumption
    · refine Kept.trans ?_ (fetchGroup_kept _ _ _ _ _)
      refine Kept.trans ?_ (modCtx_kept _ _ _ _)
      assumption

theorem loop_kept (a0 a1 : Nat) (a2 : HwEvent) (s : State) : Kept s (loop a0 a1 a2 s) := by
  unfold loop
  refine Kept.takeEntry ?_ (fun _ _ _ _ => ?_)
  · exact .refl _
  · refine Kept.trans ?_ (modCtx_kept _ _ _ _)
    assumption

theorem wait_kept (a0 a1 : Nat) (a2 : HwEvent) (s : State) : Kept s (wait a0 a1 a2 s) := by
  unfold wait
  refine Kept.takeEntry ?_ (fun _ _ _ _ => ?_)
  · exact .refl _
  · refine Kept.ite ?_ ?_
    · refine Kept.trans ?_ (modCtx_kept _ _ _ _)
      assumption
    · refine Kept.trans ?_ (modCtx_kept _ _ _ _)
      assumption

theorem waitSatisfied_kept (a0 a1 : Nat) (s : State) : Kept s (waitSatisfied a0 a1 s) := by
  unfold waitSatisfied
  dsimp only
  refine Kept.ite ?_ ?_
  · exact modCtx_kept _ _ _ _
  · exact .refl _

theorem seqEnd_kept (a0 a1 : Nat) (a2 : HwEvent) (s : State) : Kept s (seqEnd a0 a1 a2 s) := by
  unfold seqEnd
  refine Kept.takeEntry ?_ (fun _ _ _ _ => ?_)
  · exact .refl _
  · refine Kept.trans ?_ (modCtx_kept _ _ _ _)
    assumption

theorem taskComplete_kept (a0 a1 : Nat) (s : State) : Kept s (taskComplete a0 a1 s) := by
  unfold taskComplete
  refine Kept.ite ?_ ?_
  · exact finishTask_kept _ _ _
  · exact .refl _

/-! ## Streams.lean -/

theorem Kept.takeXfer {s t : State} {p c kind : Nat} {fwd : Bool} {f : Task → Nat → List Word → Ixs → State → State}
    (h : Kept s t) (hf : ∀ k xi d v u, Kept t u → Kept t (f k xi d v u)) : Kept s (t.takeXfer p c kind fwd f) := by
  refine h.trans ?_
  unfold State.takeXfer
  dsimp only
  repeat' first
    | with_reducible exact .refl _
    | exact hf _ _ _ _ _ (.refl _)
    | exact modCtx_kept _ _ _ _
    | with_reducible refine Kept.ite ?_ ?_
    | split

theorem addXfer_kept (s : State) (a1 a2 : Nat) (a3 : Transfer) : Kept s (State.addXfer s a1 a2 a3) := by
  unfold State.addXfer
  exact modCtx_kept _ _ _ _

theorem modXfer_kept (s : State) (a1 a2 a3 : Nat) (a4 : Transfer → Transfer) : Kept s (State.modXfer s a1 a2 a3 a4) := by
  unfold State.modXfer
  exact modCtx_kept _ _ _ _

theorem endXfer_kept (s : State) (a1 a2 a3 : Nat) : Kept s (State.endXfer s a1 a2 a3) := by
  unfold State.endXfer
  exact modCtx_kept _ _ _ _

theorem Kept.bankRead {s t : State} {p c : Nat} {hw : HwEvent} {f : State → State} (h : Kept s t)
    (hf : ∀ u, Kept t u → Kept t (f u)) : Kept s (t.bankRead p c hw f) := by
  unfold State.bankRead
  split
  · exact Kept.underHw h hf
  · exact Kept.underHw h hf
  · exact h.trans (hf _ (.refl _))

theorem nextMemReq_kept (s : State) (a1 a2 a3 : Nat) (a4 : HwEvent) : Kept s (State.nextMemReq s a1 a2 a3 a4) := by
  unfold State.nextMemReq
  dsimp only
  split
  · refine Kept.ite ?_ ?_
    · exact streamFault_kept _ _ _ _ _
    · refine Kept.ite ?_ ?_
      · refine Kept.bankRead ?_ (fun _ _ => ?_)
        · exact .refl _
        · refine Kept.trans ?_ (sendReq_kept _ _)
          refine Kept.trans ?_ (modXfer_kept _ _ _ _ _)
          assumption
      · refine Kept.trans ?_ (sendReq_kept _ _)
        exact modXfer_kept _ _ _ _ _
  · exact .refl _

theorem rowTransfer_kept (a0 a1 a2 : Nat) (a3 : HwEvent) (s : State) : Kept s (rowTransfer a0 a1 a2 a3 s) := by
  unfold rowTransfer
  refine Kept.takeXfer ?_ (fun _ _ _ _ _ _ => ?_)
  · exact .refl _
  · refine Kept.ite ?_ ?_
    · refine Kept.trans ?_ (streamFault_kept _ _ _ _ _)
      assumption
    · dsimp only
      refine Kept.trans ?_ (nextMemReq_kept _ _ _ _ _)
      refine Kept.trans ?_ (addXfer_kept _ _ _ _)
      refine Kept.trans ?_ (modCtx_kept _ _ _ _)
      assumption

theorem read_kept (a0 a1 : Nat) (s : State) : Kept s (read a0 a1 s) := by
  unfold read
  exact rowTransfer_kept _ _ _ _ _

theorem write_kept (a0 a1 : Nat) (a2 : HwEvent) (s : State) : Kept s (write a0 a1 a2 s) := by
  unfold write
  exact rowTransfer_kept _ _ _ _ _

theorem netFault_kept (s : State) (a1 a2 a3 a4 : Nat) : Kept s (State.netFault s a1 a2 a3 a4) := by
  unfold State.netFault
  exact tileFault_kept _ _ _ _ _ _ _

theorem sendRemote_kept (s : State) (a1 a2 a3 : Nat) (a4 : HwEvent) : Kept s (State.sendRemote s a1 a2 a3 a4) := by
  unfold State.sendRemote
  dsimp only
  split
  · split
    · exact .refl _
    · refine Kept.ite ?_ ?_
      · exact .refl _
      · refine Kept.ite ?_ ?_
        · exact netFault_kept _ _ _ _ _
        · refine Kept.bankRead ?_ (fun _ _ => ?_)
          · exact .refl _
          · refine Kept.foldl _ _ ?_ (fun _ _ => ?_)
            · refine Kept.trans ?_ (modXfer_kept _ _ _ _ _)
              refine Kept.trans ?_ (modCtx_kept _ _ _ _)
              assumption
            · exact sendTile_kept _ _ _
  · exact .refl _

theorem remote_kept (a0 a1 : Nat) (a2 : HwEvent) (s : State) : Kept s (remote a0 a1 a2 s) := by
  unfold remote
  dsimp only
  split
  · exact sendRemote_kept _ _ _ _ _
  · refine Kept.takeXfer ?_ (fun _ _ _ _ _ _ => ?_)
    · exact .refl _
    · refine Kept.ite ?_ ?_
      · refine Kept.trans ?_ (streamFault_kept _ _ _ _ _)
        assumption
      · refine Kept.ite ?_ ?_
        · refine Kept.trans ?_ (streamFault_kept _ _ _ _ _)
          assumption
        · refine Kept.ite ?_ ?_
          · refine Kept.trans ?_ (addXfer_kept _ _ _ _)
            refine Kept.trans ?_ (modCtx_kept _ _ _ _)
            assumption
          · refine Kept.trans ?_ (sendRemote_kept _ _ _ _ _)
            refine Kept.trans ?_ (addXfer_kept _ _ _ _)
            refine Kept.trans ?_ (modCtx_kept _ _ _ _)
            assumption

theorem ackXfer_kept (s : State) (a1 a2 a3 : Nat) (a4 : Bool) : Kept s (State.ackXfer s a1 a2 a3 a4) := by
  unfold State.ackXfer
  dsimp only
  split
  · exact .refl _
  · refine Kept.ite ?_ ?_
    · refine Kept.ite ?_ ?_
      · refine Kept.trans ?_ (modCtx_kept _ _ _ _)
        exact endXfer_kept _ _ _ _
      · exact endXfer_kept _ _ _ _
    · refine Kept.ite ?_ ?_
      · refine Kept.trans ?_ (streamFault_kept _ _ _ _ _)
        exact endXfer_kept _ _ _ _
      · exact endXfer_kept _ _ _ _

theorem sendPace_kept (s : State) (a1 a2 a3 : Nat) (a4 : HwEvent) : Kept s (State.sendPace s a1 a2 a3 a4) := by
  unfold State.sendPace
  dsimp only
  split
  · split
    · exact .refl _
    · refine Kept.ite ?_ ?_
      · exact streamFault_kept _ _ _ _ _
      · split
        · exact .refl _
        · refine Kept.ite ?_ ?_
          · exact streamFault_kept _ _ _ _ _
          · refine Kept.ite ?_ ?_
            · exact .refl _
            · refine Kept.ite ?_ ?_
              · exact netFault_kept _ _ _ _ _
              · refine Kept.bankRead ?_ (fun _ _ => ?_)
                · exact .refl _
                · refine Kept.trans ?_ (sendTile_kept _ _ _)
                  refine Kept.trans ?_ (modXfer_kept _ _ _ _ _)
                  refine Kept.trans ?_ (modCtx_kept _ _ _ _)
                  assumption
  · exact .refl _

theorem paceTransfer_kept (a0 a1 : Nat) (a2 : Bool) (a3 : HwEvent) (s : State) : Kept s (paceTransfer a0 a1 a2 a3 s) := by
  unfold paceTransfer
  dsimp only
  split
  · exact sendPace_kept _ _ _ _ _
  · refine Kept.takeXfer ?_ (fun _ _ _ _ _ _ => ?_)
    · exact .refl _
    · refine Kept.ite ?_ ?_
      · refine Kept.trans ?_ (streamFault_kept _ _ _ _ _)
        assumption
      · refine Kept.ite ?_ ?_
        · refine Kept.trans ?_ (streamFault_kept _ _ _ _ _)
          assumption
        · refine Kept.ite ?_ ?_
          · refine Kept.trans ?_ (addXfer_kept _ _ _ _)
            refine Kept.trans ?_ (modCtx_kept _ _ _ _)
            assumption
          · refine Kept.trans ?_ (sendPace_kept _ _ _ _ _)
            refine Kept.trans ?_ (addXfer_kept _ _ _ _)
            refine Kept.trans ?_ (modCtx_kept _ _ _ _)
            assumption

theorem paceOrigin_kept (a0 a1 : Nat) (a2 : HwEvent) (s : State) : Kept s (paceOrigin a0 a1 a2 s) := by
  unfold paceOrigin
  exact paceTransfer_kept _ _ _ _ _

theorem paceForward_kept (a0 a1 : Nat) (a2 : HwEvent) (s : State) : Kept s (paceForward a0 a1 a2 s) := by
  unfold paceForward
  exact paceTransfer_kept _ _ _ _ _

theorem ctake_kept (a0 a1 : Nat) (s : State) : Kept s (ctake a0 a1 s) := by
  unfold ctake
  refine Kept.takeXfer ?_ (fun _ _ _ _ _ _ => ?_)
  · exact .refl _
  · dsimp only
    refine Kept.ite ?_ ?_
    · assumption
    · refine Kept.trans ?_ (sendTile_kept _ _ _)
      refine Kept.trans ?_ (addXfer_kept _ _ _ _)
      refine Kept.trans ?_ (modCtx_kept _ _ _ _)
      assumption

theorem grant_kept (a0 a1 : Nat) (s : State) : Kept s (grant a0 a1 s) := by
  unfold grant
  dsimp only
  refine Kept.takeXfer ?_ (fun _ _ _ _ _ _ => ?_)
  · exact .refl _
  · refine Kept.ite ?_ ?_
    · assumption
    · refine Kept.ite ?_ ?_
      · refine Kept.trans ?_ (streamFault_kept _ _ _ _ _)
        assumption
      · refine Kept.ite ?_ ?_
        · refine Kept.trans ?_ (netFault_kept _ _ _ _ _)
          assumption
        · refine Kept.ite ?_ ?_
          · refine Kept.trans ?_ (streamFault_kept _ _ _ _ _)
            assumption
          · refine Kept.trans ?_ (sendTile_kept _ _ _)
            refine Kept.trans ?_ (modCtx_kept _ _ _ _)
            assumption

theorem pring_kept (a0 a1 : Nat) (s : State) : Kept s (pring a0 a1 s) := by
  unfold pring
  refine Kept.takeXfer ?_ (fun _ _ _ _ _ _ => ?_)
  · exact .refl _
  · refine Kept.trans ?_ (modCtx_kept _ _ _ _)
    assumption

theorem applyRing_kept (s : State) (a1 a2 : Nat) (a3 : Task) (a4 : List Word) : Kept s (State.applyRing s a1 a2 a3 a4) := by
  unfold State.applyRing
  dsimp only
  refine Kept.ite ?_ ?_
  · refine Kept.trans ?_ (netFault_kept _ _ _ _ _)
    exact modCtx_kept _ _ _ _
  · refine Kept.trans ?_ (sendTile_kept _ _ _)
    exact modCtx_kept _ _ _ _

theorem descriptorFetch_kept (a0 a1 a2 : Nat) (s : State) : Kept s (descriptorFetch a0 a1 a2 s) := by
  unfold descriptorFetch
  dsimp only
  split
  · split
    · refine Kept.trans ?_ (modCtx_kept _ _ _ _)
      refine Kept.setMem ?_ ?_
      · exact .refl _
      · with_reducible exact id
    · refine Kept.ite ?_ ?_
      · refine Kept.trans ?_ (modCtx_kept _ _ _ _)
        refine Kept.setMem ?_ ?_
        · exact .refl _
        · with_reducible exact id
      · refine Kept.ite ?_ ?_
        · refine Kept.trans ?_ (streamFault_kept _ _ _ _ _)
          refine Kept.trans ?_ (modCtx_kept _ _ _ _)
          refine Kept.setMem ?_ ?_
          · exact .refl _
          · with_reducible exact id
        · refine Kept.ite ?_ ?_
          · refine Kept.trans ?_ (streamFault_kept _ _ _ _ _)
            refine Kept.trans ?_ (modCtx_kept _ _ _ _)
            refine Kept.setMem ?_ ?_
            · exact .refl _
            · with_reducible exact id
          · split
            · refine Kept.ite ?_ ?_
              · refine Kept.trans ?_ (applyRing_kept _ _ _ _ _)
                refine Kept.trans ?_ (modCtx_kept _ _ _ _)
                refine Kept.trans ?_ (modCtx_kept _ _ _ _)
                refine Kept.setMem ?_ ?_
                · exact .refl _
                · with_reducible exact id
              · refine Kept.trans ?_ (modCtx_kept _ _ _ _)
                refine Kept.trans ?_ (modCtx_kept _ _ _ _)
                refine Kept.setMem ?_ ?_
                · exact .refl _
                · with_reducible exact id
            · refine Kept.trans ?_ (modCtx_kept _ _ _ _)
              refine Kept.trans ?_ (modCtx_kept _ _ _ _)
              refine Kept.setMem ?_ ?_
              · exact .refl _
              · with_reducible exact id
  · split
    · exact .refl _
    · refine Kept.ite ?_ ?_
      · exact fetchGroup_kept _ _ _ _ _
      · exact .refl _

theorem xferDone_kept (s : State) (a1 a2 : Nat) (a3 : Transfer) (a4 : Nat) (a5 : List Byte) (a6 : HwEvent) :
    Kept s (State.xferDone s a1 a2 a3 a4 a5 a6) := by
  unfold State.xferDone
  refine Kept.ite ?_ ?_
  · refine Kept.trans ?_ (streamFault_kept _ _ _ _ _)
    exact endXfer_kept _ _ _ _
  · dsimp only
    refine Kept.ite ?_ ?_
    · refine Kept.trans ?_ (endXfer_kept _ _ _ _)
      refine Kept.trans ?_ (modXfer_kept _ _ _ _ _)
      refine Kept.ite ?_ ?_
      · exact modTile_kept _ _ _
      · exact .refl _
    · refine Kept.trans ?_ (nextMemReq_kept _ _ _ _ _)
      refine Kept.trans ?_ (modXfer_kept _ _ _ _ _)
      refine Kept.ite ?_ ?_
      · exact modTile_kept _ _ _
      · exact .refl _

theorem takenBack_kept (s : State) (a1 a2 : Nat) (a3 : Transfer) (a4 : Nat) (a5 : Bool) (a6 : Option Nat) :
    Kept s (State.takenBack s a1 a2 a3 a4 a5 a6) := by
  unfold State.takenBack
  dsimp only
  refine Kept.ite ?_ ?_
  · split
    · refine Kept.trans ?_ (returnVal_kept _ _ _ _)
      exact endXfer_kept _ _ _ _
    · exact endXfer_kept _ _ _ _
  · refine Kept.ite ?_ ?_
    · refine Kept.trans ?_ (streamFault_kept _ _ _ _ _)
      exact endXfer_kept _ _ _ _
    · split
      · refine Kept.trans ?_ (modCtx_kept _ _ _ _)
        exact endXfer_kept _ _ _ _
      · refine Kept.trans ?_ (modCtx_kept _ _ _ _)
        exact endXfer_kept _ _ _ _

theorem requestResponse_kept (a0 a1 a2 : Nat) (a3 : HwEvent) (s : State) : Kept s (requestResponse a0 a1 a2 a3 s) := by
  unfold requestResponse
  dsimp only
  split
  · split
    · refine Kept.setMem ?_ ?_
      · exact .refl _
      · with_reducible exact id
    · refine Kept.ite ?_ ?_
      · refine Kept.trans ?_ (endXfer_kept _ _ _ _)
        refine Kept.setMem ?_ ?_
        · exact .refl _
        · with_reducible exact id
      · refine Kept.trans ?_ (xferDone_kept _ _ _ _ _ _ _)
        refine Kept.setMem ?_ ?_
        · exact .refl _
        · with_reducible exact id
  · split
    · refine Kept.ite ?_ ?_
      · exact .refl _
      · split
        · refine Kept.trans ?_ (takenBack_kept _ _ _ _ _ _ _)
          with_reducible refine Kept.upd ?_ (.refl _) (.refl _) id
          exact .refl _
        · refine Kept.trans ?_ (poolReturn_kept _ _ _)
          with_reducible refine Kept.upd ?_ (.refl _) (.refl _) id
          exact .refl _
        · with_reducible refine Kept.upd ?_ (.refl _) (.refl _) id
          exact .refl _
    · exact .refl _

theorem timeout_kept (a0 a1 a2 : Nat) (s : State) : Kept s (timeout a0 a1 a2 s) := by
  unfold timeout
  dsimp only
  refine Kept.ite ?_ ?_
  · exact .refl _
  · split
    · refine Kept.ite ?_ ?_
      · exact .refl _
      · refine Kept.trans ?_ (streamFault_kept _ _ _ _ _)
        exact modXfer_kept _ _ _ _ _
    · split
      · refine Kept.ite ?_ ?_
        · exact .refl _
        · refine Kept.trans ?_ (streamFault_kept _ _ _ _ _)
          exact modCtx_kept _ _ _ _
      · exact .refl _

theorem cancellation_kept (a0 a1 : Nat) (s : State) : Kept s (cancellation a0 a1 s) := by
  unfold cancellation
  dsimp only
  refine Kept.ite ?_ ?_
  · exact .refl _
  · refine Kept.ite ?_ ?_
    · refine Kept.trans ?_ (beginEnd_kept _ _ _ _)
      exact modCtx_kept _ _ _ _
    · exact modCtx_kept _ _ _ _

theorem cancellationAck_kept (a0 a1 : Nat) (s : State) : Kept s (cancellationAck a0 a1 s) := by
  unfold cancellationAck
  dsimp only
  refine Kept.ite ?_ ?_
  · exact finishTask_kept _ _ _
  · exact .refl _

theorem grantRefused_kept (s : State) (a1 : Option (Nat × Nat × Nat × Nat)) : Kept s (State.grantRefused s a1) := by
  unfold State.grantRefused
  split
  · refine Kept.ite ?_ ?_
    · exact streamFault_kept _ _ _ _ _
    · exact .refl _
  · exact .refl _

theorem grantReceived_kept (a0 a1 : Nat) (s : State) : Kept s (grantReceived a0 a1 s) := by
  unfold grantReceived
  dsimp only
  split
  · exact .refl _
  · split
    · refine Kept.ite ?_ ?_
      · exact .refl _
      · refine Kept.ite ?_ ?_
        · refine Kept.trans ?_ (modCtx_kept _ _ _ _)
          with_reducible refine Kept.upd ?_ (.refl _) (.refl _) id
          exact .refl _
        · refine Kept.ite ?_ ?_
          · refine Kept.trans ?_ (modCtx_kept _ _ _ _)
            with_reducible refine Kept.upd ?_ (.refl _) (.refl _) id
            exact .refl _
          · refine Kept.trans ?_ (grantRefused_kept _ _)
            with_reducible refine Kept.upd ?_ (.refl _) (.refl _) id
            exact .refl _
    · exact .refl _

theorem ackSender_kept (s : State) (a1 : Sender) (a2 a3 : Bool) : Kept s (State.ackSender s a1 a2 a3) := by
  unfold State.ackSender
  dsimp only
  split
  · refine Kept.ite ?_ ?_
    · refine Kept.trans ?_ (dropLoads_kept _ _)
      with_reducible refine Kept.upd ?_ (.refl _) (.refl _) id
      exact ackXfer_kept _ _ _ _ _
    · refine Kept.ite ?_ ?_
      · exact ackXfer_kept _ _ _ _ _
      · exact .refl _
  · exact .refl _

theorem remoteTokenReceived_kept (a0 a1 : Nat) (s : State) : Kept s (remoteTokenReceived a0 a1 s) := by
  unfold remoteTokenReceived
  dsimp only
  split
  · exact .refl _
  · split
    · refine Kept.ite ?_ ?_
      · exact .refl _
      · split
        · refine Kept.trans ?_ (ackSender_kept _ _ _ _)
          with_reducible refine Kept.upd ?_ (.refl _) (.refl _) id
          exact .refl _
        · refine Kept.trans ?_ (ackSender_kept _ _ _ _)
          refine Kept.trans ?_ (modTile_kept _ _ _)
          with_reducible refine Kept.upd ?_ (.refl _) (.refl _) id
          exact .refl _
    · exact .refl _

theorem pacelineBlockStored_kept (a0 a1 : Nat) (s : State) : Kept s (pacelineBlockStored a0 a1 s) := by
  unfold pacelineBlockStored
  dsimp only
  split
  · exact .refl _
  · split
    · refine Kept.ite ?_ ?_
      · exact .refl _
      · split
        · refine Kept.ite ?_ ?_
          · refine Kept.trans ?_ (ackXfer_kept _ _ _ _ _)
            with_reducible refine Kept.upd ?_ (.refl _) (.refl _) id
            exact .refl _
          · refine Kept.ite ?_ ?_
            · refine Kept.trans ?_ (ackXfer_kept _ _ _ _ _)
              refine Kept.trans ?_ (streamFault_kept _ _ _ _ _)
              with_reducible refine Kept.upd ?_ (.refl _) (.refl _) id
              exact .refl _
            · refine Kept.trans ?_ (ackXfer_kept _ _ _ _ _)
              refine Kept.trans ?_ (modTile_kept _ _ _)
              with_reducible refine Kept.upd ?_ (.refl _) (.refl _) id
              exact .refl _
        · refine Kept.trans ?_ (ackXfer_kept _ _ _ _ _)
          with_reducible refine Kept.upd ?_ (.refl _) (.refl _) id
          exact .refl _
    · exact .refl _

theorem blockRelease_kept (a0 a1 : Nat) (s : State) : Kept s (blockRelease a0 a1 s) := by
  unfold blockRelease
  dsimp only
  split
  · split
    · refine Kept.ite ?_ ?_
      · exact .refl _
      · refine Kept.ite ?_ ?_
        · refine Kept.trans ?_ (netFault_kept _ _ _ _ _)
          exact modCtx_kept _ _ _ _
        · refine Kept.trans ?_ (sendTile_kept _ _ _)
          exact modCtx_kept _ _ _ _
    · exact .refl _
  · exact .refl _

theorem counterTake_kept (a0 : Nat) (s : State) : Kept s (counterTake a0 s) := by
  unfold counterTake
  dsimp only
  split
  · refine Kept.ite ?_ ?_
    · refine Kept.trans ?_ (send_kept _ _ _ _)
      with_reducible refine Kept.upd ?_ (.refl _) (.refl _) id
      exact .refl _
    · split
      · refine Kept.trans ?_ (send_kept _ _ _ _)
        with_reducible refine Kept.upd ?_ (.refl _) (.refl _) id
        exact .refl _
      · refine Kept.ite ?_ ?_
        · refine Kept.trans ?_ (send_kept _ _ _ _)
          with_reducible refine Kept.upd ?_ (.refl _) (.refl _) id
          exact .refl _
        · refine Kept.trans ?_ (send_kept _ _ _ _)
          with_reducible refine Kept.upd ?_ (.refl _) (.refl _) id
          exact .refl _
  · exact .refl _

end Sys2Proof.Machine
end

