-- ==== Sys2Proof/Laws/KeptUnits.lean ====
section
/-! SUPPORT. What `Kept` names is kept by every operation on the fabric, the rims, the lanes, the clocks and the loader: one
lemma for each. -/
set_option autoImplicit false
namespace Sys2Proof.Machine

/-! ## Cells.lean -/

theorem modRegion_kept (s : State) (a1 : Nat) (a2 : Region → Region) : Kept s (State.modRegion s a1 a2) := by
  unfold State.modRegion
  with_reducible refine Kept.upd ?_ (.refl _) (.refl _) id
  exact .refl _

theorem clockEdge_kept (s : State) (a1 a2 : Nat) : Kept s (State.clockEdge s a1 a2) := by
  unfold State.clockEdge
  dsimp only
  refine Kept.ite ?_ ?_
  · exact .refl _
  · exact modRegion_kept _ _ _

theorem clockFall_kept (s : State) (a1 a2 : Nat) : Kept s (State.clockFall s a1 a2) := by
  unfold State.clockFall
  exact modRegion_kept _ _ _

theorem latchColumn_kept (s : State) (a1 a2 : Nat) : Kept s (State.latchColumn s a1 a2) := by
  unfold State.latchColumn
  exact modRegion_kept _ _ _

theorem hcStep_kept (s : State) (a1 a2 : Nat) : Kept s (State.hcStep s a1 a2) := by
  unfold State.hcStep
  dsimp only
  refine Kept.ite ?_ ?_
  · exact .refl _
  · split
    · exact modRegion_kept _ _ _
    · exact modRegion_kept _ _ _
    · refine Kept.ite ?_ ?_
      · refine Kept.trans ?_ (modRegion_kept _ _ _)
        exact latchColumn_kept _ _ _
      · refine Kept.ite ?_ ?_
        · exact modRegion_kept _ _ _
        · refine Kept.ite ?_ ?_
          · exact modRegion_kept _ _ _
          · refine Kept.ite ?_ ?_
            · exact modRegion_kept _ _ _
            · exact .refl _

/-! ## Fabric.lean -/

theorem clockGeneratorEnable_kept (a0 a1 : Nat) (a2 : Bool) (s : State) : Kept s (clockGeneratorEnable a0 a1 a2 s) := by
  unfold clockGeneratorEnable
  refine Kept.ite ?_ ?_
  · exact .refl _
  · exact modRegion_kept _ _ _

theorem blockMemoryAccess_kept (a0 a1 : Nat) (a2 a3 : Option BmAccess) (s : State) :
    Kept s (blockMemoryAccess a0 a1 a2 a3 s) := by
  unfold blockMemoryAccess
  dsimp only
  refine Kept.ite ?_ ?_
  · exact .refl _
  · exact modRegion_kept _ _ _

theorem bind_kept (a0 a1 a2 a3 a4 : Nat) (a5 : Bool) (a6 : Option (Fin 4)) (s : State) :
    Kept s (bind a0 a1 a2 a3 a4 a5 a6 s) := by
  unfold bind
  dsimp only
  refine Kept.ite ?_ ?_
  · exact .refl _
  · exact modRegion_kept _ _ _

theorem queueDataWord_kept (a0 a1 : Nat) (a2 : Word) (a3 : Option (Fin 4)) (s : State) :
    Kept s (queueDataWord a0 a1 a2 a3 s) := by
  unfold queueDataWord
  dsimp only
  refine Kept.ite ?_ ?_
  · exact .refl _
  · exact modRegion_kept _ _ _

theorem queueGrant_kept (a0 a1 : Nat) (s : State) : Kept s (queueGrant a0 a1 s) := by
  unfold queueGrant
  dsimp only
  split
  · refine Kept.ite ?_ ?_
    · exact .refl _
    · split
      · with_reducible refine Kept.upd ?_ (.refl _) (.refl _) id
        exact .refl _
      · split
        · with_reducible refine Kept.upd ?_ (.refl _) (.refl _) id
          exact .refl _
        · refine Kept.ite ?_ ?_
          · refine Kept.trans ?_ (modRegion_kept _ _ _)
            with_reducible refine Kept.upd ?_ (.refl _) (.refl _) id
            exact .refl _
          · refine Kept.trans ?_ (grantRefused_kept _ _)
            with_reducible refine Kept.upd ?_ (.refl _) (.refl _) id
            exact .refl _
  · exact .refl _

theorem queueTokenSend_kept (a0 a1 : Nat) (a2 : Bool) (s : State) : Kept s (queueTokenSend a0 a1 a2 s) := by
  unfold queueTokenSend
  dsimp only
  split
  · refine Kept.ite ?_ ?_
    · exact .refl _
    · refine Kept.trans ?_ (send_kept _ _ _ _)
      exact modRegion_kept _ _ _
  · exact .refl _

theorem regionPortRequest_kept (a0 : Nat) (a1 : Bool) (a2 a3 : Nat) (a4 : List Byte) (s : State) :
    Kept s (regionPortRequest a0 a1 a2 a3 a4 s) := by
  unfold regionPortRequest
  dsimp only
  refine Kept.ite ?_ ?_
  · exact .refl _
  · refine Kept.ite ?_ ?_
    · refine Kept.trans ?_ (modRegion_kept _ _ _)
      exact modRegion_kept _ _ _
    · refine Kept.trans ?_ (sendReq_kept _ _)
      exact modRegion_kept _ _ _

theorem regionPortInboundToken_kept (a0 a1 : Nat) (s : State) : Kept s (regionPortInboundToken a0 a1 s) := by
  unfold regionPortInboundToken
  exact modRegion_kept _ _ _

theorem modPin_kept (s : State) (a1 : Nat) (a2 : Pin → Pin) : Kept s (State.modPin s a1 a2) := by
  unfold State.modPin
  with_reducible refine Kept.upd ?_ (.refl _) (.refl _) id
  exact .refl _

theorem isolatePins_kept (s : State) (a1 : Nat) : Kept s (State.isolatePins s a1) := by
  unfold State.isolatePins
  refine Kept.foldl _ _ ?_ (fun _ _ => ?_)
  · exact .refl _
  · dsimp only
    refine Kept.ite ?_ ?_
    · exact modPin_kept _ _ _
    · exact .refl _

theorem closeRegion_kept (s : State) (a1 : Nat) (a2 : CloseWhy) (a3 : BitVec 2) : Kept s (State.closeRegion s a1 a2 a3) := by
  unfold State.closeRegion
  dsimp only
  refine Kept.trans ?_ (isolatePins_kept _ _)
  with_reducible refine Kept.upd ?_ (.refl _) (.refl _) id
  refine Kept.foldl _ _ ?_ (fun _ _ => ?_)
  · exact modRegion_kept _ _ _
  · exact grantRefused_kept _ _

/-! ## Odometer.lean -/

theorem modOdo_kept (s : State) (a1 : Nat) (a2 : OdoCh → OdoCh) : Kept s (State.modOdo s a1 a2) := by
  unfold State.modOdo
  with_reducible refine Kept.upd ?_ (.refl _) (.refl _) id
  exact .refl _

theorem modAct_kept (s : State) (a1 : Nat) (a2 : ActEntry → ActEntry) : Kept s (State.modAct s a1 a2) := by
  unfold State.modAct
  with_reducible refine Kept.upd ?_ (.refl _) (.refl _) id
  exact .refl _

theorem actRecord_kept (s : State) (a1 a2 : Nat) : Kept s (State.actRecord s a1 a2) := by
  unfold State.actRecord
  dsimp only
  exact emit_kept _ _ _ _ _ _

theorem fire_kept (s : State) (a1 a2 : Nat) : Kept s (State.fire s a1 a2) := by
  unfold State.fire
  dsimp only
  refine Kept.trans ?_ (actRecord_kept _ _ _)
  refine Kept.ite ?_ ?_
  · exact modAct_kept _ _ _
  · refine Kept.trans ?_ (modAct_kept _ _ _)
    exact modPin_kept _ _ _

theorem judge_kept (s : State) (a1 : Nat) : Kept s (State.judge s a1) := by
  unfold State.judge
  dsimp only
  refine Kept.ite ?_ ?_
  · exact .refl _
  · refine Kept.ite ?_ ?_
    · exact fire_kept _ _ _
    · refine Kept.trans ?_ (actRecord_kept _ _ _)
      exact modAct_kept _ _ _

theorem withdraw_kept (s : State) (a1 : Nat) : Kept s (State.withdraw s a1) := by
  unfold State.withdraw
  refine Kept.trans ?_ (actRecord_kept _ _ _)
  exact modAct_kept _ _ _

theorem stepEntry_kept (s : State) (a1 : Nat) (a2 : Bool) (a3 : BitVec 48) : Kept s (State.stepEntry s a1 a2 a3) := by
  unfold State.stepEntry
  dsimp only
  refine Kept.ite ?_ ?_
  · exact fire_kept _ _ _
  · refine Kept.ite ?_ ?_
    · exact modAct_kept _ _ _
    · exact .refl _

theorem applyPreset_kept (s : State) (a1 a2 : Nat) (a3 : BitVec 48) : Kept s (State.applyPreset s a1 a2 a3) := by
  unfold State.applyPreset
  dsimp only
  refine Kept.foldl _ _ ?_ (fun _ _ => ?_)
  · exact modOdo_kept _ _ _
  · refine Kept.ite ?_ ?_
    · exact modAct_kept _ _ _
    · exact judge_kept _ _

theorem countOne_kept (s : State) (a1 a2 : Nat) (a3 : Bool) : Kept s (State.countOne s a1 a2 a3) := by
  unfold State.countOne
  dsimp only
  refine Kept.ite ?_ ?_
  · refine Kept.trans ?_ (modOdo_kept _ _ _)
    split
    · exact applyPreset_kept _ _ _ _
    · refine Kept.foldl _ _ ?_ (fun _ _ => ?_)
      · exact modOdo_kept _ _ _
      · exact stepEntry_kept _ _ _ _
  · split
    · exact applyPreset_kept _ _ _ _
    · refine Kept.foldl _ _ ?_ (fun _ _ => ?_)
      · exact modOdo_kept _ _ _
      · exact stepEntry_kept _ _ _ _

theorem countStep_kept (a0 a1 : Nat) (a2 a3 : Bool) (s : State) : Kept s (countStep a0 a1 a2 a3 s) := by
  unfold countStep
  dsimp only
  refine Kept.ite ?_ ?_
  · split
    · refine Kept.trans ?_ (modPin_kept _ _ _)
      split
      · exact modPin_kept _ _ _
      · exact .refl _
    · split
      · exact modPin_kept _ _ _
      · exact .refl _
  · refine Kept.ite ?_ ?_
    · refine Kept.trans ?_ (modOdo_kept _ _ _)
      split
      · refine Kept.trans ?_ (modPin_kept _ _ _)
        split
        · exact modPin_kept _ _ _
        · exact .refl _
      · split
        · exact modPin_kept _ _ _
        · exact .refl _
    · refine Kept.ite ?_ ?_
      · refine Kept.trans ?_ (modOdo_kept _ _ _)
        refine Kept.trans ?_ (modOdo_kept _ _ _)
        split
        · refine Kept.trans ?_ (modPin_kept _ _ _)
          split
          · exact modPin_kept _ _ _
          · exact .refl _
        · split
          · exact modPin_kept _ _ _
          · exact .refl _
      · refine Kept.trans ?_ (countOne_kept _ _ _ _)
        refine Kept.trans ?_ (modOdo_kept _ _ _)
        split
        · refine Kept.trans ?_ (modPin_kept _ _ _)
          split
          · exact modPin_kept _ _ _
          · exact .refl _
        · split
          · exact modPin_kept _ _ _
          · exact .refl _

theorem positionComparison_kept (a0 : Nat) (s : State) : Kept s (positionComparison a0 s) := by
  unfold positionComparison
  dsimp only
  split
  · exact .refl _
  · refine Kept.ite ?_ ?_
    · refine Kept.trans ?_ (emit_kept _ _ _ _ _ _)
      refine Kept.trans ?_ (modOdo_kept _ _ _)
      exact modOdo_kept _ _ _
    · exact modOdo_kept _ _ _

theorem relive_kept (s : State) (a1 : List (Nat × Nat × Bool × Option Nat × Option Nat)) (a2 : ActEntry → Bool) :
    Kept s (State.relive s a1 a2) := by
  unfold State.relive
  dsimp only
  refine Kept.foldl _ _ ?_ (fun _ _ => ?_)
  · refine Kept.foldl _ _ ?_ (fun _ _ => ?_)
    · exact .refl _
    · refine Kept.ite ?_ ?_
      · refine Kept.ite ?_ ?_
        · exact .refl _
        · exact modOdo_kept _ _ _
      · refine Kept.ite ?_ ?_
        · exact modOdo_kept _ _ _
        · exact .refl _
  · exact withdraw_kept _ _

theorem odocfgWrite_kept (a0 : World) (a1 : Nat) (a2 : Word) (s : State) : Kept s (odocfgWrite a0 a1 a2 s) := by
  unfold odocfgWrite
  refine Kept.ite ?_ ?_
  · exact .refl _
  · dsimp only
    refine Kept.trans ?_ (relive_kept _ _ _)
    exact modOdo_kept _ _ _

theorem preset_kept (s : State) (a1 : Nat) (a2 a3 : BitVec 48) (a4 : Mark) : Kept s (State.preset s a1 a2 a3 a4).1 := by
  unfold State.preset
  dsimp only
  refine Kept.iteFst ?_ ?_
  · dsimp only
    refine Kept.foldl _ _ ?_ (fun _ _ => ?_)
    · exact .refl _
    · exact modOdo_kept _ _ _
  · dsimp only
    exact .refl _

theorem arm_kept (s : State) (a1 : Nat) (a2 a3 : Word) (a4 : World) (a5 : Mark) : Kept s (State.arm s a1 a2 a3 a4 a5).1 := by
  unfold State.arm
  dsimp only
  refine Kept.iteFst ?_ ?_
  · dsimp only
    exact .refl _
  · refine Kept.iteFst ?_ ?_
    · dsimp only
      exact .refl _
    · refine Kept.iteFst ?_ ?_
      · dsimp only
        exact .refl _
      · dsimp only
        refine Kept.trans ?_ (judge_kept _ _)
        exact modAct_kept _ _ _

theorem unarm_kept (s : State) (a1 : Nat) (a2 : World) (a3 : Mark) : Kept s (State.unarm s a1 a2 a3).1 := by
  unfold State.unarm
  dsimp only
  refine Kept.iteFst ?_ ?_
  · dsimp only
    exact .refl _
  · refine Kept.iteFst ?_ ?_
    · dsimp only
      exact .refl _
    · dsimp only
      exact modAct_kept _ _ _

/-! ## Gpio.lean -/

theorem ioSend_kept (s : State) (a1 : Nat) : Kept s (State.ioSend s a1) := by
  unfold State.ioSend
  dsimp only
  refine Kept.trans ?_ (modRegion_kept _ _ _)
  with_reducible refine Kept.upd ?_ (.refl _) (.refl _) id
  exact .refl _

theorem ioOutputChange_kept (a0 : Nat) (a1 a2 : Word) (s : State) : Kept s (ioOutputChange a0 a1 a2 s) := by
  unfold ioOutputChange
  dsimp only
  refine Kept.ite ?_ ?_
  · exact .refl _
  · refine Kept.ite ?_ ?_
    · exact modRegion_kept _ _ _
    · refine Kept.trans ?_ (ioSend_kept _ _)
      exact modRegion_kept _ _ _

theorem ioTell_kept (s : State) (a1 a2 : Nat) : Kept s (State.ioTell s a1 a2) := by
  unfold State.ioTell
  exact modRegion_kept _ _ _

theorem keepPins_kept (s t : State) : Kept t (s.keepPins t) := by
  unfold State.keepPins
  exact Kept.upd (.refl _) (.refl _) (.refl _) id

theorem clockSeen_kept (s : State) (a1 : Nat) : Kept s (State.clockSeen s a1) := by
  unfold State.clockSeen
  refine Kept.ite ?_ ?_
  · with_reducible refine Kept.upd ?_ (.refl _) (.refl _) id
    exact .refl _
  · exact .refl _

theorem pinsFollow_kept (a0 s : State) : Kept s (State.pinsFollow a0 s) := by
  unfold State.pinsFollow
  dsimp only
  refine Kept.foldl _ _ ?_ (fun _ _ => ?_)
  · refine Kept.foldl _ _ ?_ (fun _ _ => ?_)
    · exact keepPins_kept _ _
    · exact ioTell_kept _ _ _
  · exact clockSeen_kept _ _

theorem ioInputChange_kept (a0 a1 : Nat) (a2 : Option Bool) (s : State) : Kept s (ioInputChange a0 a1 a2 s) := by
  unfold ioInputChange
  refine Kept.trans ?_ (pinsFollow_kept _ _)
  exact modPin_kept _ _ _

theorem gpiocfgWrite_kept (a0 : World) (a1 a2 : Nat) (a3 : Word) (s : State) : Kept s (gpiocfgWrite a0 a1 a2 a3 s) := by
  unfold gpiocfgWrite
  refine Kept.ite ?_ ?_
  · exact .refl _
  · dsimp only
    refine Kept.trans ?_ (relive_kept _ _ _)
    refine Kept.trans ?_ (bump_kept _)
    refine Kept.ite ?_ ?_
    · refine Kept.trans ?_ (pinsFollow_kept _ _)
      exact modPin_kept _ _ _
    · with_reducible refine Kept.upd ?_ (.refl _) (.refl _) id
      refine Kept.trans ?_ (pinsFollow_kept _ _)
      exact modPin_kept _ _ _

theorem ioDrive_kept (s : State) (a1 a2 : Nat) (a3 a4 : Word) : Kept s (State.ioDrive s a1 a2 a3 a4) := by
  unfold State.ioDrive
  with_reducible refine Kept.upd ?_ (.refl _) (.refl _) id
  exact .refl _

theorem ioChannelToken_kept (a0 : Nat) (s : State) : Kept s (ioChannelToken a0 s) := by
  unfold ioChannelToken
  dsimp only
  split
  · exact .refl _
  · refine Kept.ite ?_ ?_
    · refine Kept.trans ?_ (ioSend_kept _ _)
      refine Kept.ite ?_ ?_
      · refine Kept.trans ?_ (pinsFollow_kept _ _)
        refine Kept.trans ?_ (ioDrive_kept _ _ _ _ _)
        with_reducible refine Kept.upd ?_ (.refl _) (.refl _) id
        exact .refl _
      · with_reducible refine Kept.upd ?_ (.refl _) (.refl _) id
        exact .refl _
    · refine Kept.ite ?_ ?_
      · refine Kept.trans ?_ (pinsFollow_kept _ _)
        refine Kept.trans ?_ (ioDrive_kept _ _ _ _ _)
        with_reducible refine Kept.upd ?_ (.refl _) (.refl _) id
        exact .refl _
      · with_reducible refine Kept.upd ?_ (.refl _) (.refl _) id
        exact .refl _

theorem fwdckWrite_kept (s : State) (a1 : Nat) (a2 : Word) : Kept s (State.fwdckWrite s a1 a2) := by
  unfold State.fwdckWrite
  dsimp only
  with_reducible refine Kept.upd ?_ (.refl _) (.refl _) id
  exact .refl _

/-! ## Ingress.lean -/

theorem modStream_kept (s : State) (a1 : Nat) (a2 : Stream → Stream) : Kept s (State.modStream s a1 a2) := by
  unfold State.modStream
  with_reducible refine Kept.upd ?_ (.refl _) (.refl _) id
  exact .refl _

theorem issueParts_kept (s : State) (a1 : Nat) : Kept s (State.issueParts s a1) := by
  unfold State.issueParts
  refine Kept.foldl _ _ ?_ (fun _ _ => ?_)
  · exact .refl _
  · dsimp only
    refine Kept.trans ?_ (modStream_kept _ _ _)
    refine Kept.foldl _ _ ?_ (fun _ _ => ?_)
    · exact .refl _
    · exact sendReq_kept _ _

theorem loseLine_kept (s : State) (a1 a2 : Nat) : Kept s (State.loseLine s a1 a2) := by
  unfold State.loseLine
  dsimp only
  split
  · exact .refl _
  · refine Kept.trans ?_ (modStream_kept _ _ _)
    exact rtFill_kept _ _ _

theorem streamRefused_kept (s : State) (a1 a2 : Nat) : Kept s (State.streamRefused s a1 a2) := by
  unfold State.streamRefused
  dsimp only
  refine Kept.ite ?_ ?_
  · refine Kept.trans ?_ (modStream_kept _ _ _)
    exact emit_kept _ _ _ _ _ _
  · exact .refl _

theorem sendRecord_kept (s : State) (a1 : Nat) : Kept s (State.sendRecord s a1) := by
  unfold State.sendRecord
  split
  · exact .refl _
  · refine Kept.ite ?_ ?_
    · exact .refl _
    · refine Kept.trans ?_ (modStream_kept _ _ _)
      exact sendReq_kept _ _

theorem streamGo_kept (s : State) (a1 : Nat) : Kept s (State.streamGo s a1) := by
  unfold State.streamGo
  refine Kept.trans ?_ (sendRecord_kept _ _)
  exact issueParts_kept _ _

theorem startLine_kept (s : State) (a1 : Nat) (a2 : Option (BitVec 48)) : Kept s (State.startLine s a1 a2) := by
  unfold State.startLine
  dsimp only
  refine Kept.ite ?_ ?_
  · exact modStream_kept _ _ _
  · exact modStream_kept _ _ _

theorem lineData_kept (s : State) (a1 : Nat) (a2 : List Byte) (a3 : Bool) : Kept s (State.lineData s a1 a2 a3) := by
  unfold State.lineData
  dsimp only
  split
  · exact modStream_kept _ _ _
  · refine Kept.ite ?_ ?_
    · refine Kept.trans ?_ (modStream_kept _ _ _)
      refine Kept.ite ?_ ?_
      · refine Kept.trans ?_ (rtFill_kept _ _ _)
        exact modStream_kept _ _ _
      · exact modStream_kept _ _ _
    · refine Kept.ite ?_ ?_
      · refine Kept.trans ?_ (rtFill_kept _ _ _)
        exact modStream_kept _ _ _
      · exact modStream_kept _ _ _

theorem ingressToken_kept (a0 a1 : Nat) (a2 : List Word) (s : State) : Kept s (ingressToken a0 a1 a2 s) := by
  unfold ingressToken
  dsimp only
  refine Kept.ite ?_ ?_
  · exact modStream_kept _ _ _
  · refine Kept.trans ?_ (streamGo_kept _ _)
    refine Kept.trans ?_ (lineData_kept _ _ _ _)
    refine Kept.ite ?_ ?_
    · refine Kept.trans ?_ (startLine_kept _ _ _)
      exact modStream_kept _ _ _
    · exact .refl _

theorem partAnswered_kept (s : State) (a1 : Nat) (a2 : Line) (a3 : Nat) (a4 : BitVec 8) :
    Kept s (State.partAnswered s a1 a2 a3 a4) := by
  unfold State.partAnswered
  dsimp only
  refine Kept.ite ?_ ?_
  · exact .refl _
  · refine Kept.ite ?_ ?_
    · refine Kept.trans ?_ (modStream_kept _ _ _)
      exact rtFill_kept _ _ _
    · refine Kept.ite ?_ ?_
      · exact loseLine_kept _ _ _
      · refine Kept.trans ?_ (streamRefused_kept _ _ _)
        exact loseLine_kept _ _ _

theorem recordAnswered_kept (s : State) (a1 : Nat) (a2 : Line) (a3 : BitVec 8) : Kept s (State.recordAnswered s a1 a2 a3) := by
  unfold State.recordAnswered
  dsimp only
  refine Kept.trans ?_ (modStream_kept _ _ _)
  refine Kept.ite ?_ ?_
  · exact .refl _
  · refine Kept.trans ?_ (streamRefused_kept _ _ _)
    exact loseLine_kept _ _ _

theorem linePartWritten_kept (a0 : Nat) (s : State) : Kept s (linePartWritten a0 s) := by
  unfold linePartWritten
  dsimp only
  split
  · exact .refl _
  · split
    · refine Kept.setMem ?_ ?_
      · exact .refl _
      · with_reducible exact id
    · split
      · refine Kept.setMem ?_ ?_
        · exact .refl _
        · with_reducible exact id
      · refine Kept.trans ?_ (streamGo_kept _ _)
        refine Kept.ite ?_ ?_
        · refine Kept.trans ?_ (recordAnswered_kept _ _ _ _)
          refine Kept.setMem ?_ ?_
          · exact .refl _
          · with_reducible exact id
        · refine Kept.trans ?_ (partAnswered_kept _ _ _ _ _)
          refine Kept.setMem ?_ ?_
          · exact .refl _
          · with_reducible exact id

theorem ingcfgWrite_kept (a0 : World) (a1 a2 a3 : Nat) (a4 : Word) (s : State) : Kept s (ingcfgWrite a0 a1 a2 a3 a4 s) := by
  unfold ingcfgWrite
  dsimp only
  refine Kept.ite ?_ ?_
  · exact .refl _
  · refine Kept.ite ?_ ?_
    · refine Kept.ite ?_ ?_
      · refine Kept.trans ?_ (streamGo_kept _ _)
        exact modStream_kept _ _ _
      · exact .refl _
    · refine Kept.ite ?_ ?_
      · exact .refl _
      · exact modStream_kept _ _ _

theorem release_kept (s : State) (a1 a2 : Nat) (a3 : World) (a4 : Bool) : Kept s (State.release s a1 a2 a3 a4).1 := by
  unfold State.release
  dsimp only
  refine Kept.iteFst ?_ ?_
  · dsimp only
    exact .refl _
  · refine Kept.iteFst ?_ ?_
    · dsimp only
      exact .refl _
    · refine Kept.iteFst ?_ ?_
      · dsimp only
        exact .refl _
      · dsimp only
        exact modStream_kept _ _ _

/-! ## Vorot.lean -/

theorem modPort_kept (s : State) (a1 : Nat) (a2 : VPortSt → VPortSt) : Kept s (State.modPort s a1 a2) := by
  unfold State.modPort
  with_reducible refine Kept.upd ?_ (.refl _) (.refl _) id
  exact .refl _

theorem modPel_kept (s : State) (a1 : Peloton → Peloton) : Kept s (State.modPel s a1) := by
  unfold State.modPel
  with_reducible refine Kept.upd ?_ (.refl _) (.refl _) id
  exact .refl _

theorem modLane_kept (s : State) (a1 : Nat) (a2 : Lane → Lane) : Kept s (State.modLane s a1 a2) := by
  unfold State.modLane
  with_reducible refine Kept.upd ?_ (.refl _) (.refl _) id
  exact .refl _

theorem vsend_kept (s : State) (a1 : Nat) (a2 : OutFrame) : Kept s (State.vsend s a1 a2) := by
  unfold State.vsend
  exact modPort_kept _ _ _

theorem relay_kept (s : State) (a1 : OutFrame) (a2 : Bool) : Kept s (State.relay s a1 a2) := by
  unfold State.relay
  dsimp only
  split
  · refine Kept.trans ?_ (vsend_kept _ _ _)
    refine Kept.ite ?_ ?_
    · exact modPel_kept _ _
    · exact .refl _
  · exact modPel_kept _ _

theorem peerFault_kept (s : State) (a1 : Nat × Nat × Nat) : Kept s (State.peerFault s a1) := by
  unfold State.peerFault
  dsimp only
  split
  · exact .refl _
  · refine Kept.ite ?_ ?_
    · refine Kept.trans ?_ (streamFault_kept _ _ _ _ _)
      exact modXfer_kept _ _ _ _ _
    · exact endXfer_kept _ _ _ _

theorem portDown_kept (s : State) (a1 a2 : Nat) : Kept s (State.portDown s a1 a2) := by
  unfold State.portDown
  dsimp only
  refine Kept.foldl _ _ ?_ (fun _ _ => ?_)
  · refine Kept.foldl _ _ ?_ (fun _ _ => ?_)
    · refine Kept.foldl _ _ ?_ (fun _ _ => ?_)
      · exact modPort_kept _ _ _
      · exact modLane_kept _ _ _
    · exact peerFault_kept _ _
  · exact relay_kept _ _ _

theorem portFail_kept (s : State) (a1 a2 : Nat) : Kept s (State.portFail s a1 a2) := by
  unfold State.portFail
  refine Kept.ite ?_ ?_
  · exact .refl _
  · exact portDown_kept _ _ _

theorem portLanes_kept (s : State) (a1 : Nat) : Kept s (State.portLanes s a1) := by
  unfold State.portLanes
  dsimp only
  refine Kept.ite ?_ ?_
  · refine Kept.ite ?_ ?_
    · exact modPort_kept _ _ _
    · exact .refl _
  · refine Kept.ite ?_ ?_
    · exact portDown_kept _ _ _
    · refine Kept.ite ?_ ?_
      · exact modPort_kept _ _ _
      · exact .refl _

theorem sendInit_kept (s : State) (a1 : Nat) : Kept s (State.sendInit s a1) := by
  unfold State.sendInit
  dsimp only
  exact modPort_kept _ _ _

theorem Kept.takeFrame {s t : State} {v kind : Nat} {fr : Frame} {f : State → State} (h : Kept s t)
    (hf : ∀ u, Kept t u → Kept t (f u)) : Kept s (t.takeFrame v kind fr f) := by
  refine h.trans ?_
  unfold State.takeFrame
  dsimp only
  split
  · exact .refl _
  · split
    · exact hf _ (modPort_kept _ _ _)
    · split
      · exact modPort_kept _ _ _
      · split
        · exact .refl _
        · exact modPort_kept _ _ _

theorem link_kept (a0 : Nat) (a1 : BitVec 16) (a2 : Bool) (a3 a4 a5 : Byte) (s : State) :
    Kept s (link a0 a1 a2 a3 a4 a5 s) := by
  unfold link
  dsimp only
  refine Kept.ite ?_ ?_
  · exact .refl _
  · refine Kept.ite ?_ ?_
    · refine Kept.trans ?_ (portFail_kept _ _ _)
      exact modPort_kept _ _ _
    · exact modPort_kept _ _ _

theorem resendTimeout_kept (a0 : Nat) (s : State) : Kept s (resendTimeout a0 s) := by
  unfold resendTimeout
  dsimp only
  refine Kept.ite ?_ ?_
  · exact .refl _
  · refine Kept.ite ?_ ?_
    · refine Kept.trans ?_ (portFail_kept _ _ _)
      exact modPort_kept _ _ _
    · exact modPort_kept _ _ _

theorem acknowledgeTimeout_kept (a0 : Nat) (s : State) : Kept s (acknowledgeTimeout a0 s) := by
  unfold acknowledgeTimeout
  dsimp only
  refine Kept.ite ?_ ?_
  · exact .refl _
  · exact portFail_kept _ _ _

theorem answerPeers_kept (s : State) (a1 : Nat) : Kept s (State.answerPeers s a1) := by
  unfold State.answerPeers
  dsimp only
  exact modPort_kept _ _ _

theorem peerDone_kept (s : State) (a1 a2 : Nat) (a3 : Bool) : Kept s (State.peerDone s a1 a2 a3) := by
  unfold State.peerDone
  refine Kept.trans ?_ (answerPeers_kept _ _)
  exact modPort_kept _ _ _

theorem peerWriteFrame_kept (a0 : Nat) (a1 : Frame) (s : State) : Kept s (peerWriteFrame a0 a1 s) := by
  unfold peerWriteFrame
  refine Kept.takeFrame ?_ (fun _ _ => ?_)
  · exact .refl _
  · dsimp only
    refine Kept.ite ?_ ?_
    · refine Kept.trans ?_ (peerDone_kept _ _ _ _)
      refine Kept.trans ?_ (modPort_kept _ _ _)
      assumption
    · refine Kept.trans ?_ (sendReq_kept _ _)
      refine Kept.trans ?_ (modPort_kept _ _ _)
      assumption

theorem nextPeerReq_kept (s : State) (a1 a2 a3 : Nat) (a4 : HwEvent) : Kept s (State.nextPeerReq s a1 a2 a3 a4) := by
  unfold State.nextPeerReq
  dsimp only
  split
  · refine Kept.ite ?_ ?_
    · exact streamFault_kept _ _ _ _ _
    · refine Kept.ite ?_ ?_
      · exact streamFault_kept _ _ _ _ _
      · refine Kept.bankRead ?_ (fun _ _ => ?_)
        · exact .refl _
        · refine Kept.trans ?_ (vsend_kept _ _ _)
          refine Kept.trans ?_ (modPort_kept _ _ _)
          refine Kept.trans ?_ (modXfer_kept _ _ _ _ _)
          assumption
  · exact .refl _

theorem peer_kept (a0 a1 : Nat) (a2 : HwEvent) (s : State) : Kept s (peer a0 a1 a2 s) := by
  unfold peer
  refine Kept.takeXfer ?_ (fun _ _ _ _ _ _ => ?_)
  · exact .refl _
  · refine Kept.ite ?_ ?_
    · refine Kept.trans ?_ (streamFault_kept _ _ _ _ _)
      assumption
    · dsimp only
      refine Kept.trans ?_ (nextPeerReq_kept _ _ _ _ _)
      refine Kept.trans ?_ (addXfer_kept _ _ _ _)
      refine Kept.trans ?_ (modCtx_kept _ _ _ _)
      assumption

theorem peerAcknowledgeFrame_kept (a0 : Nat) (a1 : Frame) (a2 : HwEvent) (s : State) :
    Kept s (peerAcknowledgeFrame a0 a1 a2 s) := by
  unfold peerAcknowledgeFrame
  refine Kept.takeFrame ?_ (fun _ _ => ?_)
  · exact .refl _
  · dsimp only
    split
    · refine Kept.trans ?_ (modPort_kept _ _ _)
      assumption
    · split
      · refine Kept.trans ?_ (modPort_kept _ _ _)
        refine Kept.trans ?_ (modPort_kept _ _ _)
        assumption
      · refine Kept.ite ?_ ?_
        · refine Kept.trans ?_ (endXfer_kept _ _ _ _)
          refine Kept.trans ?_ (modPort_kept _ _ _)
          refine Kept.trans ?_ (modPort_kept _ _ _)
          assumption
        · refine Kept.ite ?_ ?_
          · refine Kept.trans ?_ (endXfer_kept _ _ _ _)
            refine Kept.trans ?_ (modXfer_kept _ _ _ _ _)
            refine Kept.trans ?_ (modPort_kept _ _ _)
            refine Kept.trans ?_ (modPort_kept _ _ _)
            assumption
          · refine Kept.trans ?_ (nextPeerReq_kept _ _ _ _ _)
            refine Kept.trans ?_ (modXfer_kept _ _ _ _ _)
            refine Kept.trans ?_ (modPort_kept _ _ _)
            refine Kept.trans ?_ (modPort_kept _ _ _)
            assumption

theorem peerRefusalFrame_kept (a0 : Nat) (a1 : Frame) (s : State) : Kept s (peerRefusalFrame a0 a1 s) := by
  unfold peerRefusalFrame
  refine Kept.takeFrame ?_ (fun _ _ => ?_)
  · exact .refl _
  · dsimp only
    split
    · refine Kept.trans ?_ (modPort_kept _ _ _)
      assumption
    · refine Kept.trans ?_ (peerFault_kept _ _)
      refine Kept.trans ?_ (modPort_kept _ _ _)
      refine Kept.trans ?_ (modPort_kept _ _ _)
      assumption

theorem relayFrame_kept (s : State) (a1 : Frame) : Kept s (State.relayFrame s a1) := by
  unfold State.relayFrame
  dsimp only
  exact relay_kept _ _ _

theorem commandFrame_kept (a0 : Nat) (a1 : Frame) (s : State) : Kept s (commandFrame a0 a1 s) := by
  unfold commandFrame
  refine Kept.takeFrame ?_ (fun _ _ => ?_)
  · exact .refl _
  · dsimp only
    refine Kept.ite ?_ ?_
    · refine Kept.ite ?_ ?_
      · refine Kept.trans ?_ (modPel_kept _ _)
        refine Kept.trans ?_ (modPort_kept _ _ _)
        assumption
      · refine Kept.trans ?_ (modPort_kept _ _ _)
        assumption
    · refine Kept.ite ?_ ?_
      · refine Kept.ite ?_ ?_
        · refine Kept.trans ?_ (modPel_kept _ _)
          refine Kept.upd ?_ ?_ ?_ ?_
          · refine Kept.trans ?_ (modPort_kept _ _ _)
            assumption
          · exact .same ⟨rfl, rfl, rfl⟩ rfl rfl
          · with_reducible exact .refl _
          · with_reducible exact id
        · refine Kept.ite ?_ ?_
          · refine Kept.trans ?_ (modPel_kept _ _)
            refine Kept.trans ?_ (modPort_kept _ _ _)
            assumption
          · refine Kept.trans ?_ (modPort_kept _ _ _)
            assumption
      · refine Kept.trans ?_ (relayFrame_kept _ _)
        refine Kept.trans ?_ (modPort_kept _ _ _)
        assumption

theorem sendOut_kept (s : State) (a1 : OutPath) (a2 : DevPacket) : Kept s (State.sendOut s a1 a2) := by
  unfold State.sendOut
  dsimp only
  split
  · refine Kept.upd ?_ ?_ ?_ ?_
    · exact .refl _
    · exact .same ⟨rfl, rfl, rfl⟩ rfl rfl
    · with_reducible exact .refl _
    · with_reducible exact id
  · refine Kept.upd ?_ ?_ ?_ ?_
    · exact .refl _
    · exact .same ⟨rfl, rfl, rfl⟩ rfl rfl
    · with_reducible exact .refl _
    · with_reducible exact id
  · split
    · refine Kept.trans ?_ (vsend_kept _ _ _)
      refine Kept.upd ?_ ?_ ?_ ?_
      · exact .refl _
      · exact .same ⟨rfl, rfl, rfl⟩ rfl rfl
      · with_reducible exact .refl _
      · with_reducible exact id
    · refine Kept.trans ?_ (vsend_kept _ _ _)
      refine Kept.upd ?_ ?_ ?_ ?_
      · exact .refl _
      · exact .same ⟨rfl, rfl, rfl⟩ rfl rfl
      · with_reducible exact .refl _
      · with_reducible exact id
    · refine Kept.trans ?_ (modPel_kept _ _)
      refine Kept.upd ?_ ?_ ?_ ?_
      · exact .refl _
      · exact .same ⟨rfl, rfl, rfl⟩ rfl rfl
      · with_reducible exact .refl _
      · with_reducible exact id

theorem fromMember_kept (s : State) (a1 : List Word) : Kept s (State.fromMember s a1) := by
  unfold State.fromMember
  dsimp only
  exact sendOut_kept _ _ _

theorem replyFrame_kept (a0 : Nat) (a1 : Frame) (s : State) : Kept s (replyFrame a0 a1 s) := by
  unfold replyFrame
  refine Kept.takeFrame ?_ (fun _ _ => ?_)
  · exact .refl _
  · dsimp only
    refine Kept.ite ?_ ?_
    · refine Kept.trans ?_ (modPort_kept _ _ _)
      assumption
    · refine Kept.ite ?_ ?_
      · refine Kept.ite ?_ ?_
        · refine Kept.trans ?_ (fromMember_kept _ _)
          refine Kept.trans ?_ (modPort_kept _ _ _)
          assumption
        · refine Kept.trans ?_ (modPort_kept _ _ _)
          assumption
      · refine Kept.trans ?_ (relayFrame_kept _ _)
        refine Kept.trans ?_ (modPort_kept _ _ _)
        assumption

theorem linkInit_kept (a0 : Nat) (a1 : Frame) (a2 : LinkInit) (s : State) : Kept s (linkInit a0 a1 a2 s) := by
  unfold linkInit
  refine Kept.takeFrame ?_ (fun _ _ => ?_)
  · exact .refl _
  · refine Kept.ite ?_ ?_
    · refine Kept.trans ?_ (portFail_kept _ _ _)
      assumption
    · refine Kept.trans ?_ (modPort_kept _ _ _)
      assumption

theorem pelcfgWrite_kept (s : State) (a1 : Word) : Kept s (State.pelcfgWrite s a1) := by
  unfold State.pelcfgWrite
  dsimp only
  exact modPel_kept _ _

theorem plrouteWrite_kept (s : State) (a1 : Nat) (a2 : Word) : Kept s (State.plrouteWrite s a1 a2) := by
  unfold State.plrouteWrite
  dsimp only
  refine Kept.ite ?_ ?_
  · exact .refl _
  · exact modPel_kept _ _

theorem deliver_kept (s : State) : Kept s (State.deliver s) := by
  unfold State.deliver
  dsimp only
  refine Kept.foldl _ _ ?_ (fun _ _ => ?_)
  · refine Kept.setMem ?_ ?_
    · exact .refl _
    · with_reducible exact id
  · split
    · exact modRegion_kept _ _ _
    · exact peerDone_kept _ _ _ _
    · exact .refl _

/-! ## Lanes.lean -/

theorem laneFailed_kept (s : State) (a1 : Nat) : Kept s (State.laneFailed s a1) := by
  unfold State.laneFailed
  exact emit_kept _ _ _ _ _ _

theorem laneSend_kept (s : State) (a1 a2 : Nat) : Kept s (State.laneSend s a1 a2) := by
  unfold State.laneSend
  dsimp only
  refine Kept.ite ?_ ?_
  · refine Kept.trans ?_ (modRegion_kept _ _ _)
    exact modLane_kept _ _ _
  · exact modLane_kept _ _ _

theorem laneFull_kept (i k : Nat) (s : State) : Kept s (laneFull i k s) := by
  induction k generalizing s with
  | zero => exact .refl _
  | succ k ih =>
    unfold laneFull
    exact Kept.ite ((laneSend_kept _ _ _).trans (ih _)) (.refl _)

theorem laneFlush_kept (s : State) (a1 : Nat) : Kept s (State.laneFlush s a1) := by
  unfold State.laneFlush
  dsimp only
  refine Kept.trans ?_ (modLane_kept _ _ _)
  refine Kept.ite ?_ ?_
  · exact laneSend_kept _ _ _
  · exact .refl _

theorem laneDown_kept (s : State) (a1 a2 : Nat) : Kept s (State.laneDown s a1 a2) := by
  unfold State.laneDown
  dsimp only
  refine Kept.ite ?_ ?_
  · refine Kept.trans ?_ (portFail_kept _ _ _)
    exact laneFlush_kept _ _
  · exact laneFlush_kept _ _

theorem cdrLockChange_kept (a0 a1 : Nat) (a2 : Bool) (s : State) : Kept s (cdrLockChange a0 a1 a2 s) := by
  unfold cdrLockChange
  dsimp only
  refine Kept.ite ?_ ?_
  · exact .refl _
  · refine Kept.ite ?_ ?_
    · refine Kept.trans ?_ (laneDown_kept _ _ _)
      exact modLane_kept _ _ _
    · exact modLane_kept _ _ _

theorem laneAcquireTimeout_kept (a0 a1 : Nat) (s : State) : Kept s (laneAcquireTimeout a0 a1 s) := by
  unfold laneAcquireTimeout
  dsimp only
  refine Kept.ite ?_ ?_
  · refine Kept.trans ?_ (portLanes_kept _ _)
    refine Kept.trans ?_ (laneFailed_kept _ _)
    exact modLane_kept _ _ _
  · exact .refl _

theorem laneReceive_kept (a0 a1 : Nat) (a2 : LaneRx) (s : State) : Kept s (laneReceive a0 a1 a2 s) := by
  unfold laneReceive
  dsimp only
  refine Kept.ite ?_ ?_
  · exact .refl _
  · split
    · refine Kept.ite ?_ ?_
      · refine Kept.ite ?_ ?_
        · refine Kept.trans ?_ (modLane_kept _ _ _)
          exact modLane_kept _ _ _
        · exact modLane_kept _ _ _
      · refine Kept.ite ?_ ?_
        · exact modLane_kept _ _ _
        · refine Kept.trans ?_ (laneFull_kept _ _ _)
          refine Kept.trans ?_ (modLane_kept _ _ _)
          exact modLane_kept _ _ _
    · refine Kept.ite ?_ ?_
      · exact modLane_kept _ _ _
      · refine Kept.ite ?_ ?_
        · refine Kept.trans ?_ (laneDown_kept _ _ _)
          refine Kept.trans ?_ (laneFull_kept _ _ _)
          refine Kept.trans ?_ (modLane_kept _ _ _)
          exact modLane_kept _ _ _
        · refine Kept.trans ?_ (laneFull_kept _ _ _)
          refine Kept.trans ?_ (modLane_kept _ _ _)
          exact modLane_kept _ _ _

theorem laneTransmitToken_kept (a0 a1 : Nat) (a2 : List Word) (s : State) : Kept s (laneTransmitToken a0 a1 a2 s) := by
  unfold laneTransmitToken
  dsimp only
  refine Kept.ite ?_ ?_
  · exact .refl _
  · refine Kept.ite ?_ ?_
    · exact modLane_kept _ _ _
    · refine Kept.ite ?_ ?_
      · exact .refl _
      · refine Kept.ite ?_ ?_
        · exact .refl _
        · exact modLane_kept _ _ _

theorem transmitUnderrun_kept (a0 a1 : Nat) (s : State) : Kept s (transmitUnderrun a0 a1 s) := by
  unfold transmitUnderrun
  dsimp only
  refine Kept.ite ?_ ?_
  · exact .refl _
  · exact modLane_kept _ _ _

theorem portWord_kept (s : State) (a1 : Nat) : Kept s (State.portWord s a1) := by
  unfold State.portWord
  dsimp only
  refine Kept.ite ?_ ?_
  · exact .refl _
  · refine Kept.trans ?_ (modPort_kept _ _ _)
    refine Kept.foldl _ _ ?_ (fun _ _ => ?_)
    · exact .refl _
    · exact modLane_kept _ _ _

theorem laneTime_kept (s : State) : Kept s (State.laneTime s) := by
  unfold State.laneTime
  dsimp only
  refine Kept.foldl _ _ ?_ (fun _ _ => ?_)
  · with_reducible refine Kept.upd ?_ (.refl _) (.refl _) id
    exact .refl _
  · exact portWord_kept _ _

theorem laneEnable_kept (s : State) (a1 : Nat) : Kept s (State.laneEnable s a1) := by
  unfold State.laneEnable
  dsimp only
  refine Kept.ite ?_ ?_
  · refine Kept.trans ?_ (laneFailed_kept _ _)
    exact modLane_kept _ _ _
  · exact modLane_kept _ _ _

theorem laneDisable_kept (s : State) (a1 : Nat) : Kept s (State.laneDisable s a1) := by
  unfold State.laneDisable
  dsimp only
  refine Kept.trans ?_ (modLane_kept _ _ _)
  exact laneFlush_kept _ _

theorem laneCfg_kept (s : State) (a1 : Nat) (a2 : Word) : Kept s (State.laneCfg s a1 a2) := by
  unfold State.laneCfg
  dsimp only
  refine Kept.ite ?_ ?_
  · exact .refl _
  · refine Kept.trans ?_ (portLanes_kept _ _)
    refine Kept.ite ?_ ?_
    · refine Kept.trans ?_ (laneEnable_kept _ _)
      refine Kept.trans ?_ (modLane_kept _ _ _)
      refine Kept.ite ?_ ?_
      · refine Kept.trans ?_ (modLane_kept _ _ _)
        exact laneDisable_kept _ _
      · exact modLane_kept _ _ _
    · refine Kept.trans ?_ (modLane_kept _ _ _)
      refine Kept.ite ?_ ?_
      · refine Kept.trans ?_ (modLane_kept _ _ _)
        exact laneDisable_kept _ _
      · exact modLane_kept _ _ _

theorem lncfgWrite_kept (a0 : World) (a1 a2 : Nat) (a3 : Word) (s : State) : Kept s (lncfgWrite a0 a1 a2 a3 s) := by
  unfold lncfgWrite
  refine Kept.ite ?_ ?_
  · exact laneCfg_kept _ _ _
  · exact .refl _

theorem laneGroupReenable_kept (a0 : Nat) (s : State) : Kept s (laneGroupReenable a0 s) := by
  unfold laneGroupReenable
  refine Kept.ite ?_ ?_
  · exact .refl _
  · dsimp only
    refine Kept.ite ?_ ?_
    · refine Kept.foldl _ _ ?_ (fun _ _ => ?_)
      · refine Kept.foldl _ _ ?_ (fun _ _ => ?_)
        · exact modPel_kept _ _
        · exact laneCfg_kept _ _ _
      · exact laneCfg_kept _ _ _
    · refine Kept.trans ?_ (modPort_kept _ _ _)
      refine Kept.foldl _ _ ?_ (fun _ _ => ?_)
      · exact modPel_kept _ _
      · exact laneCfg_kept _ _ _

theorem marker_kept (a0 a1 a2 a3 a4 a5 a6 : Nat) (s : State) : Kept s (marker a0 a1 a2 a3 a4 a5 a6 s) := by
  unfold marker
  dsimp only
  refine Kept.ite ?_ ?_
  · exact .refl _
  · refine Kept.ite ?_ ?_
    · refine Kept.trans ?_ (portDown_kept _ _ _)
      exact modLane_kept _ _ _
    · refine Kept.ite ?_ ?_
      · refine Kept.trans ?_ (portDown_kept _ _ _)
        exact modLane_kept _ _ _
      · refine Kept.ite ?_ ?_
        · refine Kept.ite ?_ ?_
          · refine Kept.trans ?_ (sendInit_kept _ _)
            refine Kept.trans ?_ (modPort_kept _ _ _)
            exact modLane_kept _ _ _
          · refine Kept.trans ?_ (modPort_kept _ _ _)
            exact modLane_kept _ _ _
        · exact modLane_kept _ _ _

/-! ## Timing.lean -/

theorem modTim_kept (s : State) (a1 : Timing → Timing) : Kept s (State.modTim s a1) := by
  unfold State.modTim
  with_reducible refine Kept.upd ?_ (.refl _) (.refl _) id
  exact .refl _

theorem modBoundary_kept (s : State) (a1 : Nat) (a2 : Boundary → Boundary) : Kept s (State.modBoundary s a1 a2) := by
  unfold State.modBoundary
  exact modTim_kept _ _

theorem handshakeRequest_kept (a0 : Nat) (a1 : Word) (a2 : Bool) (s : State) : Kept s (handshakeRequest a0 a1 a2 s) := by
  unfold handshakeRequest
  dsimp only
  refine Kept.ite ?_ ?_
  · exact .refl _
  · exact modBoundary_kept _ _ _

theorem handshakeAcknowledge_kept (a0 : Nat) (s : State) : Kept s (handshakeAcknowledge a0 s) := by
  unfold handshakeAcknowledge
  dsimp only
  refine Kept.ite ?_ ?_
  · exact .refl _
  · refine Kept.ite ?_ ?_
    · exact modBoundary_kept _ _ _
    · exact modBoundary_kept _ _ _

theorem measureClocks_kept (s : State) (a1 : List (Nat × Nat)) : Kept s (State.measureClocks s a1) := by
  unfold State.measureClocks
  with_reducible refine Kept.upd ?_ (.refl _) (.refl _) id
  exact .refl _

theorem paceWindowClose_kept (a0 : List (BitVec 16)) (a1 : List (Nat × Nat)) (s : State) :
    Kept s (paceWindowClose a0 a1 s) := by
  unfold paceWindowClose
  refine Kept.ite ?_ ?_
  · exact .refl _
  · refine Kept.ite ?_ ?_
    · exact modTim_kept _ _
    · dsimp only
      refine Kept.ite ?_ ?_
      · refine Kept.trans ?_ (emit_kept _ _ _ _ _ _)
        refine Kept.trans ?_ (modTim_kept _ _)
        refine Kept.trans ?_ (measureClocks_kept _ _)
        exact modTim_kept _ _
      · refine Kept.ite ?_ ?_
        · refine Kept.trans ?_ (measureClocks_kept _ _)
          exact modTim_kept _ _
        · refine Kept.trans ?_ (modTim_kept _ _)
          refine Kept.trans ?_ (measureClocks_kept _ _)
          exact modTim_kept _ _

theorem clrmin_kept (a0 : World) (s : State) : Kept s (clrmin a0 s) := by
  unfold clrmin
  refine Kept.ite ?_ ?_
  · exact modTim_kept _ _
  · exact .refl _

theorem losePath_kept (s : State) (a1 : PathId) : Kept s (State.losePath s a1) := by
  unfold State.losePath
  dsimp only
  refine Kept.ite ?_ ?_
  · refine Kept.ite ?_ ?_
    · with_reducible refine Kept.upd ?_ (.refl _) (.refl _) id
      exact .refl _
    · exact .refl _
  · refine Kept.upd ?_ ?_ ?_ ?_
    · refine Kept.ite ?_ ?_
      · with_reducible refine Kept.upd ?_ (.refl _) (.refl _) id
        exact .refl _
      · exact .refl _
    · exact .same ⟨rfl, rfl, rfl⟩ rfl rfl
    · with_reducible exact .refl _
    · with_reducible exact id

theorem refclkLost_kept (s : State) : Kept s (refclkLost s) := by
  unfold refclkLost
  refine Kept.trans ?_ (losePath_kept _ _)
  exact modTim_kept _ _

theorem refclkReturn_kept (s : State) : Kept s (refclkReturn s) := by
  unfold refclkReturn
  exact modTim_kept _ _

theorem vddfSet_kept (a0 : Nat) (s : State) : Kept s (vddfSet a0 s) := by
  unfold vddfSet
  exact modTim_kept _ _

theorem conversion_kept (a0 : Nat) (a1 : BitVec 12) (s : State) : Kept s (conversion a0 a1 s) := by
  unfold conversion
  refine Kept.ite ?_ ?_
  · exact .refl _
  · dsimp only
    refine Kept.ite ?_ ?_
    · refine Kept.trans ?_ (emit_kept _ _ _ _ _ _)
      exact modTim_kept _ _
    · exact modTim_kept _ _

/-! ## Loader.lean -/

theorem modSlot_kept (s : State) (a1 : Nat) (a2 : ImgSlot → ImgSlot) : Kept s (State.modSlot s a1 a2) := by
  unfold State.modSlot
  with_reducible refine Kept.upd ?_ (.refl _) (.refl _) id
  exact .refl _

theorem modLdr_kept (s : State) (a1 : Loader → Loader) : Kept s (State.modLdr s a1) := by
  unfold State.modLdr
  with_reducible refine Kept.upd ?_ (.refl _) (.refl _) id
  exact .refl _

theorem loadSection_kept (s : State) (a1 : Nat) (a2 : List Rec) (a3 : Bool) : Kept s (State.loadSection s a1 a2 a3).1 := by
  unfold State.loadSection
  dsimp only
  refine Kept.iteFst ?_ ?_
  · dsimp only
    exact modRegion_kept _ _ _
  · dsimp only
    exact modRegion_kept _ _ _

theorem loadChecks_kept (s : State) (a1 a2 : Nat) (a3 : Bool) (a4 : World) (a5 : Nat) :
    Kept s (State.loadChecks s a1 a2 a3 a4 a5).1 := by
  unfold State.loadChecks
  split
  · dsimp only
    exact .refl _
  · dsimp only
    refine Kept.iteFst ?_ ?_
    · dsimp only
      exact .refl _
    · refine Kept.iteFst ?_ ?_
      · dsimp only
        exact .refl _
      · refine Kept.iteFst ?_ ?_
        · dsimp only
          exact .refl _
        · refine Kept.iteFst ?_ ?_
          · dsimp only
            exact .refl _
          · refine Kept.iteFst ?_ ?_
            · dsimp only
              exact modSlot_kept _ _ _
            · refine Kept.iteFst ?_ ?_
              · dsimp only
                exact modSlot_kept _ _ _
              · refine Kept.iteFst ?_ ?_
                · dsimp only
                  exact modSlot_kept _ _ _
                · dsimp only
                  exact modSlot_kept _ _ _

theorem handover_kept (s : State) (a1 : List Byte) (a2 : BitVec 32) (a3 : Bool) : Kept s (State.handover s a1 a2 a3) := by
  unfold State.handover
  dsimp only
  refine Kept.ite ?_ ?_
  · refine Kept.upd ?_ ?_ ?_ ?_
    · exact .refl _
    · with_reducible exact .refl _
    · exact .same rfl rfl rfl rfl
    · with_reducible exact id
  · refine Kept.upd ?_ ?_ ?_ ?_
    · exact .refl _
    · with_reducible exact .refl _
    · exact .same rfl rfl rfl rfl
    · with_reducible exact id

theorem endsSafe_kept (u : State) (b : Bool) :
    Kept u (if (b && (decide (u.keel.dstate = .sealed) || decide (u.keel.dstate = .quiesced))) = true then u.setDstate .safe else u) := by
  split
  · rename_i c
    refine Kept.upd (.refl _) ⟨id, id, .inr ⟨rfl, ?_⟩⟩ (.refl _) id
    simp only [Bool.and_eq_true, Bool.or_eq_true, decide_eq_true_eq] at c
    exact c.2
  · exact .refl _

theorem endLoad_kept (s : State) (j : LoadJob) (st : BitVec 8) (det : Word) : Kept s (s.endLoad j st det) := by
  unfold State.endLoad
  extract_lets a b d
  have ha : Kept s a := modSlot_kept _ _ _
  have hb : Kept a b := modLdr_kept _ _
  have hd : Kept b d := endsSafe_kept _ _
  exact ((ha.trans hb).trans hd).trans (complete_kept _ _ _)

/-- Where the reading of a record ends, or whence it goes on. -/
def ReadKept (s : State) : Except Scanned (State × Rec × Scan) → Prop
  | .error r => Kept s r.s
  | .ok r => Kept s r.1

theorem scanRec_kept (base : Nat) (full : Bool) (h : Header) (ecc : List CodeWordError) (stays : Option Nat → Bool) (s : State)
    (sc : Scan) : ReadKept s (scanRec base full h ecc stays s sc) := by
  have one {t : State} {a n : Nat} (g : Kept s t) : Kept s (t.eccRange a n ecc) := g.trans (eccRange_kept _ _ _ _)
  unfold scanRec
  split
  · exact Kept.refl s
  · extract_lets a s1
    have h1 : Kept s s1 := one (.refl _)
    split
    · exact h1
    · extract_lets w0 w1 typ ix len reg s2
      split
      · exact Kept.refl s
      · split
        · exact h1
        · have h2 : Kept s s2 := one h1
          split
          · exact h2
          · split
            · exact h2
            · split
              · exact h2
              · exact h2

theorem scanRecs_kept (base : Nat) (full : Bool) (h : Header) (ecc : List CodeWordError) (stays : Option Nat → Bool) (k : Nat)
    (s : State) (sc : Scan) : Kept s (scanRecs base full h ecc stays k s sc).s := by
  induction k generalizing s sc with
  | zero => exact .refl _
  | succ k ih =>
    have g := scanRec_kept base full h ecc stays s sc
    unfold scanRecs
    split
    · rename_i e; rw [e] at g; exact g
    · rename_i e; rw [e] at g; exact g.trans (ih _ _)

theorem scanJob_kept (s : State) (j : LoadJob) (stays : Option Nat → Bool) : Kept s (s.scanJob j stays).s :=
  scanRecs_kept _ _ _ _ _ _ _ _

theorem endFull_kept (s : State) (a1 : LoadJob) : Kept s (State.endFull s a1) := by
  unfold State.endFull
  dsimp only
  split
  · refine Kept.trans ?_ (endLoad_kept _ _ _ _)
    refine Kept.ite ?_ ?_
    · refine Kept.trans ?_ (modPel_kept _ _)
      refine Kept.ite ?_ ?_
      · exact handover_kept _ _ _ _
      · exact .refl _
    · refine Kept.ite ?_ ?_
      · exact handover_kept _ _ _ _
      · exact .refl _
  · refine Kept.trans ?_ (endLoad_kept _ _ _ _)
    refine Kept.ite ?_ ?_
    · refine Kept.trans ?_ (modPel_kept _ _)
      refine Kept.ite ?_ ?_
      · exact handover_kept _ _ _ _
      · exact .refl _
    · refine Kept.ite ?_ ?_
      · exact handover_kept _ _ _ _
      · exact .refl _

theorem compareChan_kept (s : State) (a1 : List Word) (a2 : Nat) : Kept s (State.compareChan s a1 a2) := by
  unfold State.compareChan
  dsimp only
  refine Kept.ite ?_ ?_
  · refine Kept.trans ?_ (emit_kept _ _ _ _ _ _)
    exact modMchan_kept _ _ _
  · exact modMchan_kept _ _ _

theorem applyRec_kept (s : State) (a1 : Rec) : Kept s (State.applyRec s a1) := by
  unfold State.applyRec
  refine Kept.ite ?_ ?_
  · exact modLdr_kept _ _
  · refine Kept.ite ?_ ?_
    · refine Kept.foldl _ _ ?_ (fun _ _ => ?_)
      · exact .refl _
      · exact compareChan_kept _ _ _
    · exact .refl _

theorem loadClose_kept (s : State) (a1 : LoadJob) (a2 : Nat) : Kept s (State.loadClose s a1 a2) := by
  unfold State.loadClose
  dsimp only
  refine Kept.trans ?_ (closeRegion_kept _ _ _ _)
  refine Kept.trans ?_ (modLdr_kept _ _)
  split
  · exact complete_kept _ _ _
  · exact .refl _

theorem startFull_kept (s : State) (a1 : LoadJob) : Kept s (State.startFull s a1).1 := by
  unfold State.startFull
  dsimp only
  split
  · dsimp only
    refine Kept.trans ?_ (scanJob_kept _ _ _)
    exact .refl _
  · dsimp only
    refine Kept.trans ?_ (loadClose_kept _ _ _)
    refine Kept.foldl _ _ ?_ (fun _ _ => ?_)
    · refine Kept.trans ?_ (scanJob_kept _ _ _)
      exact .refl _
    · exact applyRec_kept _ _

theorem goldenRegion_kept (s : State) (a1 : LoadJob) (a2 : Nat) : Kept s (State.goldenRegion s a1 a2).1 := by
  unfold State.goldenRegion
  dsimp only
  refine Kept.iteFst ?_ ?_
  · dsimp only
    refine Kept.trans ?_ (scanJob_kept _ _ _)
    refine Kept.trans ?_ (scanJob_kept _ _ _)
    exact .refl _
  · refine Kept.iteFst ?_ ?_
    · dsimp only
      refine Kept.trans ?_ (scanJob_kept _ _ _)
      refine Kept.trans ?_ (scanJob_kept _ _ _)
      exact .refl _
    · dsimp only
      refine Kept.trans ?_ (loadSection_kept _ _ _ _)
      refine Kept.trans ?_ (scanJob_kept _ _ _)
      refine Kept.trans ?_ (scanJob_kept _ _ _)
      exact .refl _

theorem loadFailed_kept (s : State) (a1 : LoadJob) (a2 : ScanFail) (a3 : Option Nat) :
    Kept s (State.loadFailed s a1 a2 a3) := by
  unfold State.loadFailed
  dsimp only
  split
  · refine Kept.trans ?_ (endLoad_kept _ _ _ _)
    split
    · exact modRegion_kept _ _ _
    · exact .refl _
  · refine Kept.ite ?_ ?_
    · refine Kept.trans ?_ (endLoad_kept _ _ _ _)
      split
      · exact modRegion_kept _ _ _
      · exact .refl _
    · refine Kept.ite ?_ ?_
      · refine Kept.trans ?_ (endLoad_kept _ _ _ _)
        split
        · exact modRegion_kept _ _ _
        · exact .refl _
      · refine Kept.ite ?_ ?_
        · split
          · refine Kept.trans ?_ (endLoad_kept _ _ _ _)
            refine Kept.trans ?_ (startFull_kept _ _)
            refine Kept.trans ?_ (modSlot_kept _ _ _)
            refine Kept.trans ?_ (modSlot_kept _ _ _)
            split
            · exact modRegion_kept _ _ _
            · exact .refl _
          · refine Kept.trans ?_ (startFull_kept _ _)
            refine Kept.trans ?_ (modSlot_kept _ _ _)
            refine Kept.trans ?_ (modSlot_kept _ _ _)
            split
            · exact modRegion_kept _ _ _
            · exact .refl _
        · refine Kept.trans ?_ (endLoad_kept _ _ _ _)
          refine Kept.trans ?_ (goldenRegion_kept _ _ _)
          refine Kept.trans ?_ (modSlot_kept _ _ _)
          refine Kept.trans ?_ (modSlot_kept _ _ _)
          split
          · exact modRegion_kept _ _ _
          · exact .refl _

theorem loadGo_kept (s : State) (a1 : LoadJob) (a2 : Nat) : Kept s (State.loadGo s a1 a2) := by
  unfold State.loadGo
  dsimp only
  split
  · refine Kept.trans ?_ (loadFailed_kept _ _ _ _)
    refine Kept.trans ?_ (scanJob_kept _ _ _)
    exact .refl _
  · refine Kept.ite ?_ ?_
    · refine Kept.ite ?_ ?_
      · refine Kept.trans ?_ (endLoad_kept _ _ _ _)
        refine Kept.trans ?_ (modRegion_kept _ _ _)
        refine Kept.trans ?_ (scanJob_kept _ _ _)
        exact .refl _
      · refine Kept.ite ?_ ?_
        · refine Kept.trans ?_ (endFull_kept _ _)
          refine Kept.trans ?_ (modRegion_kept _ _ _)
          refine Kept.trans ?_ (scanJob_kept _ _ _)
          exact .refl _
        · refine Kept.trans ?_ (loadClose_kept _ _ _)
          refine Kept.trans ?_ (modRegion_kept _ _ _)
          refine Kept.trans ?_ (scanJob_kept _ _ _)
          exact .refl _
    · refine Kept.ite ?_ ?_
      · refine Kept.ite ?_ ?_
        · refine Kept.trans ?_ (endLoad_kept _ _ _ _)
          refine Kept.trans ?_ (loadSection_kept _ _ _ _)
          refine Kept.trans ?_ (scanJob_kept _ _ _)
          exact .refl _
        · refine Kept.ite ?_ ?_
          · refine Kept.trans ?_ (endFull_kept _ _)
            refine Kept.trans ?_ (loadSection_kept _ _ _ _)
            refine Kept.trans ?_ (scanJob_kept _ _ _)
            exact .refl _
          · refine Kept.trans ?_ (loadClose_kept _ _ _)
            refine Kept.trans ?_ (loadSection_kept _ _ _ _)
            refine Kept.trans ?_ (scanJob_kept _ _ _)
            exact .refl _
      · refine Kept.trans ?_ (loadFailed_kept _ _ _ _)
        refine Kept.trans ?_ (loadSection_kept _ _ _ _)
        refine Kept.trans ?_ (scanJob_kept _ _ _)
        exact .refl _

theorem loadCommand_kept (s : State) (a1 a2 : Nat) (a3 : LoadEnv) : Kept s (State.loadCommand s a1 a2 a3) := by
  unfold State.loadCommand
  dsimp only
  split
  · exact .refl _
  · split
    · refine Kept.trans ?_ (complete_kept _ _ _)
      exact modLdr_kept _ _
    · refine Kept.ite ?_ ?_
      · refine Kept.trans ?_ (complete_kept _ _ _)
        exact modLdr_kept _ _
      · split
        · refine Kept.trans ?_ (endLoad_kept _ _ _ _)
          refine Kept.ofPair ‹_ = (_, _)› ?_
          refine Kept.trans ?_ (loadChecks_kept _ _ _ _ _ _)
          refine Kept.trans ?_ (eccRange_kept _ _ _ _)
          refine Kept.trans ?_ (modLdr_kept _ _)
          refine Kept.trans ?_ (modSlot_kept _ _ _)
          exact modLdr_kept _ _
        · refine Kept.ite ?_ ?_
          · split
            · refine Kept.trans ?_ (loadFailed_kept _ _ _ _)
              refine Kept.trans ?_ (startFull_kept _ _)
              refine Kept.ofPair ‹_ = (_, _)› ?_
              refine Kept.trans ?_ (loadChecks_kept _ _ _ _ _ _)
              refine Kept.trans ?_ (eccRange_kept _ _ _ _)
              refine Kept.trans ?_ (modLdr_kept _ _)
              refine Kept.trans ?_ (modSlot_kept _ _ _)
              exact modLdr_kept _ _
            · refine Kept.trans ?_ (startFull_kept _ _)
              refine Kept.ofPair ‹_ = (_, _)› ?_
              refine Kept.trans ?_ (loadChecks_kept _ _ _ _ _ _)
              refine Kept.trans ?_ (eccRange_kept _ _ _ _)
              refine Kept.trans ?_ (modLdr_kept _ _)
              refine Kept.trans ?_ (modSlot_kept _ _ _)
              exact modLdr_kept _ _
          · refine Kept.trans ?_ (loadClose_kept _ _ _)
            refine Kept.ofPair ‹_ = (_, _)› ?_
            refine Kept.trans ?_ (loadChecks_kept _ _ _ _ _ _)
            refine Kept.trans ?_ (eccRange_kept _ _ _ _)
            refine Kept.trans ?_ (modLdr_kept _ _)
            refine Kept.trans ?_ (modSlot_kept _ _ _)
            exact modLdr_kept _ _

theorem islImageLoad_kept (a0 : Nat) (a1 : LoadEnv) (s : State) : Kept s (islImageLoad a0 a1 s) := by
  unfold islImageLoad
  exact loadCommand_kept _ _ _ _

theorem islRegionLoad_kept (a0 : Nat) (a1 : LoadEnv) (s : State) : Kept s (islRegionLoad a0 a1 s) := by
  unfold islRegionLoad
  exact loadCommand_kept _ _ _ _

theorem abortLoad_kept (s : State) (a1 : Bool) : Kept s (State.abortLoad s a1) := by
  unfold State.abortLoad
  dsimp only
  split
  · exact .refl _
  · refine Kept.ite ?_ ?_
    · refine Kept.trans ?_ (modRegion_kept _ _ _)
      refine Kept.upd ?_ ?_ ?_ ?_
      · refine Kept.trans ?_ (modLdr_kept _ _)
        exact modSlot_kept _ _ _
      · exact .same ⟨rfl, rfl, rfl⟩ rfl rfl
      · with_reducible exact .refl _
      · with_reducible exact id
    · refine Kept.upd ?_ ?_ ?_ ?_
      · refine Kept.trans ?_ (modLdr_kept _ _)
        exact modSlot_kept _ _ _
      · exact .same ⟨rfl, rfl, rfl⟩ rfl rfl
      · with_reducible exact .refl _
      · with_reducible exact id

theorem regionCloseComplete_kept (a0 : Nat) (s : State) : Kept s (regionCloseComplete a0 s) := by
  unfold regionCloseComplete
  dsimp only
  split
  · exact .refl _
  · refine Kept.ite ?_ ?_
    · exact .refl _
    · split
      · refine Kept.trans ?_ (complete_kept _ _ _)
        exact modRegion_kept _ _ _
      · exact modRegion_kept _ _ _
      · exact modRegion_kept _ _ _
      · split
        · refine Kept.ite ?_ ?_
          · exact loadGo_kept _ _ _
          · exact modRegion_kept _ _ _
        · exact modRegion_kept _ _ _

/-! ## Weevil.lean -/

theorem modWeevil_kept (s : State) (a1 : Nat) (a2 : Weevil → Weevil) : Kept s (State.modWeevil s a1 a2) := by
  unfold State.modWeevil
  with_reducible refine Kept.upd ?_ (.refl _) (.refl _) id
  exact .refl _

theorem weevilUpset_kept (s : State) (a1 a2 : Nat) (a3 : Bool) (a4 : Nat) : Kept s (State.weevilUpset s a1 a2 a3 a4) := by
  unfold State.weevilUpset
  dsimp only
  refine Kept.trans ?_ (closeRegion_kept _ _ _ _)
  exact emit_kept _ _ _ _ _ _

theorem weevilRead_kept (n : Nat) (res : List EccResult) (crc : Option Word32) (s : State) : Kept s (weevilRead n res crc s) := by
  unfold weevilRead
  extract_lets
  refine Kept.ite (.refl _) ?_
  extract_lets
  split
  · exact (modWeevil_kept _ _ _).trans (weevilUpset_kept _ _ _ _ _)
  · exact Kept.ite (modWeevil_kept _ _ _)
      (Kept.ite (modWeevil_kept _ _ _) ((modWeevil_kept _ _ _).trans (weevilUpset_kept _ _ _ _ _)))

theorem weevilCheck_kept (a0 : Nat) (s : State) : Kept s (weevilCheck a0 s) := by
  unfold weevilCheck
  refine Kept.ite ?_ ?_
  · exact .refl _
  · dsimp only
    split
    · exact .refl _
    · refine Kept.ite ?_ ?_
      · exact modWeevil_kept _ _ _
      · exact modWeevil_kept _ _ _

theorem wvctlWrite_kept (a0 : World) (a1 : Nat) (a2 : Word) (s : State) : Kept s (wvctlWrite a0 a1 a2 s) := by
  unfold wvctlWrite
  refine Kept.ite ?_ ?_
  · exact .refl _
  · dsimp only
    exact modWeevil_kept _ _ _

end Sys2Proof.Machine
end

