-- ==== Sys2Proof/Laws/KeptKeel.lean ====
section
/-! SUPPORT. What `Kept` names is kept by every operation on the keel, recovery and start-up: one lemma for each. -/
set_option autoImplicit false
namespace Sys2Proof.Machine

/-! ## Registers.lean -/

theorem pacectlWrite_kept (s : State) (a1 : Word) : Kept s (State.pacectlWrite s a1) := by
  unfold State.pacectlWrite
  exact modTim_kept _ _

theorem mctlWrite_kept (s : State) (a1 : Nat) (a2 : Word) : Kept s (State.mctlWrite s a1 a2) := by
  unfold State.mctlWrite
  refine Kept.setMem ?_ ?_
  · exact .refl _
  · with_reducible exact id

theorem tileWordRead_kept (s : State) (a1 : World) (a2 a3 : Nat) : Kept s (State.tileWordRead s a1 a2 a3).1 := by
  unfold State.tileWordRead
  dsimp only
  refine Kept.iteFst ?_ ?_
  · dsimp only
    exact .refl _
  · refine Kept.iteFst ?_ ?_
    · dsimp only
      exact .refl _
    · refine Kept.iteFst ?_ ?_
      · dsimp only
        exact .refl _
      · refine Kept.iteFst ?_ ?_
        · dsimp only
          exact .refl _
        · refine Kept.iteFst ?_ ?_
          · dsimp only
            exact .refl _
          · refine Kept.iteFst ?_ ?_
            · dsimp only
              exact .refl _
            · split
              · dsimp only
                exact .refl _
              · refine Kept.iteFst ?_ ?_
                · dsimp only
                  exact .refl _
                · refine Kept.iteFst ?_ ?_
                  · dsimp only
                    exact modTile_kept _ _ _
                  · dsimp only
                    exact .refl _

theorem readReg_kept (s : State) (a1 : World) (a2 : Nat) : Kept s (State.readReg s a1 a2).1 := by
  unfold State.readReg
  refine Kept.iteFst ?_ ?_
  · dsimp only
    exact .refl _
  · refine Kept.iteFst ?_ ?_
    · dsimp only
      refine Kept.iteFst ?_ ?_
      · exact tileWordRead_kept _ _ _ _
      · refine Kept.iteFst ?_ ?_
        · dsimp only
          exact .refl _
        · refine Kept.iteFst ?_ ?_
          · dsimp only
            exact .refl _
          · refine Kept.iteFst ?_ ?_
            · dsimp only
              exact .refl _
            · refine Kept.iteFst ?_ ?_
              · dsimp only
                exact .refl _
              · dsimp only
                exact .refl _
    · dsimp only
      exact .refl _

theorem fuseEnd_kept (s : State) (a1 : BitVec 2) : Kept s (State.fuseEnd s a1) := by
  unfold State.fuseEnd
  refine Kept.modSec ?_ ?_
  · exact .refl _
  · exact .same rfl rfl rfl rfl

theorem fuseOwner_kept (s : State) (chk : Word32) (blown : Bool) : Kept s (s.fuseOwner chk blown) := by
  unfold State.fuseOwner
  dsimp only
  split
  · exact fuseEnd_kept _ _
  · rename_i h
    have ho : s.sec.owner = false := by cases hs : s.sec.owner <;> simp_all
    refine Kept.ite (Kept.trans (Kept.modSec (.refl _) ⟨rfl, fun e => ?_, id⟩) (fuseEnd_kept _ _))
      (Kept.trans (Kept.modSec (.refl _) (.same rfl rfl rfl rfl)) (fuseEnd_kept _ _))
    rw [ho] at e; cases e

theorem fuseVendor_kept (s : State) (blown : Bool) : Kept s (s.fuseVendor blown) := by
  unfold State.fuseVendor
  refine Kept.ite (fuseEnd_kept _ _) (Kept.ite ?_ ?_)
  · exact Kept.trans (Kept.modSec (.refl _) ⟨rfl, fun e => ⟨e, rfl⟩, fun _ => rfl⟩) (fuseEnd_kept _ _)
  · exact Kept.trans (Kept.modSec (.refl _) (.same rfl rfl rfl rfl)) (fuseEnd_kept _ _)

theorem fuseBlowOwnerRoot_kept (a0 : World) (a1 : Word32) (a2 : Bool) (s : State) : Kept s (fuseBlowOwnerRoot a0 a1 a2 s) := by
  unfold fuseBlowOwnerRoot
  refine Kept.ite ?_ ?_
  · exact fuseOwner_kept _ _ _
  · exact .refl _

theorem fuseDisableVendorRoot_kept (a0 : World) (a1 : Word32) (a2 : Bool) (s : State) :
    Kept s (fuseDisableVendorRoot a0 a1 a2 s) := by
  unfold fuseDisableVendorRoot
  refine Kept.ite ?_ ?_
  · exact .refl _
  · refine Kept.ite ?_ ?_
    · exact fuseEnd_kept _ _
    · exact fuseVendor_kept _ _

theorem fusecmdWrite_kept (s : State) (a1 : Word) : Kept s (State.fusecmdWrite s a1) := by
  unfold State.fusecmdWrite
  dsimp only
  refine Kept.ite ?_ ?_
  · refine Kept.trans ?_ (bump_kept _)
    exact fuseBlowOwnerRoot_kept _ _ _ _
  · refine Kept.ite ?_ ?_
    · refine Kept.trans ?_ (bump_kept _)
      exact fuseDisableVendorRoot_kept _ _ _ _
    · exact .refl _

theorem keelWrite_kept (s : State) (a1 : Nat) (a2 : Word) : Kept s (State.keelWrite s a1 a2) := by
  unfold State.keelWrite
  dsimp only
  split
  · refine Kept.ite ?_ ?_
    · exact pacectlWrite_kept _ _
    · exact .refl _
  · refine Kept.ite ?_ ?_
    · exact gpiocfgWrite_kept _ _ _ _ _
    · refine Kept.ite ?_ ?_
      · with_reducible refine Kept.upd ?_ (.refl _) (.refl _) id
        exact .refl _
      · refine Kept.ite ?_ ?_
        · exact fwdckWrite_kept _ _ _
        · exact .refl _
  · refine Kept.ite ?_ ?_
    · exact mrtSet_kept _ _ _
    · refine Kept.ite ?_ ?_
      · exact mctlWrite_kept _ _ _
      · refine Kept.ite ?_ ?_
        · exact rtportWrite_kept _ _ _ _ _
        · exact .refl _
  · refine Kept.ite ?_ ?_
    · exact laneCfg_kept _ _ _
    · refine Kept.ite ?_ ?_
      · exact pelcfgWrite_kept _ _
      · refine Kept.ite ?_ ?_
        · exact plrouteWrite_kept _ _ _
        · exact .refl _
  · refine Kept.ite ?_ ?_
    · exact odocfgWrite_kept _ _ _ _
    · exact .refl _
  · refine Kept.ite ?_ ?_
    · refine Kept.modSec ?_ ?_
      · exact .refl _
      · exact .same rfl rfl rfl rfl
    · refine Kept.ite ?_ ?_
      · exact fusecmdWrite_kept _ _
      · exact .refl _
  · refine Kept.ite ?_ ?_
    · with_reducible refine Kept.upd ?_ (.refl _) (.refl _) id
      exact .refl _
    · exact .refl _
  · refine Kept.ite ?_ ?_
    · exact ingcfgWrite_kept _ _ _ _ _ _
    · exact .refl _
  · refine Kept.ite ?_ ?_
    · refine Kept.upd ?_ ?_ ?_ ?_
      · exact .refl _
      · exact .same ⟨rfl, rfl, rfl⟩ rfl rfl
      · with_reducible exact .refl _
      · with_reducible exact id
    · exact .refl _
  · exact .refl _

theorem writeReg_kept (s : State) (a1 : World) (a2 : Nat) (a3 : Word) : Kept s (State.writeReg s a1 a2 a3) := by
  unfold State.writeReg
  refine Kept.ite ?_ ?_
  · exact .refl _
  · refine Kept.ite ?_ ?_
    · exact keelWrite_kept _ _ _
    · refine Kept.ite ?_ ?_
      · dsimp only
        refine Kept.ite ?_ ?_
        · with_reducible refine Kept.upd ?_ (.refl _) (.refl _) id
          exact .refl _
        · refine Kept.ite ?_ ?_
          · exact wvctlWrite_kept _ _ _ _
          · exact .refl _
      · exact .refl _

theorem registerWrite_kept (a0 : World) (a1 : Nat) (a2 : Word) (s : State) : Kept s (registerWrite a0 a1 a2 s) := by
  unfold registerWrite
  refine Kept.whenUp ?_ (fun _ => ?_)
  · exact .refl _
  · exact writeReg_kept _ _ _ _

/-! ## Intake.lean -/

theorem sendReply_kept (s : State) (a1 : LgEntry) (a2 : Reply) (a3 : Bool) : Kept s (State.sendReply s a1 a2 a3) := by
  unfold State.sendReply
  dsimp only
  refine Kept.trans ?_ (sendOut_kept _ _ _)
  exact modChan_kept _ _ _

theorem creditNotice_kept (s : State) (a1 : Nat) : Kept s (State.creditNotice s a1) := by
  unfold State.creditNotice
  dsimp only
  refine Kept.ite ?_ ?_
  · exact .refl _
  · refine Kept.trans ?_ (sendOut_kept _ _ _)
    exact modChan_kept _ _ _

theorem creditNow_kept (s : State) (a1 : Nat) : Kept s (State.creditNow s a1) := by
  unfold State.creditNow
  refine Kept.foldl _ _ ?_ (fun _ _ => ?_)
  · exact .refl _
  · exact creditNotice_kept _ _

theorem deliverRack_kept (s : State) (a1 a2 : Nat) : Kept s (State.deliverRack s a1 a2) := by
  unfold State.deliverRack
  dsimp only
  refine Kept.ite ?_ ?_
  · refine Kept.trans ?_ (modChan_kept _ _ _)
    refine Kept.foldl _ _ ?_ (fun _ _ => ?_)
    · exact .refl _
    · refine Kept.trans ?_ (lgFree_kept _ _)
      refine Kept.upd ?_ ?_ ?_ ?_
      · exact .refl _
      · exact .same ⟨rfl, rfl, rfl⟩ rfl rfl
      · with_reducible exact .refl _
      · with_reducible exact id
  · refine Kept.trans ?_ (creditNow_kept _ _)
    refine Kept.trans ?_ (modChan_kept _ _ _)
    refine Kept.foldl _ _ ?_ (fun _ _ => ?_)
    · exact .refl _
    · refine Kept.trans ?_ (lgFree_kept _ _)
      refine Kept.upd ?_ ?_ ?_ ?_
      · exact .refl _
      · exact .same ⟨rfl, rfl, rfl⟩ rfl rfl
      · with_reducible exact .refl _
      · with_reducible exact id

theorem notice_kept (s : State) (a1 : OutPath) (a2 : Packet) (a3 a4 : Nat) : Kept s (State.notice s a1 a2 a3 a4) := by
  unfold State.notice
  dsimp only
  refine Kept.trans ?_ (sendOut_kept _ _ _)
  refine Kept.ite ?_ ?_
  · exact modChan_kept _ _ _
  · exact .refl _

theorem resend_kept (s : State) (a1 a2 a3 : Nat) : Kept s (State.resend s a1 a2 a3) := by
  unfold State.resend
  split
  · split
    · refine Kept.ite ?_ ?_
      · exact sendReply_kept _ _ _ _
      · exact .refl _
    · exact .refl _
  · exact .refl _

theorem passed_kept (s : State) (a1 : Packet) : Kept s (State.passed s a1) := by
  unfold State.passed
  dsimp only
  refine Kept.ite ?_ ?_
  · refine Kept.trans ?_ (deliverRack_kept _ _ _)
    exact modChan_kept _ _ _
  · refine Kept.ite ?_ ?_
    · refine Kept.upd ?_ ?_ ?_ ?_
      · refine Kept.trans ?_ (deliverRack_kept _ _ _)
        exact modChan_kept _ _ _
      · exact .same ⟨rfl, rfl, rfl⟩ rfl rfl
      · with_reducible exact .refl _
      · with_reducible exact id
    · refine Kept.trans ?_ (resend_kept _ _ _ _)
      refine Kept.trans ?_ (deliverRack_kept _ _ _)
      exact modChan_kept _ _ _

theorem forMember_kept (s : State) (a1 : OutPath) (a2 : Packet) : Kept s (State.forMember s a1 a2) := by
  unfold State.forMember
  split
  · exact notice_kept _ _ _ _ _
  · refine Kept.ite ?_ ?_
    · exact notice_kept _ _ _ _ _
    · split
      · exact relay_kept _ _ _
      · exact notice_kept _ _ _ _ _

theorem packetIn_kept (s : State) (a1 : OutPath) (a2 : Packet) : Kept s (State.packetIn s a1 a2) := by
  unfold State.packetIn
  refine Kept.ite ?_ ?_
  · exact forMember_kept _ _ _
  · split
    · exact notice_kept _ _ _ _ _
    · split
      · exact notice_kept _ _ _ _ _
      · exact passed_kept _ _

theorem intake_kept (s : State) (a1 : Bool) (a2 : IntakeSrc) : Kept s (State.intake s a1 a2) := by
  unfold State.intake
  dsimp only
  split
  · refine Kept.ite ?_ ?_
    · exact .refl _
    · split
      · refine Kept.ite ?_ ?_
        · exact packetIn_kept _ _ _
        · exact .refl _
      · exact .refl _
  · split
    · exact .refl _
    · refine Kept.ite ?_ ?_
      · refine Kept.trans ?_ (packetIn_kept _ _ _)
        refine Kept.upd ?_ ?_ ?_ ?_
        · exact .refl _
        · exact .same ⟨rfl, rfl, rfl⟩ rfl rfl
        · with_reducible exact .refl _
        · with_reducible exact id
      · exact .refl _

theorem packetIntake_kept (a0 : IntakeSrc) (s : State) : Kept s (packetIntake a0 s) := by
  unfold packetIntake
  exact intake_kept _ _ _

theorem islAck_kept (a0 : IntakeSrc) (s : State) : Kept s (islAck a0 s) := by
  unfold islAck
  exact intake_kept _ _ _

theorem acceptance_kept (a0 : Nat) (s : State) : Kept s (acceptance a0 s) := by
  unfold acceptance
  dsimp only
  split
  · exact .refl _
  · split
    · exact .refl _
    · refine Kept.ite ?_ ?_
      · exact .refl _
      · refine Kept.trans ?_ (modChan_kept _ _ _)
        refine Kept.trans ?_ (lgPut_kept _ _ _)
        refine Kept.upd ?_ ?_ ?_ ?_
        · exact .refl _
        · exact .same ⟨rfl, rfl, rfl⟩ rfl rfl
        · with_reducible exact .refl _
        · with_reducible exact id

theorem commandStart_kept (a0 : Nat) (s : State) : Kept s (commandStart a0 s) := by
  unfold commandStart
  refine Kept.ite ?_ ?_
  · exact .refl _
  · dsimp only
    split
    · exact .refl _
    · split
      · refine Kept.ite ?_ ?_
        · refine Kept.trans ?_ (emit_kept _ _ _ _ _ _)
          with_reducible refine Kept.upd ?_ (.refl _) (.refl _) id
          refine Kept.trans ?_ (complete_kept _ _ _)
          refine Kept.upd ?_ ?_ ?_ ?_
          · exact .refl _
          · exact .same ⟨rfl, rfl, rfl⟩ rfl rfl
          · with_reducible exact .refl _
          · with_reducible exact id
        · refine Kept.trans ?_ (complete_kept _ _ _)
          refine Kept.upd ?_ ?_ ?_ ?_
          · exact .refl _
          · exact .same ⟨rfl, rfl, rfl⟩ rfl rfl
          · with_reducible exact .refl _
          · with_reducible exact id
      · split
        · refine Kept.trans ?_ (complete_kept _ _ _)
          refine Kept.ite ?_ ?_
          · refine Kept.upd ?_ ?_ ?_ ?_
            · exact .refl _
            · exact .same ⟨rfl, rfl, rfl⟩ rfl rfl
            · with_reducible exact .refl _
            · with_reducible exact id
          · refine Kept.upd ?_ ?_ ?_ ?_
            · exact .refl _
            · exact .same ⟨rfl, rfl, rfl⟩ rfl rfl
            · with_reducible exact .refl _
            · with_reducible exact id
        · refine Kept.ite ?_ ?_
          · refine Kept.trans ?_ (modLdr_kept _ _)
            refine Kept.trans ?_ (lgPut_kept _ _ _)
            refine Kept.ite ?_ ?_
            · refine Kept.upd ?_ ?_ ?_ ?_
              · exact .refl _
              · exact .same ⟨rfl, rfl, rfl⟩ rfl rfl
              · with_reducible exact .refl _
              · with_reducible exact id
            · refine Kept.upd ?_ ?_ ?_ ?_
              · exact .refl _
              · exact .same ⟨rfl, rfl, rfl⟩ rfl rfl
              · with_reducible exact .refl _
              · with_reducible exact id
          · refine Kept.upd ?_ ?_ ?_ ?_
            · refine Kept.trans ?_ (lgPut_kept _ _ _)
              refine Kept.ite ?_ ?_
              · refine Kept.upd ?_ ?_ ?_ ?_
                · exact .refl _
                · exact .same ⟨rfl, rfl, rfl⟩ rfl rfl
                · with_reducible exact .refl _
                · with_reducible exact id
              · refine Kept.upd ?_ ?_ ?_ ?_
                · exact .refl _
                · exact .same ⟨rfl, rfl, rfl⟩ rfl rfl
                · with_reducible exact .refl _
                · with_reducible exact id
            · exact .same ⟨rfl, rfl, rfl⟩ rfl rfl
            · with_reducible exact .refl _
            · with_reducible exact id

theorem replySend_kept (a0 : Nat) (s : State) : Kept s (replySend a0 s) := by
  unfold replySend
  refine Kept.ite ?_ ?_
  · exact .refl _
  · split
    · split
      · refine Kept.ite ?_ ?_
        · refine Kept.trans ?_ (modChan_kept _ _ _)
          exact sendReply_kept _ _ _ _
        · exact .refl _
      · exact .refl _
    · exact .refl _

theorem eventRecordSend_kept (s : State) : Kept s (eventRecordSend s) := by
  unfold eventRecordSend
  split
  · exact .refl _
  · rename_i e rest h
    refine Kept.ite (.refl _) ?_
    refine Kept.trans ?_ (sendOut_kept _ _ _)
    refine Kept.upd (.refl _) ⟨id, fun l => ?_, .inl rfl⟩ (.refl _) id
    rw [h, List.length_cons] at l
    exact Nat.le_of_succ_le l

/-! ## Islamon.lean -/

theorem done_kept (s : State) (a1 : Nat) (a2 : BitVec 8) : Kept s (State.done s a1 a2) := by
  unfold State.done
  exact complete_kept _ _ _

theorem islNop_kept (a0 : Nat) (s : State) : Kept s (islNop a0 s) := by
  unfold islNop
  refine Kept.islRun ?_ (fun _ _ _ _ => ?_)
  · exact .refl _
  · refine Kept.trans ?_ (done_kept _ _ _)
    assumption

theorem islChannelSet_kept (a0 : Nat) (s : State) : Kept s (islChannelSet a0 s) := by
  unfold islChannelSet
  refine Kept.islRun ?_ (fun _ _ _ _ => ?_)
  · exact .refl _
  · dsimp only
    refine Kept.ite ?_ ?_
    · refine Kept.trans ?_ (done_kept _ _ _)
      assumption
    · refine Kept.ite ?_ ?_
      · refine Kept.trans ?_ (done_kept _ _ _)
        refine Kept.trans ?_ (modChan_kept _ _ _)
        assumption
      · refine Kept.ite ?_ ?_
        · refine Kept.trans ?_ (done_kept _ _ _)
          assumption
        · refine Kept.trans ?_ (done_kept _ _ _)
          refine Kept.trans ?_ (modChan_kept _ _ _)
          assumption

theorem readWords_kept (w : World) (n a : Nat) (s : State) : Kept s (readWords w n a s).1 := by
  induction n generalizing s a with
  | zero => exact .refl _
  | succ n ih => exact (readReg_kept _ _ _).trans (ih _ _)

theorem hostRead_kept (s : State) (a1 : World) (a2 a3 : Nat) (a4 : List CodeWordError) :
    Kept s (State.hostRead s a1 a2 a3 a4).1 := by
  unfold State.hostRead
  dsimp only
  refine Kept.iteFst ?_ ?_
  · dsimp only
    exact readWords_kept _ _ _ _
  · refine Kept.iteFst ?_ ?_
    · refine Kept.iteFst ?_ ?_
      · dsimp only
        exact .refl _
      · split
        · dsimp only
          exact eccRange_kept _ _ _ _
        · dsimp only
          exact eccRange_kept _ _ _ _
        · dsimp only
          exact eccRange_kept _ _ _ _
    · refine Kept.iteFst ?_ ?_
      · refine Kept.iteFst ?_ ?_
        · split
          · dsimp only
            exact eccRange_kept _ _ _ _
          · dsimp only
            exact eccRange_kept _ _ _ _
          · dsimp only
            exact eccRange_kept _ _ _ _
        · dsimp only
          exact .refl _
      · refine Kept.iteFst ?_ ?_
        · split
          · dsimp only
            exact eccRange_kept _ _ _ _
          · dsimp only
            exact eccRange_kept _ _ _ _
          · dsimp only
            exact eccRange_kept _ _ _ _
        · refine Kept.iteFst ?_ ?_
          · dsimp only
            exact .refl _
          · dsimp only
            exact .refl _

theorem islRead_kept (a0 : Nat) (a1 : List CodeWordError) (s : State) : Kept s (islRead a0 a1 s) := by
  unfold islRead
  refine Kept.islRun ?_ (fun _ _ _ _ => ?_)
  · exact .refl _
  · dsimp only
    refine Kept.ite ?_ ?_
    · refine Kept.trans ?_ (done_kept _ _ _)
      assumption
    · refine Kept.ite ?_ ?_
      · exact Kept.upd ‹_› (.same ⟨rfl, rfl, rfl⟩ rfl rfl) (by with_reducible exact .refl _) (by with_reducible exact id)
      · split
        · refine Kept.trans ?_ (complete_kept _ _ _)
          refine Kept.ofPair ‹_ = (_, _)› ?_
          refine Kept.trans ?_ (hostRead_kept _ _ _ _ _)
          assumption
        · refine Kept.ite ?_ ?_
          · refine Kept.trans ?_ (complete_kept _ _ _)
            refine Kept.ofPair ‹_ = (_, _)› ?_
            refine Kept.trans ?_ (hostRead_kept _ _ _ _ _)
            assumption
          · refine Kept.trans ?_ (complete_kept _ _ _)
            refine Kept.trans ?_ (sendOut_kept _ _ _)
            refine Kept.ofPair ‹_ = (_, _)› ?_
            refine Kept.trans ?_ (hostRead_kept _ _ _ _ _)
            assumption

theorem writeWords_kept (w : World) (vs : List Word) (a : Nat) (s : State) : Kept s (writeWords w vs a s) := by
  induction vs generalizing s a with
  | nil => exact .refl _
  | cons v rest ih => exact (writeReg_kept _ _ _ _).trans (ih _ _)

theorem islWrite_kept (a0 : Nat) (a1 : List CodeWordError) (s : State) : Kept s (islWrite a0 a1 s) := by
  unfold islWrite
  refine Kept.islRun ?_ (fun _ _ _ _ => ?_)
  · exact .refl _
  · dsimp only
    refine Kept.ite ?_ ?_
    · refine Kept.trans ?_ (done_kept _ _ _)
      assumption
    · refine Kept.ite ?_ ?_
      · refine Kept.trans ?_ (done_kept _ _ _)
        refine Kept.trans ?_ (writeWords_kept _ _ _ _)
        assumption
      · refine Kept.ite ?_ ?_
        · refine Kept.trans ?_ (done_kept _ _ _)
          assumption
        · refine Kept.ite ?_ ?_
          · refine Kept.trans ?_ (done_kept _ _ _)
            assumption
          · refine Kept.ite ?_ ?_
            · exact Kept.upd ‹_› (.same ⟨rfl, rfl, rfl⟩ rfl rfl) (by with_reducible exact .refl _) (by with_reducible exact id)
            · split
              · refine Kept.trans ?_ (done_kept _ _ _)
                refine Kept.ofPair ‹_ = (_, _)› ?_
                refine Kept.trans ?_ (memWrite_kept _ _ _)
                refine Kept.trans ?_ (eccWrite_kept _ _ _ _)
                assumption
              · refine Kept.trans ?_ (complete_kept _ _ _)
                refine Kept.ofPair ‹_ = (_, _)› ?_
                refine Kept.trans ?_ (memWrite_kept _ _ _)
                refine Kept.trans ?_ (eccWrite_kept _ _ _ _)
                assumption

theorem islStoreWrite_kept (a0 : Nat) (a1 : List CodeWordError) (s : State) : Kept s (islStoreWrite a0 a1 s) := by
  unfold islStoreWrite
  refine Kept.islRun ?_ (fun _ _ _ _ => ?_)
  · exact .refl _
  · dsimp only
    refine Kept.ite ?_ ?_
    · refine Kept.trans ?_ (done_kept _ _ _)
      assumption
    · refine Kept.ite ?_ ?_
      · refine Kept.trans ?_ (done_kept _ _ _)
        assumption
      · refine Kept.ite ?_ ?_
        · refine Kept.trans ?_ (done_kept _ _ _)
          assumption
        · refine Kept.ite ?_ ?_
          · refine Kept.trans ?_ (done_kept _ _ _)
            assumption
          · refine Kept.ite ?_ ?_
            · exact Kept.upd ‹_› (.same ⟨rfl, rfl, rfl⟩ rfl rfl) (by with_reducible exact .refl _) (by with_reducible exact id)
            · split
              · refine Kept.trans ?_ (done_kept _ _ _)
                refine Kept.ofPair ‹_ = (_, _)› ?_
                refine Kept.trans ?_ (memWrite_kept _ _ _)
                refine Kept.trans ?_ (eccWrite_kept _ _ _ _)
                refine Kept.trans ?_ (modSlot_kept _ _ _)
                assumption
              · refine Kept.trans ?_ (done_kept _ _ _)
                refine Kept.ofPair ‹_ = (_, _)› ?_
                refine Kept.trans ?_ (memWrite_kept _ _ _)
                refine Kept.trans ?_ (eccWrite_kept _ _ _ _)
                refine Kept.trans ?_ (modSlot_kept _ _ _)
                assumption

theorem islRegionClose_kept (a0 : Nat) (s : State) : Kept s (islRegionClose a0 s) := by
  unfold islRegionClose
  refine Kept.islRun ?_ (fun _ _ _ _ => ?_)
  · exact .refl _
  · dsimp only
    refine Kept.ite ?_ ?_
    · refine Kept.trans ?_ (done_kept _ _ _)
      assumption
    · refine Kept.ite ?_ ?_
      · refine Kept.trans ?_ (closeRegion_kept _ _ _ _)
        assumption
      · refine Kept.ite ?_ ?_
        · refine Kept.trans ?_ (done_kept _ _ _)
          assumption
        · refine Kept.trans ?_ (done_kept _ _ _)
          assumption

theorem islMemTrain_kept (a0 : Nat) (s : State) : Kept s (islMemTrain a0 s) := by
  unfold islMemTrain
  refine Kept.islRun ?_ (fun _ _ _ _ => ?_)
  · exact .refl _
  · refine Kept.ite ?_ ?_
    · refine Kept.trans ?_ (done_kept _ _ _)
      assumption
    · dsimp only
      refine Kept.ite ?_ ?_
      · refine Kept.trans ?_ (done_kept _ _ _)
        assumption
      · refine Kept.foldl _ _ ?_ (fun _ _ => ?_)
        · assumption
        · exact modMchan_kept _ _ _

theorem quiesceDrainEnd_kept (s : State) : Kept s (quiesceDrainEnd s) := by
  unfold quiesceDrainEnd
  dsimp only
  split
  · exact .refl _
  · refine Kept.ite ?_ ?_
    · refine Kept.trans ?_ (done_kept _ _ _)
      refine Kept.upd ?_ ?_ ?_ ?_
      · exact .refl _
      · exact .same ⟨rfl, rfl, rfl⟩ rfl rfl
      · with_reducible exact .refl _
      · with_reducible exact id
    · exact .refl _

theorem islTaskIssue_kept (a0 : Nat) (a1 : List CodeWordError) (s : State) : Kept s (islTaskIssue a0 a1 s) := by
  unfold islTaskIssue
  refine Kept.islRun ?_ (fun _ _ _ _ => ?_)
  · exact .refl _
  · refine Kept.ite ?_ ?_
    · exact Kept.upd ‹_› (.same ⟨rfl, rfl, rfl⟩ rfl rfl) (by with_reducible exact .refl _) (by with_reducible exact id)
    · dsimp only
      split
      · refine Kept.trans ?_ (complete_kept _ _ _)
        refine Kept.ofPair ‹_ = (_, _)› ?_
        refine Kept.trans ?_ (issueCheck_kept _ _ _)
        assumption
      · refine Kept.trans ?_ (bump_kept _)
        with_reducible refine Kept.upd ?_ (.refl _) (.refl _) id
        refine Kept.ofPair ‹_ = (_, _)› ?_
        refine Kept.trans ?_ (issueCheck_kept _ _ _)
        assumption

theorem cancelUnstarted_kept (s : State) (a1 : Nat) : Kept s (State.cancelUnstarted s a1) := by
  unfold State.cancelUnstarted
  dsimp only
  refine Kept.trans ?_ (complete_kept _ _ _)
  refine Kept.upd ?_ ?_ ?_ ?_
  · exact .refl _
  · exact .same ⟨rfl, rfl, rfl⟩ rfl rfl
  · with_reducible exact .refl _
  · with_reducible exact id

theorem islTaskCancel_kept (a0 : Nat) (s : State) : Kept s (islTaskCancel a0 s) := by
  unfold islTaskCancel
  refine Kept.islRun ?_ (fun _ _ _ _ => ?_)
  · exact .refl _
  · refine Kept.ite ?_ ?_
    · refine Kept.trans ?_ (done_kept _ _ _)
      assumption
    · dsimp only
      split
      · refine Kept.trans ?_ (complete_kept _ _ _)
        assumption
      · refine Kept.ite ?_ ?_
        · refine Kept.trans ?_ (complete_kept _ _ _)
          assumption
        · refine Kept.trans ?_ (complete_kept _ _ _)
          split
          · refine Kept.trans ?_ (cancelUnstarted_kept _ _)
            refine Kept.trans ?_ (lgPut_kept _ _ _)
            assumption
          · refine Kept.trans ?_ (modCtx_kept _ _ _ _)
            refine Kept.trans ?_ (lgPut_kept _ _ _)
            assumption

theorem islFlagsClear_kept (a0 : Nat) (s : State) : Kept s (islFlagsClear a0 s) := by
  unfold islFlagsClear
  refine Kept.islRun ?_ (fun _ _ _ _ => ?_)
  · exact .refl _
  · dsimp only
    refine Kept.ite ?_ ?_
    · refine Kept.trans ?_ (done_kept _ _ _)
      assumption
    · split
      · refine Kept.trans ?_ (done_kept _ _ _)
        assumption
      · refine Kept.trans ?_ (complete_kept _ _ _)
        refine Kept.trans ?_ (modTile_kept _ _ _)
        assumption

theorem islCtrSet_kept (a0 : Nat) (s : State) : Kept s (islCtrSet a0 s) := by
  unfold islCtrSet
  refine Kept.islRun ?_ (fun _ _ _ _ => ?_)
  · exact .refl _
  · dsimp only
    refine Kept.ite ?_ ?_
    · refine Kept.trans ?_ (done_kept _ _ _)
      assumption
    · refine Kept.trans ?_ (done_kept _ _ _)
      with_reducible refine Kept.upd ?_ (.refl _) (.refl _) id
      assumption

theorem islOdoPreset_kept (a0 : Nat) (s : State) : Kept s (islOdoPreset a0 s) := by
  unfold islOdoPreset
  refine Kept.islRun ?_ (fun _ _ _ _ => ?_)
  · exact .refl _
  · refine Kept.ite ?_ ?_
    · refine Kept.trans ?_ (done_kept _ _ _)
      assumption
    · dsimp only
      refine Kept.trans ?_ (done_kept _ _ _)
      refine Kept.trans ?_ (preset_kept _ _ _ _ _)
      assumption

theorem islActArm_kept (a0 : Nat) (s : State) : Kept s (islActArm a0 s) := by
  unfold islActArm
  refine Kept.islRun ?_ (fun _ _ _ _ => ?_)
  · exact .refl _
  · refine Kept.ite ?_ ?_
    · refine Kept.trans ?_ (done_kept _ _ _)
      assumption
    · dsimp only
      refine Kept.trans ?_ (done_kept _ _ _)
      refine Kept.trans ?_ (arm_kept _ _ _ _ _ _)
      assumption

theorem islActCancel_kept (a0 : Nat) (s : State) : Kept s (islActCancel a0 s) := by
  unfold islActCancel
  refine Kept.islRun ?_ (fun _ _ _ _ => ?_)
  · exact .refl _
  · refine Kept.ite ?_ ?_
    · refine Kept.trans ?_ (done_kept _ _ _)
      assumption
    · dsimp only
      refine Kept.trans ?_ (done_kept _ _ _)
      refine Kept.trans ?_ (unarm_kept _ _ _ _)
      assumption

theorem islIngRelease_kept (a0 : Nat) (s : State) : Kept s (islIngRelease a0 s) := by
  unfold islIngRelease
  refine Kept.islRun ?_ (fun _ _ _ _ => ?_)
  · exact .refl _
  · refine Kept.ite ?_ ?_
    · refine Kept.trans ?_ (done_kept _ _ _)
      assumption
    · dsimp only
      refine Kept.trans ?_ (done_kept _ _ _)
      refine Kept.trans ?_ (release_kept _ _ _ _ _)
      assumption

theorem setTileWorld_kept (s : State) (a1 a2 : Nat) (a3 : World) : Kept s (State.setTileWorld s a1 a2 a3) := by
  unfold State.setTileWorld
  dsimp only
  refine Kept.modSec ?_ ?_
  · split
    · exact .refl _
    · exact modTile_kept _ _ _
  · exact .same rfl rfl rfl rfl

theorem islWorldSetTile_kept (a0 : Nat) (s : State) : Kept s (islWorldSetTile a0 s) := by
  unfold islWorldSetTile
  refine Kept.islRun ?_ (fun _ _ _ _ => ?_)
  · exact .refl _
  · dsimp only
    refine Kept.ite ?_ ?_
    · exact .refl _
    · refine Kept.ite ?_ ?_
      · refine Kept.trans ?_ (done_kept _ _ _)
        assumption
      · refine Kept.ite ?_ ?_
        · refine Kept.trans ?_ (done_kept _ _ _)
          assumption
        · refine Kept.ite ?_ ?_
          · refine Kept.trans ?_ (done_kept _ _ _)
            assumption
          · refine Kept.trans ?_ (done_kept _ _ _)
            refine Kept.trans ?_ (setTileWorld_kept _ _ _ _)
            assumption

theorem islWorldSetCounterBank_kept (a0 : Nat) (s : State) : Kept s (islWorldSetCounterBank a0 s) := by
  unfold islWorldSetCounterBank
  refine Kept.islRun ?_ (fun _ _ _ _ => ?_)
  · exact .refl _
  · dsimp only
    refine Kept.ite ?_ ?_
    · exact .refl _
    · refine Kept.ite ?_ ?_
      · refine Kept.trans ?_ (done_kept _ _ _)
        assumption
      · refine Kept.ite ?_ ?_
        · refine Kept.trans ?_ (done_kept _ _ _)
          assumption
        · refine Kept.trans ?_ (done_kept _ _ _)
          refine Kept.upd ?_ ?_ ?_ ?_
          · assumption
          · with_reducible exact .refl _
          · exact .same rfl rfl rfl rfl
          · with_reducible exact id

theorem islWorldSetLaneGroup_kept (a0 : Nat) (s : State) : Kept s (islWorldSetLaneGroup a0 s) := by
  unfold islWorldSetLaneGroup
  refine Kept.islRun ?_ (fun _ _ _ _ => ?_)
  · exact .refl _
  · dsimp only
    refine Kept.ite ?_ ?_
    · exact .refl _
    · refine Kept.ite ?_ ?_
      · refine Kept.trans ?_ (done_kept _ _ _)
        assumption
      · refine Kept.ite ?_ ?_
        · refine Kept.trans ?_ (done_kept _ _ _)
          assumption
        · refine Kept.ite ?_ ?_
          · refine Kept.trans ?_ (done_kept _ _ _)
            assumption
          · refine Kept.trans ?_ (done_kept _ _ _)
            refine Kept.modSec ?_ ?_
            · assumption
            · exact .same rfl rfl rfl rfl

theorem attest_kept (s : State) (a1 : Nat) (a2 : World) (a3 : List CodeWordError) : Kept s (State.attest s a1 a2 a3) := by
  unfold State.attest
  dsimp only
  refine Kept.ite ?_ ?_
  · exact done_kept _ _ _
  · refine Kept.ite ?_ ?_
    · exact done_kept _ _ _
    · refine Kept.ite ?_ ?_
      · exact done_kept _ _ _
      · refine Kept.ite ?_ ?_
        · exact Kept.upd (.refl _) (.same ⟨rfl, rfl, rfl⟩ rfl rfl) (by with_reducible exact .refl _) (by with_reducible exact id)
        · refine Kept.ite ?_ ?_
          · refine Kept.modSec ?_ ?_
            · exact .refl _
            · exact .same rfl rfl rfl rfl
          · split
            · refine Kept.trans ?_ (complete_kept _ _ _)
              refine Kept.ofPair ‹_ = (_, _)› ?_
              refine Kept.trans ?_ (memWrite_kept _ _ _)
              refine Kept.trans ?_ (eccWrite_kept _ _ _ _)
              refine Kept.modSec ?_ ?_
              · exact .refl _
              · exact .same rfl rfl rfl rfl
            · refine Kept.trans ?_ (done_kept _ _ _)
              refine Kept.ofPair ‹_ = (_, _)› ?_
              refine Kept.trans ?_ (memWrite_kept _ _ _)
              refine Kept.trans ?_ (eccWrite_kept _ _ _ _)
              refine Kept.modSec ?_ ?_
              · exact .refl _
              · exact .same rfl rfl rfl rfl

theorem islAttest_kept (a0 : Nat) (a1 : List CodeWordError) (s : State) : Kept s (islAttest a0 a1 s) := by
  unfold islAttest
  refine Kept.islRun ?_ (fun _ _ _ _ => ?_)
  · exact .refl _
  · refine Kept.trans ?_ (attest_kept _ _ _ _)
    assumption

/-! ## Recovery.lean -/

theorem modFlt_kept (s : State) (a1 : Faults → Faults) : Kept s (State.modFlt s a1) := by
  unfold State.modFlt
  with_reducible refine Kept.upd ?_ (.refl _) (.refl _) id
  exact .refl _

theorem modPt_kept (s : State) (a1 : Nat) (a2 : PTile → PTile) : Kept s (State.modPt s a1 a2) := by
  unfold State.modPt
  exact modFlt_kept _ _

theorem setDie_kept (s : State) (a1 : Nat) (a2 : BitVec 2) (a3 : Nat) : Kept s (State.setDie s a1 a2 a3) := by
  unfold State.setDie
  exact modFlt_kept _ _

theorem dropFlying_kept (s : State) (a1 a2 : Nat) : Kept s (State.dropFlying s a1 a2) := by
  unfold State.dropFlying
  dsimp only
  refine Kept.trans ?_ (modCtx_kept _ _ _ _)
  with_reducible refine Kept.upd ?_ (.refl _) (.refl _) id
  refine Kept.setMem ?_ ?_
  · refine Kept.trans ?_ (dropLoads_kept _ _)
    with_reducible refine Kept.upd ?_ (.refl _) (.refl _) id
    refine Kept.foldl _ _ ?_ (fun _ _ => ?_)
    · exact .refl _
    · split
      · refine Kept.ite ?_ ?_
        · exact returnVal_kept _ _ _ _
        · exact .refl _
      · exact .refl _
  · with_reducible exact id

theorem resetCtx_kept (s : State) (a1 a2 : Nat) (a3 : Bool) : Kept s (State.resetCtx s a1 a2 a3) := by
  unfold State.resetCtx
  dsimp only
  refine Kept.trans ?_ (modTile_kept _ _ _)
  split
  · refine Kept.trans ?_ (dropFlying_kept _ _ _)
    exact returnValues_kept _ _ _
  · refine Kept.ite ?_ ?_
    · refine Kept.trans ?_ (finishTask_kept _ _ _)
      refine Kept.trans ?_ (modCtx_kept _ _ _ _)
      refine Kept.trans ?_ (dropFlying_kept _ _ _)
      exact returnValues_kept _ _ _
    · refine Kept.ite ?_ ?_
      · with_reducible refine Kept.upd ?_ (.refl _) (.refl _) id
        refine Kept.trans ?_ (dropFlying_kept _ _ _)
        exact returnValues_kept _ _ _
      · refine Kept.trans ?_ (dropFlying_kept _ _ _)
        exact returnValues_kept _ _ _

theorem resetTile_kept (s : State) (a1 : Nat) (a2 : Bool) : Kept s (State.resetTile s a1 a2) := by
  unfold State.resetTile
  refine Kept.trans ?_ (resetCtx_kept _ _ _ _)
  exact resetCtx_kept _ _ _ _

theorem clearTile_kept (s : State) (a1 : Nat) : Kept s (State.clearTile s a1) := by
  unfold State.clearTile
  exact modTile_kept _ _ _

theorem testSpoke_kept (s : State) (a1 : Nat) : Kept s (State.testSpoke s a1) := by
  unfold State.testSpoke
  dsimp only
  refine Kept.ite ?_ ?_
  · refine Kept.trans ?_ (modSide_kept _ _ _)
    refine Kept.ite ?_ ?_
    · exact modSide_kept _ _ _
    · exact .refl _
  · refine Kept.ite ?_ ?_
    · exact modSide_kept _ _ _
    · exact .refl _

theorem retest_kept (s : State) (a1 : List (SpokeDir × WireTest)) (a2 : Nat) : Kept s (State.retest s a1 a2) := by
  unfold State.retest
  dsimp only
  refine Kept.ite ?_ ?_
  · exact .refl _
  · refine Kept.ite ?_ ?_
    · refine Kept.trans ?_ (failSpoke_kept _ _ _)
      refine Kept.trans ?_ (modSide_kept _ _ _)
      exact modSide_kept _ _ _
    · refine Kept.ite ?_ ?_
      · refine Kept.trans ?_ (addSwap_kept _ _)
        refine Kept.trans ?_ (modSide_kept _ _ _)
        exact modSide_kept _ _ _
      · refine Kept.trans ?_ (modSide_kept _ _ _)
        exact modSide_kept _ _ _

theorem dropRegion_kept (s : State) (a1 : Nat) : Kept s (State.dropRegion s a1) := by
  unfold State.dropRegion
  dsimp only
  refine Kept.trans ?_ (modRegion_kept _ _ _)
  refine Kept.ite ?_ ?_
  · refine Kept.trans ?_ (closeRegion_kept _ _ _ _)
    split
    · exact complete_kept _ _ _
    · exact .refl _
  · split
    · exact complete_kept _ _ _
    · exact .refl _

theorem unplacedReplies_kept (s : State) (a1 a2 : Nat) : Kept s (State.unplacedReplies s a1 a2) := by
  unfold State.unplacedReplies
  dsimp only
  refine Kept.foldl _ _ ?_ (fun _ _ => ?_)
  · with_reducible refine Kept.upd ?_ (.refl _) (.refl _) id
    exact .refl _
  · exact complete_kept _ _ _

theorem isolated_kept (s : State) (a1 : Nat) : Kept s (State.isolated s a1) := by
  unfold State.isolated
  dsimp only
  refine Kept.trans ?_ (emit_kept _ _ _ _ _ _)
  refine Kept.foldl _ _ ?_ (fun _ _ => ?_)
  · refine Kept.foldl _ _ ?_ (fun _ _ => ?_)
    · exact setDie_kept _ _ _ _
    · refine Kept.trans ?_ (modSide_kept _ _ _)
      refine Kept.trans ?_ (handBack_kept _ _)
      refine Kept.trans ?_ (modSide_kept _ _ _)
      exact handBack_kept _ _
  · refine Kept.trans ?_ (modPt_kept _ _ _)
    refine Kept.ite ?_ ?_
    · exact unplacedReplies_kept _ _ _
    · exact .refl _

theorem afterSwap_kept (s : State) (a1 : SwapWhy) : Kept s (State.afterSwap s a1) := by
  unfold State.afterSwap
  dsimp only
  split
  · refine Kept.trans ?_ (emit_kept _ _ _ _ _ _)
    refine Kept.trans ?_ (modFlt_kept _ _)
    refine Kept.trans ?_ (modPt_kept _ _ _)
    exact modPt_kept _ _ _
  · refine Kept.trans ?_ (unplacedReplies_kept _ _ _)
    refine Kept.trans ?_ (emit_kept _ _ _ _ _ _)
    refine Kept.trans ?_ (modFlt_kept _ _)
    exact modPt_kept _ _ _
  · exact emit_kept _ _ _ _ _ _
  · exact isolated_kept _ _
  · exact .refl _

theorem swapDone_kept (s : State) : Kept s (State.swapDone s) := by
  unfold State.swapDone
  dsimp only
  split
  · exact .refl _
  · refine Kept.ite ?_ ?_
    · refine Kept.foldl _ _ ?_ (fun _ _ => ?_)
      · refine Kept.trans ?_ (afterSwap_kept _ _)
        exact modFlt_kept _ _
      · exact routerGo_kept _ _
    · exact .refl _

theorem isolate_kept (s : State) (a1 a2 : Nat) : Kept s (State.isolate s a1 a2) := by
  unfold State.isolate
  refine Kept.ite ?_ ?_
  · exact .refl _
  · dsimp only
    refine Kept.trans ?_ (swapDone_kept _)
    refine Kept.trans ?_ (addSwap_kept _ _)
    refine Kept.trans ?_ (modFlt_kept _ _)
    refine Kept.foldl _ _ ?_ (fun _ _ => ?_)
    · refine Kept.foldl _ _ ?_ (fun _ _ => ?_)
      · exact setDie_kept _ _ _ _
      · exact resetTile_kept _ _ _
    · exact dropRegion_kept _ _

theorem checkDies_kept (s : State) : Kept s (State.checkDies s) := by
  unfold State.checkDies
  refine Kept.foldl _ _ ?_ (fun _ _ => ?_)
  · exact .refl _
  · refine Kept.ite ?_ ?_
    · exact isolate_kept _ _ _
    · exact .refl _

theorem dieControlTimeout_kept (a0 : Nat) (a1 : Bool) (s : State) : Kept s (dieControlTimeout a0 a1 s) := by
  unfold dieControlTimeout
  refine Kept.ite ?_ ?_
  · exact isolate_kept _ _ _
  · exact .refl _

theorem spareSubstitution_kept (s : State) : Kept s (spareSubstitution s) := by
  unfold spareSubstitution
  dsimp only
  split
  · exact .refl _
  · refine Kept.ite ?_ ?_
    · exact .refl _
    · split
      · refine Kept.trans ?_ (addSwap_kept _ _)
        exact clearTile_kept _ _
      · exact addSwap_kept _ _

theorem routeTableSwap_kept (a0 : Nat) (s : State) : Kept s (routeTableSwap a0 s) := by
  unfold routeTableSwap
  dsimp only
  split
  · exact .refl _
  · refine Kept.ite ?_ ?_
    · exact .refl _
    · refine Kept.trans ?_ (swapDone_kept _)
      exact modFlt_kept _ _

theorem ejectionReport_kept (a0 a1 : Nat) (s : State) : Kept s (ejectionReport a0 a1 s) := by
  unfold ejectionReport
  refine Kept.ite ?_ ?_
  · refine Kept.trans ?_ (routerGo_kept _ _)
    exact modFlt_kept _ _
  · exact .refl _

theorem recredit_kept (s : State) (a1 : Nat) : Kept s (State.recredit s a1) := by
  unfold State.recredit
  dsimp only
  exact modChan_kept _ _ _

theorem restart_kept (s : State) (a1 : Nat) : Kept s (State.restart s a1) := by
  unfold State.restart
  dsimp only
  refine Kept.trans ?_ (emit_kept _ _ _ _ _ _)
  exact modChan_kept _ _ _

theorem repairEntry_kept (s : State) (a1 : Nat) (a2 : BitVec 3) : Kept s (State.repairEntry s a1 a2) := by
  unfold State.repairEntry
  refine Kept.ite ?_ ?_
  · exact .refl _
  · dsimp only
    refine Kept.ite ?_ ?_
    · exact emit_kept _ _ _ _ _ _
    · split
      · exact emit_kept _ _ _ _ _ _
      · refine Kept.trans ?_ (lgFree_kept _ _)
        refine Kept.modKeel ?_ ?_
        · exact emit_kept _ _ _ _ _ _
        · exact .same ⟨rfl, rfl, rfl⟩ rfl rfl

theorem rebuild_kept (s : State) (a1 : List (Nat × BitVec 3)) : Kept s (State.rebuild s a1) := by
  unfold State.rebuild
  dsimp only
  refine Kept.foldl _ _ ?_ (fun _ _ => ?_)
  · with_reducible refine Kept.upd ?_ (.refl _) (.refl _) id
    refine Kept.setMem ?_ ?_
    · refine Kept.trans ?_ (modFlt_kept _ _)
      refine Kept.modSec ?_ ?_
      · refine Kept.trans ?_ (modLdr_kept _ _)
        refine Kept.modKeel ?_ ?_
        · refine Kept.modKeel ?_ ?_
          · refine Kept.foldl _ _ ?_ (fun _ _ => ?_)
            · exact .refl _
            · exact repairEntry_kept _ _ _
          · exact .same ⟨rfl, rfl, rfl⟩ rfl rfl
        · exact .same ⟨rfl, rfl, rfl⟩ rfl rfl
      · exact .same rfl rfl rfl rfl
    · with_reducible exact id
  · refine Kept.trans ?_ (restart_kept _ _)
    refine Kept.trans ?_ (recredit_kept _ _)
    exact modChan_kept _ _ _

theorem endAllTasks_kept (s : State) : Kept s (State.endAllTasks s) := by
  unfold State.endAllTasks
  dsimp only
  with_reducible refine Kept.upd ?_ (.refl _) (.refl _) id
  refine Kept.foldl _ _ ?_ (fun _ _ => ?_)
  · exact .refl _
  · exact resetTile_kept _ _ _

theorem failover_kept (s : State) (a1 : BitVec 3) (a2 : List (Nat × BitVec 3)) : Kept s (State.failover s a1 a2) := by
  unfold State.failover
  refine Kept.ite ?_ ?_
  · exact .refl _
  · dsimp only
    refine Kept.trans ?_ (emit_kept _ _ _ _ _ _)
    refine Kept.trans ?_ (modFlt_kept _ _)
    refine Kept.trans ?_ (rebuild_kept _ _)
    refine Kept.trans ?_ (abortLoad_kept _ _)
    exact endAllTasks_kept _

theorem tandemWatchdog_kept (s : State) : Kept s (tandemWatchdog s) := by
  unfold tandemWatchdog
  exact failover_kept _ _ _

theorem tandemFailover_kept (a0 : FailoverCause) (a1 : List (Nat × BitVec 3)) (s : State) :
    Kept s (tandemFailover a0 a1 s) := by
  unfold tandemFailover
  exact failover_kept _ _ _

theorem standbySelfTest_kept (a0 : Bool) (s : State) : Kept s (standbySelfTest a0 s) := by
  unfold standbySelfTest
  refine Kept.ite ?_ ?_
  · exact modFlt_kept _ _
  · exact .refl _

theorem Kept.resetRun {s t : State} {c kind limit : Nat} {f : Nat → State → State} (h : Kept s t)
    (hf : ∀ n u, Kept t u → Kept t (f n u)) : Kept s (t.resetRun c kind limit f) := by
  refine h.trans ?_
  unfold State.resetRun
  refine Kept.islRun (.refl _) (fun i e u hu => ?_)
  dsimp only
  refine Kept.ite (.refl _) (Kept.ite (hu.trans (done_kept _ _ _)) ?_)
  refine hf _ _ ?_
  refine Kept.trans ?_ (modFlt_kept _ _)
  exact Kept.modKeel hu (.same ⟨rfl, rfl, rfl⟩ rfl rfl)

theorem islResetTile_kept (a0 : Nat) (s : State) : Kept s (islResetTile a0 s) := by
  unfold islResetTile
  refine Kept.resetRun ?_ (fun _ _ _ => ?_)
  · exact .refl _
  · refine Kept.foldl _ _ ?_ (fun _ _ => ?_)
    · assumption
    · split
      · refine Kept.trans ?_ (clearTile_kept _ _)
        exact resetTile_kept _ _ _
      · exact .refl _

theorem tempInvalid_kept (s : State) (a1 : Nat) : Kept s (State.tempInvalid s a1) := by
  unfold State.tempInvalid
  exact modTim_kept _ _

theorem islResetFieldDie_kept (a0 : Nat) (s : State) : Kept s (islResetFieldDie a0 s) := by
  unfold islResetFieldDie
  refine Kept.resetRun ?_ (fun _ _ _ => ?_)
  · exact .refl _
  · refine Kept.ite ?_ ?_
    · assumption
    · dsimp only
      refine Kept.trans ?_ (addSwap_kept _ _)
      refine Kept.foldl _ _ ?_ (fun _ _ => ?_)
      · refine Kept.trans ?_ (tempInvalid_kept _ _)
        refine Kept.trans ?_ (modTim_kept _ _)
        refine Kept.trans ?_ (modWeevil_kept _ _ _)
        refine Kept.foldl _ _ ?_ (fun _ _ => ?_)
        · refine Kept.foldl _ _ ?_ (fun _ _ => ?_)
          · split
            · refine Kept.ite ?_ ?_
              · refine Kept.trans ?_ (abortLoad_kept _ _)
                refine Kept.trans ?_ (setDie_kept _ _ _ _)
                assumption
              · refine Kept.trans ?_ (setDie_kept _ _ _ _)
                assumption
            · refine Kept.trans ?_ (setDie_kept _ _ _ _)
              assumption
          · refine Kept.trans ?_ (clearTile_kept _ _)
            exact resetTile_kept _ _ _
        · exact dropRegion_kept _ _
      · exact testSpoke_kept _ _

theorem laneOff_kept (s : State) (a1 : Nat) : Kept s (State.laneOff s a1) := by
  unfold State.laneOff
  dsimp only
  refine Kept.ite ?_ ?_
  · refine Kept.trans ?_ (portFail_kept _ _ _)
    refine Kept.trans ?_ (modLane_kept _ _ _)
    exact laneFlush_kept _ _
  · refine Kept.trans ?_ (modLane_kept _ _ _)
    exact laneFlush_kept _ _

theorem laneOn_kept (s : State) (a1 : Nat) : Kept s (State.laneOn s a1) := by
  unfold State.laneOn
  dsimp only
  refine Kept.ite ?_ ?_
  · exact .refl _
  · refine Kept.trans ?_ (portLanes_kept _ _)
    refine Kept.ite ?_ ?_
    · refine Kept.trans ?_ (laneFailed_kept _ _)
      exact modLane_kept _ _ _
    · exact modLane_kept _ _ _

theorem intoSref_kept (s : State) (a1 : Nat) : Kept s (State.intoSref s a1) := by
  unfold State.intoSref
  refine Kept.trans ?_ (modMchan_kept _ _ _)
  exact flush_kept _ _

theorem outOfSref_kept (s : State) (a1 : Nat) : Kept s (State.outOfSref s a1) := by
  unfold State.outOfSref
  exact modMchan_kept _ _ _

theorem odoReset_kept (s : State) (a1 : Nat) : Kept s (State.odoReset s a1) := by
  unfold State.odoReset
  dsimp only
  refine Kept.foldl _ _ ?_ (fun _ _ => ?_)
  · with_reducible refine Kept.upd ?_ (.refl _) (.refl _) id
    refine Kept.foldl _ _ ?_ (fun _ _ => ?_)
    · exact .refl _
    · exact actRecord_kept _ _ _
  · exact modOdo_kept _ _ _

theorem streamReset_kept (s : State) (a1 : Nat) : Kept s (State.streamReset s a1) := by
  unfold State.streamReset
  dsimp only
  refine Kept.setMem ?_ ?_
  · refine Kept.trans ?_ (modStream_kept _ _ _)
    refine Kept.foldl _ _ ?_ (fun _ _ => ?_)
    · exact .refl _
    · exact loseLine_kept _ _ _
  · with_reducible exact id

theorem islResetRim_kept (a0 : Nat) (s : State) : Kept s (islResetRim a0 s) := by
  unfold islResetRim
  refine Kept.resetRun ?_ (fun _ _ _ => ?_)
  · exact .refl _
  · dsimp only
    refine Kept.foldl _ _ ?_ (fun _ _ => ?_)
    · refine Kept.trans ?_ (tempInvalid_kept _ _)
      refine Kept.foldl _ _ ?_ (fun _ _ => ?_)
      · refine Kept.foldl _ _ ?_ (fun _ _ => ?_)
        · refine Kept.trans ?_ (odoReset_kept _ _)
          refine Kept.foldl _ _ ?_ (fun _ _ => ?_)
          · refine Kept.modKeel ?_ ?_
            · assumption
            · exact .same ⟨rfl, rfl, rfl⟩ rfl rfl
          · exact laneOff_kept _ _
        · exact intoSref_kept _ _
      · exact streamReset_kept _ _
    · exact testSpoke_kept _ _

theorem islResetLane_kept (a0 : Nat) (s : State) : Kept s (islResetLane a0 s) := by
  unfold islResetLane
  refine Kept.resetRun ?_ (fun _ _ _ => ?_)
  · exact .refl _
  · refine Kept.trans ?_ (laneOff_kept _ _)
    assumption

theorem islResetSpoke_kept (a0 : Nat) (s : State) : Kept s (islResetSpoke a0 s) := by
  unfold islResetSpoke
  refine Kept.resetRun ?_ (fun _ _ _ => ?_)
  · exact .refl _
  · refine Kept.trans ?_ (testSpoke_kept _ _)
    assumption

theorem islResetRegion_kept (a0 : Nat) (s : State) : Kept s (islResetRegion a0 s) := by
  unfold islResetRegion
  refine Kept.resetRun ?_ (fun _ _ _ => ?_)
  · exact .refl _
  · dsimp only
    refine Kept.ite ?_ ?_
    · refine Kept.ite ?_ ?_
      · refine Kept.trans ?_ (modWeevil_kept _ _ _)
        refine Kept.trans ?_ (modRegion_kept _ _ _)
        refine Kept.trans ?_ (closeRegion_kept _ _ _ _)
        assumption
      · refine Kept.trans ?_ (modRegion_kept _ _ _)
        refine Kept.trans ?_ (closeRegion_kept _ _ _ _)
        assumption
    · refine Kept.trans ?_ (modRegion_kept _ _ _)
      refine Kept.ite ?_ ?_
      · refine Kept.trans ?_ (abortLoad_kept _ _)
        split
        · refine Kept.trans ?_ (complete_kept _ _ _)
          assumption
        · assumption
      · split
        · refine Kept.trans ?_ (complete_kept _ _ _)
          assumption
        · assumption

theorem resetOver_kept (s : State) (a1 : ResetUnit) (a2 : Bool) : Kept s (State.resetOver s a1 a2) := by
  unfold State.resetOver
  dsimp only
  refine Kept.foldl _ _ ?_ (fun _ _ => ?_)
  · exact modFlt_kept _ _
  · refine Kept.trans ?_ (emit_kept _ _ _ _ _ _)
    split
    · exact complete_kept _ _ _
    · exact .refl _

theorem releaseUnit_kept (s : State) (a1 : ResetUnit) : Kept s (State.releaseUnit s a1) := by
  unfold State.releaseUnit
  dsimp only
  split
  · exact .refl _
  · refine Kept.ite ?_ ?_
    · refine Kept.trans ?_ (addSwap_kept _ _)
      exact setDie_kept _ _ _ _
    · exact .refl _
  · refine Kept.foldl _ _ ?_ (fun _ _ => ?_)
    · refine Kept.foldl _ _ ?_ (fun _ _ => ?_)
      · refine Kept.modKeel ?_ ?_
        · exact .refl _
        · exact .same ⟨rfl, rfl, rfl⟩ rfl rfl
      · exact outOfSref_kept _ _
    · exact laneOn_kept _ _
  · exact laneOn_kept _ _
  · exact .refl _
  · refine Kept.ite ?_ ?_
    · exact .refl _
    · refine Kept.ite ?_ ?_
      · exact modRegion_kept _ _ _
      · exact modRegion_kept _ _ _

theorem partResetComplete_kept (a0 : ResetUnit) (a1 : List (SpokeDir × WireTest)) (s : State) :
    Kept s (partResetComplete a0 a1 s) := by
  unfold partResetComplete
  dsimp only
  refine Kept.ite ?_ ?_
  · exact .refl _
  · split
    · refine Kept.foldl _ _ ?_ (fun _ _ => ?_)
      · refine Kept.trans ?_ (resetOver_kept _ _ _)
        refine Kept.trans ?_ (checkDies_kept _)
        refine Kept.foldl _ _ ?_ (fun _ _ => ?_)
        · exact releaseUnit_kept _ _
        · exact retest_kept _ _ _
      · exact streamGo_kept _ _
    · refine Kept.trans ?_ (resetOver_kept _ _ _)
      refine Kept.trans ?_ (checkDies_kept _)
      refine Kept.foldl _ _ ?_ (fun _ _ => ?_)
      · exact releaseUnit_kept _ _
      · exact retest_kept _ _ _

theorem partResetTimeout_kept (a0 : ResetUnit) (a1 : List (Fin 4)) (s : State) : Kept s (partResetTimeout a0 a1 s) := by
  unfold partResetTimeout
  refine Kept.ite ?_ ?_
  · exact .refl _
  · dsimp only
    refine Kept.trans ?_ (resetOver_kept _ _ _)
    split
    · refine Kept.foldl _ _ ?_ (fun _ _ => ?_)
      · exact .refl _
      · split
        · refine Kept.ite ?_ ?_
          · refine Kept.trans ?_ (bump_kept _)
            exact modFlt_kept _ _
          · exact .refl _
        · exact .refl _
    · exact isolate_kept _ _ _
    · refine Kept.trans ?_ (portLanes_kept _ _)
      refine Kept.trans ?_ (laneFailed_kept _ _)
      exact modLane_kept _ _ _
    · refine Kept.trans ?_ (checkDies_kept _)
      exact failSpoke_kept _ _ _
    · refine Kept.ite ?_ ?_
      · exact modRegion_kept _ _ _
      · exact .refl _
    · exact .refl _

/-! ## Startup.lean -/

theorem tilePlacement_kept (s : State) : Kept s (tilePlacement s) := by
  unfold tilePlacement
  refine Kept.ite ?_ ?_
  · exact .refl _
  · dsimp only
    refine Kept.trans ?_ (checkDies_kept _)
    refine Kept.foldl _ _ ?_ (fun _ _ => ?_)
    · refine Kept.trans ?_ (modFlt_kept _ _)
      with_reducible refine Kept.upd ?_ (.refl _) (.refl _) id
      exact .refl _
    · exact emit_kept _ _ _ _ _ _

theorem warmChan_kept (s : State) (a1 : Nat) : Kept s (State.warmChan s a1) := by
  unfold State.warmChan
  dsimp only
  refine Kept.foldl _ _ ?_ (fun _ _ => ?_)
  · exact modMchan_kept _ _ _
  · exact applyWrite_kept _ _ _ _

theorem warmMem_kept (s : State) : Kept s (State.warmMem s) := by
  unfold State.warmMem
  dsimp only
  refine Kept.foldl _ _ ?_ (fun _ _ => ?_)
  · refine Kept.setMem ?_ ?_
    · refine Kept.foldl _ _ ?_ (fun _ _ => ?_)
      · exact deliver_kept _
      · exact warmChan_kept _ _
    · with_reducible exact id
  · split
    · exact modRegion_kept _ _ _
    · exact peerDone_kept _ _ _ _
    · exact .refl _

theorem absorbReset_kept (s : State) (a1 : ResetJob) : Kept s (State.absorbReset s a1) := by
  unfold State.absorbReset
  dsimp only
  refine Kept.trans ?_ (emit_kept _ _ _ _ _ _)
  refine Kept.trans ?_ (releaseUnit_kept _ _)
  refine Kept.ite ?_ ?_
  · exact modRegion_kept _ _ _
  · exact .refl _

theorem warmBegin_kept (s : State) : Kept s (State.warmBegin s) := by
  unfold State.warmBegin
  dsimp only
  refine Kept.foldl _ _ ?_ (fun _ _ => ?_)
  · with_reducible refine Kept.upd ?_ (.refl _) (.refl _) id
    refine Kept.trans ?_ (warmMem_kept _)
    refine Kept.foldl _ _ ?_ (fun _ _ => ?_)
    · refine Kept.foldl _ _ ?_ (fun _ _ => ?_)
      · refine Kept.trans ?_ (modFlt_kept _ _)
        refine Kept.foldl _ _ ?_ (fun _ _ => ?_)
        · refine Kept.trans ?_ (abortLoad_kept _ _)
          refine Kept.trans ?_ (endAllTasks_kept _)
          refine Kept.modKeel ?_ ?_
          · with_reducible refine Kept.upd ?_ (.refl _) (.refl _) id
            exact .refl _
          · exact .same ⟨rfl, rfl, rfl⟩ rfl rfl
        · exact clearTile_kept _ _
      · exact absorbReset_kept _ _
    · exact streamReset_kept _ _
  · exact modMchan_kept _ _ _

theorem warmRequest_kept (s : State) : Kept s (State.warmRequest s) := by
  unfold State.warmRequest
  dsimp only
  split
  · exact warmBegin_kept _
  · exact .refl _
  · exact .refl _
  · with_reducible refine Kept.upd ?_ (.refl _) (.refl _) id
    exact .refl _

theorem warmReset_kept (s : State) : Kept s (warmReset s) := by
  unfold warmReset
  exact warmRequest_kept _

theorem islResetWarm_kept (a0 : Nat) (s : State) : Kept s (islResetWarm a0 s) := by
  unfold islResetWarm
  refine Kept.islRun ?_ (fun _ _ _ _ => ?_)
  · exact .refl _
  · dsimp only
    refine Kept.ite ?_ ?_
    · exact .refl _
    · refine Kept.ite ?_ ?_
      · refine Kept.trans ?_ (done_kept _ _ _)
        assumption
      · refine Kept.trans ?_ (warmRequest_kept _)
        with_reducible refine Kept.upd ?_ (.refl _) (.refl _) id
        refine Kept.modKeel ?_ ?_
        · assumption
        · exact .same ⟨rfl, rfl, rfl⟩ rfl rfl

theorem followerLanes_kept (s : State) : Kept s (State.followerLanes s) := by
  unfold State.followerLanes
  refine Kept.foldl _ _ ?_ (fun _ _ => ?_)
  · exact .refl _
  · exact laneCfg_kept _ _ _

/-- The keel at step 7. -/
theorem sealedKeel_kept (s : State) (cs : Table ChanSt) (p : BitVec 2) (b : Boot) :
    Kept s { s.modKeel (fun k => { k with mirror := 3, ledger := [], ledgerW := [], ledgerE := [], chans := cs, evPath := p }) with
      boot := b } :=
  Kept.upd (Kept.modKeel (.refl s) ⟨fun _ => ⟨rfl, rfl⟩, id, .inl rfl⟩) (.refl _) (.refl _) id

theorem sealedEntry_kept (s : State) : Kept s (sealedEntry s) := by
  unfold sealedEntry
  refine Kept.ite (.refl _) ?_
  dsimp only
  have h := fun cs p b => sealedKeel_kept s cs p b
  refine Kept.ite ?_ (Kept.ite ((h _ _ _).trans (followerLanes_kept _)) (h _ _ _))
  refine Kept.trans ?_ (warmBegin_kept _)
  exact Kept.upd (Kept.ite ((h _ _ _).trans (followerLanes_kept _)) (h _ _ _)) (.refl _) (.refl _) id

theorem attstatReady_kept (a0 : List CodeWordError) (s : State) : Kept s (attstatReady a0 s) := by
  unfold attstatReady
  refine Kept.ite ?_ ?_
  · exact .refl _
  · dsimp only
    refine Kept.foldl _ _ ?_ (fun _ _ => ?_)
    · refine Kept.modSec ?_ ?_
      · exact .refl _
      · exact .same rfl rfl rfl rfl
    · split
      · exact attest_kept _ _ _ _
      · exact .refl _

/-! ## Ssp.lean -/

theorem modSsp_kept (s : State) (a1 : Ssp → Ssp) : Kept s (State.modSsp s a1) := by
  unfold State.modSsp
  with_reducible refine Kept.upd ?_ (.refl _) (.refl _) id
  exact .refl _

theorem sspWrite_kept (a0 : List Byte) (s : State) : Kept s (sspWrite a0 s) := by
  unfold sspWrite
  refine Kept.ite ?_ ?_
  · exact .refl _
  · refine Kept.ite ?_ ?_
    · exact modSsp_kept _ _
    · dsimp only
      split
      · refine Kept.modKeel ?_ ?_
        · exact modSsp_kept _ _
        · exact .same ⟨rfl, rfl, rfl⟩ rfl rfl
      · exact modSsp_kept _ _

theorem sspRead_kept (a0 : Nat) (s : State) : Kept s (sspRead a0 s) := by
  unfold sspRead
  refine Kept.ite ?_ ?_
  · exact .refl _
  · dsimp only
    split
    · exact modSsp_kept _ _
    · exact modSsp_kept _ _

theorem sspCsRise_kept (s : State) : Kept s (sspCsRise s) := by
  unfold sspCsRise
  refine Kept.ite ?_ ?_
  · exact .refl _
  · refine Kept.ite ?_ ?_
    · exact losePath_kept _ _
    · exact modSsp_kept _ _

theorem pathLoss_kept (a0 : PathId) (s : State) : Kept s (pathLoss a0 s) := by
  unfold pathLoss
  refine Kept.ite ?_ ?_
  · exact .refl _
  · exact losePath_kept _ _

theorem sendAgain_kept (s : State) (a1 : Nat) : Kept s (State.sendAgain s a1) := by
  unfold State.sendAgain
  dsimp only
  refine Kept.foldl _ _ ?_ (fun _ _ => ?_)
  · exact .refl _
  · split
    · exact sendReply_kept _ _ _ _
    · exact .refl _

theorem pathRestart_kept (a0 : PathId) (s : State) : Kept s (pathRestart a0 s) := by
  unfold pathRestart
  refine Kept.ite ?_ ?_
  · exact .refl _
  · dsimp only
    refine Kept.ite ?_ ?_
    · refine Kept.foldl _ _ ?_ (fun _ _ => ?_)
      · refine Kept.modKeel ?_ ?_
        · exact .refl _
        · exact .same ⟨rfl, rfl, rfl⟩ rfl rfl
      · refine Kept.trans ?_ (sendAgain_kept _ _)
        exact restart_kept _ _
    · refine Kept.modKeel ?_ ?_
      · exact .refl _
      · exact .same ⟨rfl, rfl, rfl⟩ rfl rfl

/-! ## Tick.lean -/

theorem happen_kept (s : State) (a1 : Config.TickEvent) : Kept s (State.happen s a1) := by
  unfold State.happen
  split
  · exact laneTime_kept _
  · refine Kept.ite ?_ ?_
    · exact clockEdge_kept _ _ _
    · exact .refl _
  · exact clockFall_kept _ _ _
  · exact hcStep_kept _ _ _
  · exact modRegion_kept _ _ _

theorem tick_kept (s : State) : Kept s (State.tick s) := by
  unfold State.tick
  refine Kept.trans ?_ (bump_kept _)
  exact happen_kept _ _

/-! ## Step.lean -/

theorem withFetchWord_kept (s : State) (a1 a2 : Nat) : Kept s (State.withFetchWord s a1 a2) := by
  unfold State.withFetchWord
  split
  · with_reducible refine Kept.upd ?_ (.refl _) (.refl _) id
    exact .refl _
  · exact .refl _

end Sys2Proof.Machine
end

