-- ==== Sys2Proof/Laws/Memory.lean ====
section
/-! SUPPORT. Memory and banks: the canonical form that every operation keeps, and what a read after a write gives. -/
set_option autoImplicit false
namespace Sys2Proof.Machine

/-! ## The canonical form of memory -/

theorem reset_memory_wf : Memory.wf State.reset.mem := List.Pairwise.nil

theorem putBytes_wf (s : State) (ch off : Nat) (bs : List Byte) (h : Memory.wf s.mem) : Memory.wf (s.putBytes ch off bs).mem :=
  (putBytes_kept s ch off bs).mem h
theorem forgetArea_wf (s : State) (ix : Nat) (e : MrtEntry) (h : Memory.wf s.mem) : Memory.wf (s.forgetArea ix e).mem :=
  (forgetArea_kept s ix e).mem h
theorem repair_wf (s : State) (e : MrtEntry) (ix ch off : Nat) (ecc : List CodeWordError) (h : Memory.wf s.mem) :
    Memory.wf (s.repair e ix ch off ecc).1.mem := (repair_kept s e ix ch off ecc).mem h
theorem applyWrite_wf (s : State) (ch : Nat) (p : Part) (ecc : List CodeWordError) (h : Memory.wf s.mem) :
    Memory.wf (s.applyWrite ch p ecc).1.mem := (applyWrite_kept s ch p ecc).mem h
theorem flush_wf (s : State) (ch : Nat) (h : Memory.wf s.mem) : Memory.wf (s.flush ch).mem := (flush_kept s ch).mem h
theorem rewriteCopy_wf (s : State) (codec : Bool) (sp g : Nat × Nat) (h : Memory.wf s.mem) :
    Memory.wf (s.rewriteCopy codec sp g).mem := (rewriteCopy_kept s codec sp g).mem h
theorem eccRead_wf (s : State) (a : Nat) (first : Bool) (ecc : List CodeWordError) (h : Memory.wf s.mem) :
    Memory.wf (s.eccRead a first ecc).mem := (eccRead_kept s a first ecc).mem h
theorem memWrite_wf (s : State) (a : Nat) (bs : List Byte) (h : Memory.wf s.mem) : Memory.wf (s.memWrite a bs).1.mem :=
  (memWrite_kept s a bs).mem h
theorem issuePart_wf (s : State) (ch : Nat) (p : Part) (ecc : List CodeWordError) (h : Memory.wf s.mem) :
    Memory.wf (s.issuePart ch p ecc).mem := (issuePart_kept s ch p ecc).mem h

/-! ## Reading after writing -/

theorem tlook_filter_key {α : Type} (f : Nat → Bool) (k : Nat) (t : Table α) :
    tlook k (t.filter (fun p => f p.1)) = if f k then tlook k t else none := by
  induction t with
  | nil => simp
  | cons x r ih =>
    obtain ⟨j, v⟩ := x
    by_cases hj : f j = true
    · rw [List.filter_cons_of_pos (by exact hj)]
      by_cases e : j = k
      · subst e; simp [tlook, hj]
      · simp [tlook, e, ih]
    · rw [List.filter_cons_of_neg (by exact hj)]
      by_cases e : j = k
      · subst e; simp [ih, hj]
      · simp [tlook, e, ih]

/-- A cleared range lists nothing, and the rest is as it was. -/
theorem tlook_tclear {α : Type} (lo hi k : Nat) (t : Table α) :
    tlook k (tclear lo hi t) = if lo ≤ k ∧ k < hi then none else tlook k t := by
  unfold tclear
  rw [tlook_filter_key (fun j => decide (j < lo) || decide (hi ≤ j))]
  by_cases h : lo ≤ k ∧ k < hi
  · rw [if_pos h, if_neg]
    simp only [Bool.or_eq_true, decide_eq_true_eq]
    omega
  · rw [if_neg h, if_pos]
    simp only [Bool.or_eq_true, decide_eq_true_eq]
    omega

/-- The bytes that a write has put, at the keys from `k` on. -/
theorem tlook_memPut (bs : List Byte) (k j : Nat) (m : List Host.Cell) :
    tlook j (memPut k bs m) = if h : k ≤ j ∧ j < k + bs.length then some (bs[j - k]'(by omega)) else tlook j m := by
  have g : ∀ (l : List Byte) (n : Nat) (m : List Host.Cell),
      tlook j ((l.zipIdx n).foldl (fun m p => tput (k + p.2) p.1 m) m) =
        if h : k + n ≤ j ∧ j < k + n + l.length then some (l[j - k - n]'(by omega)) else tlook j m := by
    intro l
    induction l with
    | nil => intro n m; rw [dif_neg (by simp)]; rfl
    | cons b r ih =>
      intro n m
      rw [List.zipIdx_cons, List.foldl_cons, ih]
      by_cases h1 : k + (n + 1) ≤ j ∧ j < k + (n + 1) + r.length
      · have h2 : k + n ≤ j ∧ j < k + n + (b :: r).length := by simp only [List.length_cons]; omega
        rw [dif_pos h1, dif_pos h2]
        have e : j - k - n = (j - k - (n + 1)) + 1 := by omega
        simp only [e, List.getElem_cons_succ]
      · rw [dif_neg h1]
        by_cases e : j = k + n
        · subst e
          rw [tlook_tput, dif_pos (by simp)]
          simp
        · rw [tlook_tput_ne e, dif_neg (by simp only [List.length_cons]; omega)]
  have := g bs 0 m
  simpa [memPut] using this

/-- A byte outside those written is as it was. -/
theorem tlook_memPut_out {bs : List Byte} {k j : Nat} (h : j < k ∨ k + bs.length ≤ j) (m : List Host.Cell) :
    tlook j (memPut k bs m) = tlook j m := by
  rw [tlook_memPut, dif_neg (by omega)]

/-! ## Banks of a tile -/

theorem cellGet_cellPut (a j : Nat) (v : Byte) (m : List Host.Cell) :
    cellGet (cellPut a v m) j = if j = a then v else cellGet m j := by
  unfold cellGet cellPut
  by_cases e : j = a
  · subst e
    rw [if_pos rfl]
    split
    · rename_i hv; rw [hv]; exact tget_tdel _ _ _
    · exact tget_tput _ _ _ _
  · rw [if_neg e]
    split
    · exact tget_tdel_ne e _ _
    · exact tget_tput_ne e _ _ _

theorem cellPut_wf (a : Nat) (v : Byte) (m : List Host.Cell) (h : BankWf m) : BankWf (cellPut a v m) := by
  unfold cellPut
  split
  · exact ⟨rising_tdel a h.1, fun x hx => h.2 x ((List.mem_filter.mp hx).1)⟩
  · rename_i hv
    refine ⟨rising_tput a v h.1, fun x hx => ?_⟩
    rcases mem_tput hx with e | e
    · subst e; exact hv
    · exact h.2 x e

theorem cellsPut_wf (a : Nat) (bs : List Byte) (m : List Host.Cell) (h : BankWf m) : BankWf (cellsPut a bs m) := by
  have g : ∀ (l : List (Byte × Nat)) (m : List Host.Cell), BankWf m → BankWf (l.foldl (fun m p => cellPut (a + p.2) p.1 m) m) := by
    intro l
    induction l with
    | nil => intro m h; exact h
    | cons x r ih => intro m h; exact ih _ (cellPut_wf _ _ _ h)
  exact g _ m h

/-- What a bank holds after a write of several bytes. -/
theorem cellGet_cellsPut (bs : List Byte) (a j : Nat) (m : List Host.Cell) :
    cellGet (cellsPut a bs m) j = if a ≤ j ∧ j < a + bs.length then bs.getD (j - a) 0 else cellGet m j := by
  have g : ∀ (l : List Byte) (n : Nat) (m : List Host.Cell),
      cellGet ((l.zipIdx n).foldl (fun m p => cellPut (a + p.2) p.1 m) m) j =
        if a + n ≤ j ∧ j < a + n + l.length then l.getD (j - a - n) 0 else cellGet m j := by
    intro l
    induction l with
    | nil => intro n m; rw [if_neg (by simp)]; rfl
    | cons b r ih =>
      intro n m
      rw [List.zipIdx_cons, List.foldl_cons, ih, cellGet_cellPut]
      by_cases h1 : a + (n + 1) ≤ j ∧ j < a + (n + 1) + r.length
      · have h2 : a + n ≤ j ∧ j < a + n + (b :: r).length := by simp only [List.length_cons]; omega
        rw [if_pos h1, if_pos h2]
        have e : j - a - n = (j - a - (n + 1)) + 1 := by omega
        rw [e, List.getD_cons_succ]
      · rw [if_neg h1]
        by_cases e : j = a + n
        · subst e
          rw [if_pos rfl, if_pos (by simp)]
          have z : a + n - a - n = 0 := by omega
          rw [z]; rfl
        · rw [if_neg e, if_neg (by simp only [List.length_cons]; omega)]
  have := g bs 0 m
  simpa [cellsPut] using this

@[simp] theorem rd_wrN_same (t : Tile) (b a : Nat) (bs : List Byte) (j : Nat) :
    (t.wrN b a bs).rd b j = if a ≤ j ∧ j < a + bs.length then bs.getD (j - a) 0 else t.rd b j := by
  unfold Tile.rd Tile.wrN
  by_cases h : b = 0
  · subst h; simp [Tile.setBank, Tile.bank, cellGet_cellsPut]
  · simp [Tile.setBank, Tile.bank, h, cellGet_cellsPut]

theorem rd_wrN_other {b c : Nat} (h : (b = 0) ≠ (c = 0)) (t : Tile) (a : Nat) (bs : List Byte) (j : Nat) :
    (t.wrN b a bs).rd c j = t.rd c j := by
  unfold Tile.rd Tile.wrN Tile.setBank Tile.bank
  by_cases hb : b = 0 <;> by_cases hc : c = 0 <;> simp_all

theorem wrN_acc (t : Tile) (b a : Nat) (bs : List Byte) : (t.wrN b a bs).acc = t.acc := by
  unfold Tile.wrN Tile.setBank; split <;> rfl

end Sys2Proof.Machine
end

