-- ==== Sys2Proof/Laws/PerInstr.lean ====
section
/-!
SUPPORT. Statements over all commands, made command by command.
-/
set_option autoImplicit false
namespace Sys2Proof.Laws.InRange

/-- The one command that can leave the functional range of the device is a supply above 880 mV (R55). -/
def Statement (i : Instr) : Prop := i.outOfRange = true → ∃ mv, i = .vddfChange mv ∧ 880 < mv

theorem spokeTokenReceived (d : SpokeDir) (groups : List (BitVec 4)) : Statement (.spokeTokenReceived d groups) := nofun
theorem acknowledgeTransition (d : SpokeDir) : Statement (.acknowledgeTransition d) := nofun
theorem creditReturn (d : SpokeDir) (vc1 : Bool) : Statement (.creditReturn d vc1) := nofun
theorem stallDetected (d : SpokeDir) : Statement (.stallDetected d) := nofun
theorem wireTestComplete (d : SpokeDir) (w : WireTest) : Statement (.wireTestComplete d w) := nofun
theorem handshakeRequest (b : Nat) (data : Word × Bool) : Statement (.handshakeRequest b data) := nofun
theorem handshakeAcknowledge (b : Nat) : Statement (.handshakeAcknowledge b) := nofun
theorem paceWindowClose (counts : List (BitVec 16)) (edges : List (Nat × Nat)) : Statement (.paceWindowClose counts edges) :=
  nofun
theorem clrmin (w : World) : Statement (.clrmin w) := nofun
theorem refclkLost : Statement (.refclkLost) := nofun
theorem refclkReturn : Statement (.refclkReturn) := nofun
theorem vddfChange (mv : Nat) : Statement (.vddfChange mv) :=
  fun h => ⟨mv, rfl, of_decide_eq_true h⟩
theorem supplyMonitorColdReset : Statement (.supplyMonitorColdReset) := nofun
theorem conversion (n : AnyDie) (tj : BitVec 12) : Statement (.conversion n tj) := nofun
theorem flagWordRead (p : PTile) (e : Engine) (w : World) : Statement (.flagWordRead p e w) := nofun
theorem load (p : PTile) (c : Ctx) : Statement (.load p c) := nofun
theorem loadBeat (p : PTile) (c : Ctx) (hw : HwEvent) : Statement (.loadBeat p c hw) := nofun
theorem planeComplete (p : PTile) (c : Ctx) : Statement (.planeComplete p c) := nofun
theorem stream (p : PTile) (c : Ctx) : Statement (.stream p c) := nofun
theorem rowIssue (p : PTile) (c : Ctx) (hw : HwEvent) : Statement (.rowIssue p c hw) := nofun
theorem outputVectorWritten (p : PTile) (c : Ctx) (hw : HwEvent) : Statement (.outputVectorWritten p c hw) := nofun
theorem drain (p : PTile) (c : Ctx) (hw : HwEvent) : Statement (.drain p c hw) := nofun
theorem mvp (p : PTile) (hw : HwEvent) : Statement (.mvp p hw) := nofun
theorem fence (p : PTile) (c : Ctx) : Statement (.fence p c) := nofun
theorem fenceComplete (p : PTile) (c : Ctx) : Statement (.fenceComplete p c) := nofun
theorem arrayNop (p : PTile) (c : Ctx) : Statement (.arrayNop p c) := nofun
theorem stall (p : PTile) (stage : Fin 3) : Statement (.stall p stage) := nofun
theorem tvuProgramStart (p : PTile) : Statement (.tvuProgramStart p) := nofun
theorem nop (p : PTile) (hw : HwEvent) : Statement (.nop p hw) := nofun
theorem tend (p : PTile) (hw : HwEvent) : Statement (.tend p hw) := nofun
theorem br (p : PTile) (hw : HwEvent) : Statement (.br p hw) := nofun
theorem bloop (p : PTile) (hw : HwEvent) : Statement (.bloop p hw) := nofun
theorem rep (p : PTile) (hw : HwEvent) : Statement (.rep p hw) := nofun
theorem rete (p : PTile) (hw : HwEvent) : Statement (.rete p hw) := nofun
theorem even (p : PTile) (hw : HwEvent) : Statement (.even p hw) := nofun
theorem waitv (p : PTile) (hw : HwEvent) : Statement (.waitv p hw) := nofun
theorem waitvComplete (p : PTile) : Statement (.waitvComplete p) := nofun
theorem rrel (p : PTile) (hw : HwEvent) : Statement (.rrel p hw) := nofun
theorem frd (p : PTile) (hw : HwEvent) : Statement (.frd p hw) := nofun
theorem fclr (p : PTile) (hw : HwEvent) : Statement (.fclr p hw) := nofun
theorem rot (p : PTile) (hw : HwEvent) : Statement (.rot p hw) := nofun
theorem setl (p : PTile) (hw : HwEvent) : Statement (.setl p hw) := nofun
theorem seth (p : PTile) (hw : HwEvent) : Statement (.seth p hw) := nofun
theorem saddi (p : PTile) (hw : HwEvent) : Statement (.saddi p hw) := nofun
theorem smov (p : PTile) (hw : HwEvent) : Statement (.smov p hw) := nofun
theorem vld (p : PTile) (hw : HwEvent) : Statement (.vld p hw) := nofun
theorem vst (p : PTile) (hw : HwEvent) : Statement (.vst p hw) := nofun
theorem vstsh (p : PTile) (hw : HwEvent) : Statement (.vstsh p hw) := nofun
theorem vadd (p : PTile) (hw : HwEvent) : Statement (.vadd p hw) := nofun
theorem vsub (p : PTile) (hw : HwEvent) : Statement (.vsub p hw) := nofun
theorem vmul (p : PTile) (hw : HwEvent) : Statement (.vmul p hw) := nofun
theorem vmad (p : PTile) (hw : HwEvent) : Statement (.vmad p hw) := nofun
theorem vmax (p : PTile) (hw : HwEvent) : Statement (.vmax p hw) := nofun
theorem vmin (p : PTile) (hw : HwEvent) : Statement (.vmin p hw) := nofun
theorem vcmp (p : PTile) (hw : HwEvent) : Statement (.vcmp p hw) := nofun
theorem vsel (p : PTile) (hw : HwEvent) : Statement (.vsel p hw) := nofun
theorem vcvt (p : PTile) (hw : HwEvent) : Statement (.vcvt p hw) := nofun
theorem vshr (p : PTile) (hw : HwEvent) : Statement (.vshr p hw) := nofun
theorem vshl (p : PTile) (hw : HwEvent) : Statement (.vshl p hw) := nofun
theorem vexp (p : PTile) (hw : HwEvent) : Statement (.vexp p hw) := nofun
theorem vrcp (p : PTile) (hw : HwEvent) : Statement (.vrcp p hw) := nofun
theorem vrsq (p : PTile) (hw : HwEvent) : Statement (.vrsq p hw) := nofun
theorem vtanh (p : PTile) (hw : HwEvent) : Statement (.vtanh p hw) := nofun
theorem vrsum (p : PTile) (hw : HwEvent) : Statement (.vrsum p hw) := nofun
theorem vrmax (p : PTile) (hw : HwEvent) : Statement (.vrmax p hw) := nofun
theorem vbin2 (p : PTile) (hw : HwEvent) : Statement (.vbin2 p hw) := nofun
theorem vslide (p : PTile) (hw : HwEvent) : Statement (.vslide p hw) := nofun
theorem vbcst (p : PTile) (hw : HwEvent) : Statement (.vbcst p hw) := nofun
theorem vsplat (p : PTile) (hw : HwEvent) : Statement (.vsplat p hw) := nofun
theorem cancellationNotice (p : PTile) : Statement (.cancellationNotice p) := nofun
theorem faultNotice (p : PTile) : Statement (.faultNotice p) := nofun
theorem pacelineEvent (p : PTile) : Statement (.pacelineEvent p) := nofun
theorem taskStart (l : LTile) : Statement (.taskStart l) := nofun
theorem seqArrayEntry (p : PTile) (c : Ctx) (hw : HwEvent) : Statement (.seqArrayEntry p c hw) := nofun
theorem seqTvuEntry (p : PTile) (c : Ctx) (hw : HwEvent) : Statement (.seqTvuEntry p c hw) := nofun
theorem xfer (p : PTile) (c : Ctx) (hw : HwEvent) : Statement (.xfer p c hw) := nofun
theorem loop (p : PTile) (c : Ctx) (hw : HwEvent) : Statement (.loop p c hw) := nofun
theorem wait (p : PTile) (c : Ctx) (hw : HwEvent) : Statement (.wait p c hw) := nofun
theorem waitSatisfied (p : PTile) (c : Ctx) : Statement (.waitSatisfied p c) := nofun
theorem seqEnd (p : PTile) (c : Ctx) (hw : HwEvent) : Statement (.seqEnd p c hw) := nofun
theorem taskComplete (p : PTile) (c : Ctx) : Statement (.taskComplete p c) := nofun
theorem read (p : PTile) (c : Ctx) : Statement (.read p c) := nofun
theorem write (p : PTile) (c : Ctx × HwEvent) : Statement (.write p c) := nofun
theorem remote (p : PTile) (c : Ctx × HwEvent) : Statement (.remote p c) := nofun
theorem paceOrigin (p : PTile) (c : Ctx × HwEvent) : Statement (.paceOrigin p c) := nofun
theorem paceForward (p : PTile) (c : Ctx × HwEvent) : Statement (.paceForward p c) := nofun
theorem peer (p : PTile) (c : Ctx × HwEvent) : Statement (.peer p c) := nofun
theorem ctake (p : PTile) (c : Ctx) : Statement (.ctake p c) := nofun
theorem grant (p : PTile) (c : Ctx) : Statement (.grant p c) := nofun
theorem pring (p : PTile) (c : Ctx) : Statement (.pring p c) := nofun
theorem descriptorFetch (p : PTile) (c : Ctx) (group : Nat) : Statement (.descriptorFetch p c group) := nofun
theorem requestResponse (p : PTile) (c : Ctx × HwEvent) (xi : Nat) : Statement (.requestResponse p c xi) := nofun
theorem timeout (p : PTile) (c : Ctx) (xi : Nat) : Statement (.timeout p c xi) := nofun
theorem cancellation (p : PTile) (c : Ctx) : Statement (.cancellation p c) := nofun
theorem cancellationAck (p : PTile) (c : Ctx) : Statement (.cancellationAck p c) := nofun
theorem grantReceived (p : PTile) (c : Ctx) : Statement (.grantReceived p c) := nofun
theorem remoteTokenReceived (p : PTile) (c : Ctx) : Statement (.remoteTokenReceived p c) := nofun
theorem pacelineBlockStored (p : PTile) (c : Ctx) : Statement (.pacelineBlockStored p c) := nofun
theorem blockRelease (p : PTile) (c : Ctx) : Statement (.blockRelease p c) := nofun
theorem counterTake (ctr : Fin 4096) : Statement (.counterTake ctr) := nofun
theorem clockGeneratorEnable (r : RegionIx) (g : Fin 4) (on : Bool) : Statement (.clockGeneratorEnable r g on) := nofun
theorem blockMemoryAccess (r : RegionIx) (bm : Fin 256) (a b : Option BmAccess) : Statement (.blockMemoryAccess r bm a b) :=
  nofun
theorem bind (r : RegionIx) (q : Fin 48 × Option (Fin 4)) (dtile : LTile) (dctx : BitVec 2) (drec : Fin 16) (enable : Bool) :
    Statement (.bind r q dtile dctx drec enable) :=
  nofun
theorem queueDataWord (r : RegionIx) (q : Fin 48 × Option (Fin 4)) (w : Word) : Statement (.queueDataWord r q w) :=
  nofun
theorem queueGrant (r : RegionIx) (q : Fin 48) : Statement (.queueGrant r q) := nofun
theorem queueTokenSend (r : RegionIx) (q : Fin 48 × Bool) : Statement (.queueTokenSend r q) := nofun
theorem regionPortRequest (r : RegionIx) (write : Bool) (addr : BitVec 40) (len : Nat) (data : List Byte) : Statement (.regionPortRequest r write addr len data) :=
  nofun
theorem regionPortInboundToken (r : RegionIx) (taken : Nat) : Statement (.regionPortInboundToken r taken) := nofun
theorem regionCloseComplete (r : RegionIx) : Statement (.regionCloseComplete r) := nofun
theorem gpiocfgWrite (w : World) (m : Rim) (p : Fin 128) (v : Word) : Statement (.gpiocfgWrite w m p v) := nofun
theorem ioOutputChange (r : RegionIx) (val oe : Word) : Statement (.ioOutputChange r val oe) := nofun
theorem ioInputChange (m : Rim) (p : Fin 128) (level : Option Bool) : Statement (.ioInputChange m p level) := nofun
theorem ioChannelToken (m : Rim) : Statement (.ioChannelToken m) := nofun
theorem islStoreWrite (c : Chan) (ecc : List CodeWordError) : Statement (.islStoreWrite c ecc) := nofun
theorem islImageLoad (c : Chan) (env : LoadEnv) : Statement (.islImageLoad c env) := nofun
theorem islRegionLoad (c : Chan) (env : LoadEnv) : Statement (.islRegionLoad c env) := nofun
theorem weevilRead (n : Die) (r : List EccResult) (crc : Option Word32) : Statement (.weevilRead n r crc) := nofun
theorem weevilCheck (n : Die) : Statement (.weevilCheck n) := nofun
theorem wvctlWrite (w : World) (n : Die) (v : Word) : Statement (.wvctlWrite w n v) := nofun
theorem memoryRequest (m : Rim) (port : Fin 40) : Statement (.memoryRequest m port) := nofun
theorem commandSlot (m : Rim) (ch : Fin 40) (busy : List (Fin 16)) (ecc : List CodeWordError) : Statement (.commandSlot m ch busy ecc) :=
  nofun
theorem mirrorCopy (m : Rim) (ch : Fin 40) : Statement (.mirrorCopy m ch) := nofun
theorem refreshDue (m : Rim) (ch : Fin 40) : Statement (.refreshDue m ch) := nofun
theorem commandTimeout (m : Rim) (ch : Fin 40) : Statement (.commandTimeout m ch) := nofun
theorem mrtWrite (w : World) (m : Rim) (e : Fin 256) (v : Word) : Statement (.mrtWrite w m e v) := nofun
theorem releaseFillComplete (m : Rim) (e : Fin 256) : Statement (.releaseFillComplete m e) := nofun
theorem rtportWrite (w : World) (m : Rim) (p : Fin 16) (v : Word) : Statement (.rtportWrite w m p v) := nofun
theorem islMemTrain (c : Chan) : Statement (.islMemTrain c) := nofun
theorem trainingComplete (m : Rim) (ch : Fin 40) (ok : Bool) (results : List Word) : Statement (.trainingComplete m ch ok results) :=
  nofun
theorem lncfgWrite (w : World) (m : Rim) (l : Fin 48) (v : Word) : Statement (.lncfgWrite w m l v) := nofun
theorem laneAcquireTimeout (m : Rim) (l : Fin 48) : Statement (.laneAcquireTimeout m l) := nofun
theorem laneReceive (m : Rim) (l : Fin 48) (raw : List Word) (blocks : List (BitVec 2 × Word)) : Statement (.laneReceive m l raw blocks) :=
  nofun
theorem laneTransmitToken (r : RegionIx) (m : Rim) (words : List Word) : Statement (.laneTransmitToken r m words) := nofun
theorem marker (m : Rim) (l : Fin 48) (lip : Fin 8) (sport : BitVec 4) (count : BitVec 16) (parity : Byte) (skewNs : Nat) : Statement (.marker m l lip sport count parity skewNs) :=
  nofun
theorem link (v : VPort) (ack : BitVec 16) (nak : Bool) (c0 c1 c2 : Byte) : Statement (.link v ack nak c0 c1 c2) := nofun
theorem resendTimeout (v : VPort) : Statement (.resendTimeout v) := nofun
theorem peerWriteFrame (v : VPort) (f : Frame) : Statement (.peerWriteFrame v f) := nofun
theorem peerAcknowledgeFrame (v : VPort) (f : Frame × HwEvent) : Statement (.peerAcknowledgeFrame v f) := nofun
theorem peerRefusalFrame (v : VPort) (f : Frame) : Statement (.peerRefusalFrame v f) := nofun
theorem commandFrame (v : VPort) (f : Frame) : Statement (.commandFrame v f) := nofun
theorem replyFrame (v : VPort) (f : Frame) : Statement (.replyFrame v f) := nofun
theorem linkInit (v : VPort) (f : Frame) (i : LinkInit) : Statement (.linkInit v f i) := nofun
theorem acknowledgeTimeout (v : VPort) : Statement (.acknowledgeTimeout v) := nofun
theorem countStep (m : Rim) (c : Fin 4) (a b : Bool) : Statement (.countStep m c a b) := nofun
theorem positionComparison (c : Fin 4) : Statement (.positionComparison c) := nofun
theorem odocfgWrite (w : World) (c : Fin 4) (v : Word) : Statement (.odocfgWrite w c v) := nofun
theorem ingressToken (m : Rim) (r : RegionIx) (words : List Word) : Statement (.ingressToken m r words) := nofun
theorem linePartWritten (s : Fin 32) : Statement (.linePartWritten s) := nofun
theorem ingcfgWrite (w : World) (m : Rim) (p : Fin 16) (k : Fin 3) (v : Word) : Statement (.ingcfgWrite w m p k v) := nofun
theorem islIngRelease (c : Chan) : Statement (.islIngRelease c) := nofun
theorem packetIntake (src : IntakeSrc) : Statement (.packetIntake src) := nofun
theorem islAck (src : IntakeSrc) : Statement (.islAck src) := nofun
theorem acceptance (c : Chan) : Statement (.acceptance c) := nofun
theorem commandStart (c : Chan) : Statement (.commandStart c) := nofun
theorem replySend (c : Chan) : Statement (.replySend c) := nofun
theorem eventRecordSend : Statement (.eventRecordSend) := nofun
theorem islNop (c : Chan) : Statement (.islNop c) := nofun
theorem islChannelSet (c : Chan) : Statement (.islChannelSet c) := nofun
theorem islRead (c : Chan) (ecc : List CodeWordError) : Statement (.islRead c ecc) := nofun
theorem islWrite (c : Chan) (ecc : List CodeWordError) : Statement (.islWrite c ecc) := nofun
theorem islRegionClose (c : Chan) : Statement (.islRegionClose c) := nofun
theorem islArm (c : Chan) : Statement (.islArm c) := nofun
theorem islRun (c : Chan) : Statement (.islRun c) := nofun
theorem islFreewheelEnter (c : Chan) : Statement (.islFreewheelEnter c) := nofun
theorem islFreewheelLeave (c : Chan) : Statement (.islFreewheelLeave c) := nofun
theorem islQuiesce (c : Chan) : Statement (.islQuiesce c) := nofun
theorem quiesceDrainEnd : Statement (.quiesceDrainEnd) := nofun
theorem islResetWarm (c : Chan) : Statement (.islResetWarm c) := nofun
theorem islResetTile (c : Chan) : Statement (.islResetTile c) := nofun
theorem islResetFieldDie (c : Chan) : Statement (.islResetFieldDie c) := nofun
theorem islResetRim (c : Chan) : Statement (.islResetRim c) := nofun
theorem islResetLane (c : Chan) : Statement (.islResetLane c) := nofun
theorem islResetSpoke (c : Chan) : Statement (.islResetSpoke c) := nofun
theorem islResetRegion (c : Chan) : Statement (.islResetRegion c) := nofun
theorem partResetComplete (u : ResetUnit) (wires : List (SpokeDir × WireTest)) : Statement (.partResetComplete u wires) := nofun
theorem partResetTimeout (u : ResetUnit) (stuck : List (Fin 4)) : Statement (.partResetTimeout u stuck) := nofun
theorem islTaskIssue (c : Chan) (ecc : List CodeWordError) : Statement (.islTaskIssue c ecc) := nofun
theorem islTaskCancel (c : Chan) : Statement (.islTaskCancel c) := nofun
theorem islFlagsClear (c : Chan) : Statement (.islFlagsClear c) := nofun
theorem islCtrSet (c : Chan) : Statement (.islCtrSet c) := nofun
theorem islOdoPreset (c : Chan) : Statement (.islOdoPreset c) := nofun
theorem islActArm (c : Chan) : Statement (.islActArm c) := nofun
theorem islActCancel (c : Chan) : Statement (.islActCancel c) := nofun
theorem islWorldSetTile (c : Chan) : Statement (.islWorldSetTile c) := nofun
theorem islWorldSetCounterBank (c : Chan) : Statement (.islWorldSetCounterBank c) := nofun
theorem islWorldSetLaneGroup (c : Chan) : Statement (.islWorldSetLaneGroup c) := nofun
theorem islAttest (c : Chan) (ecc : List CodeWordError) : Statement (.islAttest c ecc) := nofun
theorem pathLoss (p : PathId) : Statement (.pathLoss p) := nofun
theorem pathRestart (p : PathId) : Statement (.pathRestart p) := nofun
theorem fuseBlowOwnerRoot (w : World) (chk : Word32) (blown : Bool) : Statement (.fuseBlowOwnerRoot w chk blown) := nofun
theorem fuseDisableVendorRoot (w : World) (chk : Word32) (blown : Bool) : Statement (.fuseDisableVendorRoot w chk blown) :=
  nofun
theorem spareSubstitution : Statement (.spareSubstitution) := nofun
theorem routeTableSwap (holder : AnyDie) : Statement (.routeTableSwap holder) := nofun
theorem ejectionReport (holder dest : AnyDie) : Statement (.ejectionReport holder dest) := nofun
theorem dieControlTimeout (n : Die) (router : Bool) : Statement (.dieControlTimeout n router) := nofun
theorem tandemWatchdog : Statement (.tandemWatchdog) := nofun
theorem tandemFailover (cause : FailoverCause) (bad : List (Nat × BitVec 3)) : Statement (.tandemFailover cause bad) := nofun
theorem coldReset : Statement (.coldReset) := nofun
theorem coldResetRelease (env : BootEnv) : Statement (.coldResetRelease env) := nofun
theorem tilePlacement : Statement (.tilePlacement) := nofun
theorem sealedEntry : Statement (.sealedEntry) := nofun
theorem attstatReady (ecc : List CodeWordError) : Statement (.attstatReady ecc) := nofun
theorem warmReset : Statement (.warmReset) := nofun
theorem warmResetRelease (bad : List (Nat × BitVec 3)) (wires : List (SpokeDir × WireTest)) : Statement (.warmResetRelease bad wires) :=
  nofun
theorem laneGroupReenable (g : VPort) : Statement (.laneGroupReenable g) := nofun
theorem sspWrite (bytes : List Byte) : Statement (.sspWrite bytes) := nofun
theorem sspRead (bytes : Nat) : Statement (.sspRead bytes) := nofun
theorem sspCsRise : Statement (.sspCsRise) := nofun
theorem registerWrite (w : World) (addr : BitVec 40) (v : Word) : Statement (.registerWrite w addr v) := nofun
theorem cdrLockChange (m : Rim) (l : Fin 48) (locked : Bool) : Statement (.cdrLockChange m l locked) := nofun
theorem transmitUnderrun (m : Rim) (l : Fin 48) : Statement (.transmitUnderrun m l) := nofun
theorem standbySelfTest (pass : Bool) : Statement (.standbySelfTest pass) := nofun

end Sys2Proof.Laws.InRange
end

