-- ==== Sys2Proof/Tests/Slice0.lean ====
section
/-!
SUPPORT. Own tests: the manual's worked examples on the model, what the well-formedness checks refuse, and for every statement with
premises a state and operands that meet them, one for each of its clauses.
-/
set_option autoImplicit false
set_option linter.unusedVariables false
set_option maxRecDepth 8000
set_option Elab.async false
open Sys2Proof Sys2Proof.Machine
namespace Sys2Proof.Tests


/-! ## Small states -/

/-- A device that has entered Sealed and runs, with both rims holding the ledger. -/
def up : State :=
  { State.reset with
    boot := { phase := .ready }, flt := { routes := { tile := [(3, 3), (4, 4)] } }
    keel := { dstate := .running, mirror := 3, chans := [(1, { isOpen := true, heldE := 4, heldP := 9 })] } }

def tok0 : Token := { route := 0, data := 0 }
def gs0 : List (BitVec 4) := List.replicate 1040 1
def side (x : SpokeSide) : State := { up with spk := { sides := [(4, x)] } }
def clean : WireTest := { badSegs := [], badSpares := [], ackBad := 0, cred0Bad := 0, cred1Bad := 0 }
def boundary (x : Boundary) : State := { up with tim := { boundaries := [(7, x)] } }

/-- A task on the whole of tile 3: 64 by 64 by 64, one region of 4,096 bytes in bank A, and what the test adds. -/
def task (seqTab : List Word) (extra : List (Nat × Word)) : Task :=
  { entry := 5, chan := 1, seq := 9, world := false, seqTab := seqTab, tvuTab := [], groups := [0, 0], keys := [], pring := none
    desc := (extra.foldl (fun d x => d.set x.1 x.2) (
      [ packF [(0, 32, 77), (32, 10, 3)], packF [(0, 32, 64), (32, 32, 64)], packF [(0, 32, 64)]
      , packF [(54, 4, 1), (58, 5, 2)], packF [(12, 13, 16), (35, 9, 8), (44, 13, 4)], 0, 0, 0
      , packF [(0, 2, 0), (8, 32, 64)], packF [(0, 2, 1), (8, 32, 64)], packF [(0, 2, 2), (8, 32, 64)]
      , packF [(0, 2, 0), (8, 32, 64)], packF [(0, 2, 1), (8, 32, 64)], packF [(0, 2, 2), (8, 32, 64)]
      , packF [(32, 19, 64)] ] ++ List.replicate 7 0 ++ [packF [(4, 4, 0)], packF [(0, 2, 3), (4, 4, 15), (8, 19, 512)]] ++
      List.replicate 14 0)) }
def kT : Task := task [] []
/-- A walk over 64 rows of 64 bytes, AI8, in bank A. -/
def walk0 : List Word := [packF [(1, 4, 6), (27, 8, 64), (35, 3, 1), (38, 3, 1), (49, 4, 1)], packF [(0, 16, 63)], packF [(0, 19, 64)],
  packF [(0, 16, 64), (16, 16, 1)]]
/-- An array instruction at entry 2: AI8 by AI8. -/
def ins (opc mode count : Nat) (acc trans : Bool) (w1 : Word) : ArrInstr :=
  { w0 := packF [(0, 4, opc), (7, 1, b2n trans), (8, 2, mode), (11, 1, b2n acc), (12, 4, 6), (16, 4, 6), (24, 24, count - 1)], w1 := w1
    entry := 2, num := 1, count := count, kCount := 64, leftM := none, leftN := none, leftK := none, base1 := 0, org1 := 0, base2 := 0
    org2 := 0, accBase := 0, offM := 0, offN := 0, offK := 0 }
def rowsOf : Word := packF [(16, 16, 64), (32, 16, 1)]
def iLoad : ArrInstr := ins 1 0 64 false true 0
def iStrm : ArrInstr := ins 2 0 2 false false rowsOf
def iOs : ArrInstr := ins 2 2 2 false false rowsOf
def iDrain : ArrInstr := ins 3 2 64 false false rowsOf
def iMvp : ArrInstr := ins 4 0 1 false false 0
def ctx3 (x : CtxSt) : State := { up with tiles := [(3, { walks := [(0, walk0)], c0 := x })] }
def busy : CtxSt := { task := some kT }
def loaded : Plane := { st := .complete, pes := [(0, [{ v := .i 3 }])] }
def vec0 : OutVec := { ins := iStrm, vec := 0, out := 0, ring := 0, sums := [some (5, 0), none] }

def tw (opc : Nat) (fs : List (Nat × Nat × Nat)) : Word32 := (packF ((26, 6, opc) :: fs)).setWidth 32
def prog0 : Prog := { ctx := 0, pc := 4 }
/-- Tile 3 runs a program that is about to issue `w`. -/
def tvuAt (w : Word32) (g : Prog) (x : CtxSt) (t : Tile) : State :=
  { up with tiles := [(3, { t with imem := [(4, w)], prog := some g, c0 := x })] }
def tvu (w : Word32) : State := tvuAt w prog0 busy {
  sregs := [(0, 0x40), (1, 7), (17, 3)], vm := 0xF0F0, rrb := 5
  vregs := [(1, List.replicate 64 0x3F800000), (2, List.replicate 64 0x40490FDB)]
  bankA := [(0x40, 0x3C), (0x43, 0xC0)] }
def vec (opc fn ty : Nat) : Word32 := tw opc [(21, 5, 3), (16, 5, 1), (11, 5, 2), (10, 1, ty), (0, 8, fn)]
def un (opc fn ty : Nat) : Word32 := tw opc [(21, 5, 3), (16, 5, 1), (10, 1, ty), (0, 8, fn)]

/-- Entry 5 of the ledger, and others. -/
def lgE (opc seq : Nat) (st : LgState) (plen : Nat) : LgEntry :=
  { seq := BitVec.ofNat 48 seq, chan := 1, state := st, world := true, fence := false, marked := false, opc := BitVec.ofNat 16 opc
    plen := BitVec.ofNat 13 plen, punit := 0, pchk := 0, order := 0, alive := 2 }
def withLg (l : Table LgEntry) (s : State) : State :=
  { s with keel := { s.keel with ledger := l, ledgerW := l, ledgerE := l } }
def eTask : LgEntry := lgE 0x30 9 .started 0
def seqOf (x : CtxSt) (e : List Word) : State := { up with tiles := [(3, { seq := [(0, e)], c0 := x })] }
def sq (kind : Nat) (fs : List (Nat × Nat × Nat)) : List Word := [packF ((0, 4, kind) :: fs), 0, 0]
/-- As `kT`, with inner tiles of 32 rows. -/
def kT2 : Task := task [] [(11, packF [(0, 2, 0), (8, 32, 32)])]
/-- A transfer descriptor. -/
def xd (kind sb len : Nat) (w1 : Word) (fs : List (Nat × Nat × Nat)) : List Word :=
  [packF ([(0, 4, kind), (4, 4, sb), (16, 19, len - 1)] ++ fs), w1, 0, 0, 0, 0, 0, 0]
def offers (d : List Word) : CtxSt := { busy with offerX := some 0, groups := [(0, d)] }
def outst (kind : Nat) (d : List Word) (fl : Nat) : Transfer :=
  { id := 0, xi := 0, kind := kind, desc := d, xa := 0x1000, la := 0, done := 0, inFlight := fl }
def dRead : List Word := xd 0 0 64 0x1000 []
def dWrite : List Word := xd 1 0 64 0xFE0 []
def dRemote : List Word := xd 2 0 300 (packF [(0, 10, 4), (16, 16, 100)]) []
def dPace : List Word := xd 3 0 100 (packF [(0, 16, 1)]) []
def dFwd : List Word := xd 3 0 1 0 [(13, 1, 1)]
def dPeer : List Word := xd 4 0 64 (packF [(0, 40, 0x2000), (40, 4, 2)]) []
def dTake : List Word := xd 5 0 1 7 []
def dGrant : List Word := xd 6 1 8 (packF [(0, 10, 4), (16, 16, 100)]) []
def dRing : List Word := xd 7 0 1 0 []
def ring0 : Ring := { key := 200, pred := 3, pctx := 0, succ := 4, suctx := 0, bufLen := 4096 }
def blk (hops : Nat) : PlBlock := { rot := 1, hops := hops, block := 0, len := 100, start := 0, fwd := 0 }
def resp3 (st : BitVec 8) : MemResp := { src := .xfer 3 0 0, write := false, status := st, data := List.replicate 64 7 }

/-- The command of entry 5 on channel 1, with these parameter words, has started. -/
def cmdW (w : World) (opc : Nat) (ps : List Word) (s : State := up) : State :=
  let l : Table LgEntry := [(5, { lgE opc 9 .started (8 * ps.length) with world := w })]
  { s with keel := { s.keel with
    ledger := l, ledgerW := l, ledgerE := l, current := some 5, pstoreW := [(0, bytesOfWords ps)], pstoreE := [(0, bytesOfWords ps)] } }
def cmd (opc : Nat) (ps : List Word) (s : State := up) : State := cmdW true opc ps s
def eCmd (opc n : Nat) : LgEntry := lgE opc 9 .started (8 * n)
def region5 (x : Region) : State := { up with fab := { regions := [(5, x)] } }
def open5 : Region := { state := 0, empty := false }
def row6 (wr : Option (BitVec 72)) (mode : Fin 3) : BmAccess := { shape := 6, addr := 1023, write := wr, mode := mode, code := false }
def qc5 (q : QueueCtl) : State := region5 { open5 with qcs := [(3, q)] }
def gKey : Grant := { xi := 2, record := 1, key := queueKey 5 3, lo := 0, len := 300, filled := [] }
def pinAt (x : Pin) : State := { up with fab := { regions := [(5, open5)], pins := [(129, x)] } }
/-- GPIO pin bound to signal 1 of region 5, an output. -/
def bound5 : Pin := { cfg := packF [(0, 3, 1), (3, 2, 1), (5, 7, 5), (12, 6, 1)] }
def weevil2 (x : Weevil) : State := { up with weevils := [(2, x)], fab := { regions := [(16, open5)] } }
def wvOn : Word := packF [(0, 1, 1), (8, 8, 1), (16, 16, 0x3C)]
def mreq (wr : Bool) (n : Nat) : MemReq :=
  { src := .xfer 3 0 0, write := wr, addr := 0x1000, len := n, data := if wr then List.replicate n 9 else [], world := false }
def memOf (x : MemChan) (m : Memory) : State :=
  { up with mem := { m with mrt := [(0, { valid := true, world := false })], chans := [(4, { x with state := 1 })] } }
def part4 (wr : Bool) : Part :=
  { rid := 7, write := wr, copy := false, cls := 2, port := none, age := 0, pieces := [{ off := 0, len := 128, pos := 0 }]
    data := List.replicate 128 9, owes := false, entry := 0 }

/-! ## Lanes, ports, the Web -/

def lnc (mode rate loop prbs region : Nat) : Word :=
  packF [(0, 1, 1), (1, 2, mode), (3, 3, rate), (6, 2, loop), (8, 2, prbs), (12, 7, region)]
/-- Lane 3 of rim W. -/
def laneAt (x : Lane) : State := { up with ser := { lanes := [(3, x)] }, fab := { regions := [(5, { open5 with world := true })] } }
def laneUp (mode : Nat) (st : BitVec 2) : Lane := { cfg := lnc mode 1 0 0 5, state := st, cdr := true }
def eqt (rate : Nat) : List Word := List.replicate 200 (BitVec.ofNat 64 rate)
/-- Port 0, and its eight lanes at 56 Gbit/s. -/
def portAt (p : VPortSt) (m : Nat → Option (Nat × Nat × Nat)) : State :=
  { up with ser := { ports := [(0, p)], lanes := (List.range 8).map (fun j => (j,
      { cfg := packF [(0, 1, 1), (1, 2, 2), (3, 3, 1)], state := 2, cdr := true, block := true, marker := m j })) } }
def fr (kind vc : Nat) (w : World) (dest src : Nat) (data : List Word) : Frame :=
  OutFrame.seal { kind := kind, vc := vc, world := w, dest := dest, src := src, data := data } 0
def link0 : VPortSt := { state := 3, ownInit := true, farInit := true, credit := [4, 4, 4] }
def sent1 : SentFrame := { frame := fr 0 0 true 0 0 [0x1000, 9], units := 1, sent := 1 }
def init1 : LinkInit := { kid := 0x111648, num := 127, lead := false, port := 3, world := true, size := 0, credits := [1024, 128, 128] }
/-- Channel 1 counts on rim W at pins 10 and 11. -/
def odoAt (o : OdoCh) (a : Table ActEntry) : State :=
  { up with fab := { pins := [(10, { cfg := packF [(0, 3, 3), (12, 6, 1)] }), (11, { cfg := packF [(0, 3, 3), (12, 6, 5)] })] }
            web := { odo := [(1, { o with en := true })], acts := a } }
/-- Position 100 of channel 1, forward, pin 12 of rim W. -/
def act0 (st : Nat) : ActEntry := { w0 := packF [(0, 48, 100), (48, 2, 1), (56, 7, 12)], w1 := packF [(24, 2, st)] }
/-- Stream 2: lines of 128 bytes, one byte a sample, 16 slots, region 5. -/
def str2 : Stream := { cfg0 := packF [(0, 1, 1), (3, 4, 7), (24, 7, 5), (32, 16, 127)], cfg1 := packF [(32, 24, 1024)]
                       cfg2 := packF [(0, 40, 0x1000), (40, 5, 4)] }
def streamAt (x : Stream) : State :=
  { up with web := { streams := [(2, x)] }, fab := { regions := [(5, open5)] }
            mem := { mrt := [(0, { valid := true, world := false })], rtport := [(2, { fill := 128 })] } }
def line0 (ended : Bool) : Line :=
  { seq := 0, fate := 0, defd := false, fw := false, extra := false, ptag := false, nopos := true, pos := 0, run := 0, runPos := 0
    ch := 0, lineb := 128, slot := 0x1000, ebound := 0, two := false, sbits := 7, world := false, ended := ended, issued := 1
    data := List.replicate 128 (3, false) }
/-! ## Packets and commands -/

/-- A packet of channel 1 whose check value stands. -/
def pkt (opc seq alive rack : Nat) (ps : List Word) : List Byte :=
  let w0 := packF [(0, 16, opc), (16, 48, seq)]
  let w1 := packF [(0, 8, 1), (16, 13, 8 * ps.length), (32, 16, alive), (48, 7, 127)]
  let w2 := packF [(0, 48, rack)]
  bytesOfWords ([w0, w1, w2, packF [(0, 32, (crc32c (bytesOfWords ([w0, w1, w2] ++ ps))).toNat)]] ++ ps)
/-- The same for member 5 of the peloton, in a world. -/
def pktM (opc seq alive rack : Nat) (w : World) : List Byte :=
  let w0 := packF [(0, 16, opc), (16, 48, seq)]
  let w1 := packF [(0, 8, 1), (8, 1, b2n w), (32, 16, alive), (48, 7, 5)]
  let w2 := packF [(0, 48, rack)]
  bytesOfWords [w0, w1, w2, packF [(0, 32, (crc32c (bytesOfWords [w0, w1, w2])).toNat)]]
def pkOf (bs : List Byte) : Packet := (packetOfBytes bs).getD { w0 := 0, w1 := 0, w2 := 0, w3 := 0, params := [] }
def pk0 : Packet := pkOf (pkt 1 0 0 0 [])
/-- The command of entry 5 waits to be started, device state `d`. -/
def waits (d : DevState) (opc : Nat) (ps : List Word) : State :=
  let u := withLg [(5, lgE opc 9 .accepted (8 * ps.length))] up
  { u with keel := { u.keel with dstate := d, pstoreW := [(0, bytesOfWords ps)], pstoreE := [(0, bytesOfWords ps)] } }
/-- Entry 6 of the ledger beside the started command of entry 5. -/
def also6 (e : LgEntry) (s : State) : State :=
  withLg [(5, (s.entry 5).getD eTask), (6, { e with seq := 4 })] s
def flagA : Nat := 0xFC40000000 + 3 * 0x1000 + 0x100
def resetCmd (k n : Nat) (s : State := up) : State := cmd 0x28 [packF [(0, 3, k), (8, 8, n)]] s
/-- The reset of a unit that entry 5 commanded is in progress. -/
def resetting5 (u : ResetUnit) (s : State) : State :=
  withLg [(5, eCmd 0x28 1)] { s with flt := { s.flt with resets := [{ kind := (unitCode u).1, target := (unitCode u).2, entry := some 5 }] } }
def swapTo (w : SwapWhy) : SwapJob := { bg := { tile := [(3, 48)] }, tileTab := true, dieTab := false, why := w }

/-- An image of no records in slot 1, whose load command of entry 5 waits. -/
def imgWords (kind : Nat) : List Word :=
  [packF [(0, 32, 0x41584931), (32, 8, 1), (40, 4, kind)], packF [(0, 16, kidDevice), (16, 8, kidStep)],
   if kind = 1 then 3076 else 3108, if kind = 1 then 0 else 32, 0] ++ List.replicate 27 0 ++ [packF [(0, 8, 0x10), (32, 16, 5)], 0, 0, 0]
def imgAt (opc kind : Nat) (ps : List Word) : State :=
  let s := (cmd opc ps)
  let s : State := { s with keel := { s.keel with current := none }, ldr := { waiting := [5] } }
  (s.memWrite (slotBase 1) (bytesOfWords (imgWords kind))).1

/-- As `up`, with every die of the fabric reached by the spoke of its own direction, credits at hand. -/
def upR : State := up
def msgFar : Msg := .take 7 3 0 0 true
/-- The first token that carries message `m` from tile 3. -/
def tokOf (m : Msg) : Token :=
  (tokensFor up.fresh (up.msgPort 0 m).1 (up.msgPort 0 m).2 0 3 m.cls m.tokens (.msg m)).headD tok0
def tokHere : Token := tokOf (.remote 3 0 1 0xD065 0 [1, 2, 3] false (.queue 0 1))
def tokBad : Token := tokOf (.remote 9 0 1 0xD065 0 [1, 2, 3] false (.queue 0 1))
def tokFar : Token := tokOf msgFar

/-- Bytes with an odd number of bits, three or more. -/
def oddCols : List Byte :=
  [7, 11, 13, 14, 19, 21, 22, 25, 26, 28, 31, 35, 37, 38, 41, 42, 44, 47, 49, 50, 52, 55, 56, 59, 61, 62, 67, 69, 70, 73,
   74, 76, 79, 81, 82, 84, 87, 88, 91, 93, 94, 97, 98, 100, 103, 104, 107, 109, 110, 112, 115, 117, 118, 121, 122, 124, 127,
   131, 133, 134, 137, 138, 140, 143]
/-- The check bits of a code with a column of odd weight for each data bit. -/
def hsiaoL : List Bool → List Byte → Byte
  | b :: bs, c :: cs => (if b then c else 0) ^^^ hsiaoL bs cs
  | _, _ => 0
def hsiao (d : Word) : Byte := hsiaoL ((List.range 64).map d.getLsbD) oddCols

/-- The next state of a command. -/
def exec1 (c : Instr) (s : State) : State := match exec c s with
  | .next t => t
  | _ => s

def env0 : LoadEnv := { hashEcc := [], recEcc := [], readbackBad := none, goldenEcc := [], goldenBad := none, firmwareOk := true }
/-- Region 5 closes for the load that entry `e` commanded. -/
def load5 (e : Nat) : LoadJob := { entry := e, slot := 1, full := false, target := 5, env := env0, at_ := 5 }
def loading5 (e : Nat) : State := { region5 { state := 2, closing := some .load } with ldr := { job := some (load5 e) } }
/-- Eight defined bytes at 0x1000, in a block of world `w`. -/
def memDef (w : World) (m : Memory) : State :=
  { up with mem := { m with mrt := [(0, { valid := true, world := w })], cells := (List.range 8).map (fun k => (memKey 4 0 + k, 3)) } }
/-- As `odoAt`, with pin 12 an action output. -/
def armAt (o : OdoCh) (a : Table ActEntry) : State :=
  { odoAt o a with fab := { pins := [(10, { cfg := packF [(0, 3, 3), (12, 6, 1)] }), (11, { cfg := packF [(0, 3, 3), (12, 6, 5)] }),
    (12, { cfg := packF [(0, 3, 2), (3, 2, 1)] })] } }
/-- Part `k` of the one line of stream 2 is answered with a status. -/
def answered (k : Nat) (st : BitVec 8) : MemResp := { src := .line 2 0 k, write := true, status := st, data := [] }
def lineAt (x : Stream) (q : MemResp) : State := { streamAt x with mem := { (streamAt {}).mem with resps := [q] } }
def str2off : Stream := { str2 with cfg0 := 2 }
def odoStream : State :=
  { streamAt str2off with fab := (odoAt {} []).fab, web := { odo := [(1, { en := true })], streams := [(2, str2off)] } }
def doneRep (q : BitVec 48) (r : Reply) : LgEntry := { eTask with state := .complete, seq := q, reply := some r }
def marked0 : LgEntry := { lgE 0x20 9 .started 0 with marked := true }
def mark0 : Mark := { chan := 1, seq := 9, status := 0 }
def again5 : State :=
  let u := withLg [(5, marked0)] up
  { u with keel := { u.keel with replayQ := [5], stateMark := some mark0 } }
def chan1 (x : ChanSt) (s : State := up) : State := { s with keel := { s.keel with chans := [(1, x)] } }
def ev0 : EventRec := { world := true, src := 3, eseq := 8, lost := 2, w1 := 1, w2 := 2, w3 := 3 }
def lostAt : State :=
  let u := chan1 { isOpen := true, alivExp := 6 }
  { u with keel := { u.keel with lostPaths := [.host1, .ssp] }, tim := { refclk := true } }
def routed : State :=
  let u := portAt link0 (fun _ => none)
  { u with ser := { u.ser with pel := { routes := [(9, (4, true))] } } }
def groupAt (tab : List Word) : State :=
  { up with
    ser := { pel := { again := [2] }
             lanes := (List.range 8).map (fun j => (16 + j, { cfg := packF [(0, 1, 1), (1, 2, 2), (3, 3, 1)], state := 2 })) }
    ldr := { eqtab := some tab } }
def peerAt (x : Transfer) : State :=
  { portAt { link0 with awaiting := [(3, 0, 0)] } (fun _ => none) with
    tiles := [(3, { c0 := { busy with xfers := [x], nextX := 1 } })] }
def dPeerBig : List Word := xd 4 0 5000 (packF [(0, 40, 0x2000), (40, 4, 2)]) []
def grantTo (l : Nat) : State :=
  { qc5 { mode := 1, bound := some (l, 0, 1) } with
    tiles := [(3, { c0 := { busy with grants := [gKey] } })], msgs := [.grant 0 0 (queueKey 5 3) 300 false (some (3, 0, 2, 0))] }
def range5 : QRange := { p := 3, ctx := 0, xi := 2, off := 0, left := 257 }
def tok5 : InTok := { die := 16, port := 48, cls := 6, words := [1, 2, 3] }
def word0 : InWord := { first := false, die := 0, port := 0, cls := 0, w := 0 }
def remoteMsg : Msg := .remote 3 0 1 0xD065 0 [1, 2, 3, 4, 5, 6, 7, 8] false (.queue 0 1)
def grant1 : Grant := { xi := 2, record := 1, key := 0xD065, lo := 0, len := 8 }
def retiring (x : Table Machine.PTile) : State :=
  { up with flt := { up.flt with retire := [{ ptile := 3, code := 5 }], ptiles := [(3, { logical := 3 })] ++ x } }
def spokeReset : State :=
  withLg [(5, eCmd 0x28 1)] { up with
    flt := { up.flt with resets := [{ kind := 6, target := 2, entry := some 5 }] }
    spk := { sides := [(4, { state := 1 }), (5, { state := 1 })] } }
def line1 : Line := { line0 false with seq := 1, data := List.replicate 64 (3, false), issued := 0 }

/-! ## A code as R233 asks for one -/

def weight : List Bool → Nat
  | [] => 0
  | b :: bs => b2n b + weight bs
theorem weight_zero_hsiaoL : ∀ (bs : List Bool) (cs : List Byte), weight bs = 0 → hsiaoL bs cs = 0
  | [], _, _ => by simp [hsiaoL]
  | _ :: _, [], _ => by simp [hsiaoL]
  | false :: bs, _ :: cs, h => by simpa [hsiaoL] using weight_zero_hsiaoL bs cs (by simpa [weight, b2n] using h)
  | true :: bs, _ :: _, h => by simp [weight, b2n] at h
theorem weight_one_hsiaoL : ∀ (bs : List Bool) (cs : List Byte), bs.length ≤ cs.length → weight bs = 1 → hsiaoL bs cs ∈ cs
  | [], _, _, h => by simp [weight] at h
  | _ :: _, [], h, _ => by simp at h
  | false :: bs, c :: cs, hl, h => by
    have := weight_one_hsiaoL bs cs (by simpa using hl) (by simpa [weight, b2n] using h)
    simp [hsiaoL, this]
  | true :: bs, c :: cs, _, h => by
    have := weight_zero_hsiaoL bs cs (by simpa [weight, b2n] using h)
    simp [hsiaoL, this]
theorem weight_two_hsiaoL : ∀ (bs : List Bool) (cs : List Byte), bs.length ≤ cs.length → cs.Nodup → weight bs = 2 → hsiaoL bs cs ≠ 0
  | [], _, _, _, h => by simp [weight] at h
  | _ :: _, [], h, _, _ => by simp at h
  | false :: bs, c :: cs, hl, hn, h => by
    have := weight_two_hsiaoL bs cs (by simpa using hl) (List.nodup_cons.1 hn).2 (by simpa [weight, b2n] using h)
    simpa [hsiaoL] using this
  | true :: bs, c :: cs, hl, hn, h => by
    have h1 := weight_one_hsiaoL bs cs (by simpa using hl) (by simp [weight, b2n] at h; omega)
    intro h0
    have : c = hsiaoL bs cs := by simpa [hsiaoL] using BitVec.xor_eq_zero_iff.1 (by simpa [hsiaoL] using h0)
    exact (List.nodup_cons.1 hn).1 (this ▸ h1)
theorem byte_weight (b : Byte) : popcount b = weight [b.getLsbD 0, b.getLsbD 1, b.getLsbD 2, b.getLsbD 3, b.getLsbD 4, b.getLsbD 5, b.getLsbD 6, b.getLsbD 7] := by
  simp [popcount, List.range, List.range.loop, weight]; omega
theorem popcount_xor_parity (a b : Byte) : popcount (a ^^^ b) % 2 = (popcount a + popcount b) % 2 := by
  have x (p q : Bool) : b2n (p != q) % 2 = (b2n p + b2n q) % 2 := by cases p <;> cases q <;> rfl
  simp only [byte_weight, weight, BitVec.getLsbD_xor]
  have h (i : Nat) := x (a.getLsbD i) (b.getLsbD i)
  have h0 := h 0; have h1 := h 1; have h2 := h 2; have h3 := h 3; have h4 := h 4; have h5 := h 5; have h6 := h 6; have h7 := h 7
  simp only [bne] at *
  omega
theorem hsiaoL_parity : ∀ (bs : List Bool) (cs : List Byte), bs.length ≤ cs.length → (∀ c ∈ cs, popcount c % 2 = 1) →
    popcount (hsiaoL bs cs) % 2 = weight bs % 2
  | [], _, _, _ => by simp [hsiaoL, weight]; decide
  | _ :: _, [], h, _ => by simp at h
  | b :: bs, c :: cs, hl, hc => by
    have ih := hsiaoL_parity bs cs (by simpa using hl) (fun x hx => hc x (by simp [hx]))
    have h1 := hc c (by simp)
    cases b with
    | false => simpa [hsiaoL, weight, b2n] using ih
    | true =>
      have := popcount_xor_parity c (hsiaoL bs cs)
      simp only [hsiaoL, weight, b2n, if_true]
      omega
theorem hsiaoL_xor : ∀ (as bs : List Bool) (cs : List Byte), as.length = bs.length →
    hsiaoL as cs ^^^ hsiaoL bs cs = hsiaoL (List.zipWith xor as bs) cs
  | [], [], _, _ => by simp [hsiaoL]
  | [], _ :: _, _, h => by simp at h
  | _ :: _, [], _, h => by simp at h
  | _ :: _, _ :: _, [], _ => by simp [hsiaoL]
  | a :: as, b :: bs, c :: cs, h => by
    have ih := hsiaoL_xor as bs cs (by simpa using h)
    rw [List.zipWith_cons_cons, hsiaoL, hsiaoL, hsiaoL, ← ih]
    have lc (x y z : Byte) : x ^^^ (y ^^^ z) = y ^^^ (x ^^^ z) := by rw [← BitVec.xor_assoc, BitVec.xor_comm x y, BitVec.xor_assoc]
    cases a <;> cases b <;> simp [BitVec.xor_assoc, lc (hsiaoL as cs) c, ← BitVec.xor_assoc c c]
theorem foldl_weight {n : Nat} (w : BitVec n) : ∀ (l : List Nat) (a : Nat),
    l.foldl (fun a i => a + b2n (w.getLsbD i)) a = a + weight (l.map w.getLsbD)
  | [], a => by simp [weight]
  | i :: l, a => by rw [List.foldl_cons, foldl_weight w l]; simp [weight]; omega
theorem popcount_weight {n : Nat} (w : BitVec n) : popcount w = weight ((List.range n).map w.getLsbD) := by
  rw [popcount, foldl_weight]; omega
theorem weight_ge_one : ∀ bs : List Bool, weight bs = 0 → ∀ b ∈ bs, b = false
  | [], _, b, h => by simp at h
  | c :: bs, hw, b, h => by
    rw [weight] at hw
    rcases List.mem_cons.1 h with rfl | h
    · cases b
      · rfl
      · simp [b2n] at hw
    · exact weight_ge_one bs (by omega) b h
theorem byte_zero (b : Byte) (h : popcount b = 0) : b = 0 := by
  revert b; decide +kernel
/-- A code that corrects every single-bit error and detects every double-bit error. -/
theorem hsiao_secded : SecDed hsiao := by
  intro d d' hd
  let bs := (List.range 64).map (d ^^^ d').getLsbD
  have hx : hsiao d ^^^ hsiao d' = hsiaoL bs oddCols := by
    rw [hsiao, hsiao, hsiaoL_xor _ _ _ (by simp)]
    congr 1
    simp [bs, List.zipWith_map, List.zipWith_self]
  have hl : bs.length ≤ oddCols.length := by simp only [bs, List.length_map, List.length_range]; decide +kernel
  have hp := hsiaoL_parity bs oddCols hl (by decide +kernel)
  rw [rowDist, popcount_weight (d ^^^ d'), hx]
  show 4 ≤ weight bs + _
  by_cases h0 : weight bs = 0
  · exfalso; apply hd
    apply BitVec.xor_eq_zero_iff.1
    apply BitVec.eq_of_getLsbD_eq
    intro i hi
    have := weight_ge_one bs h0 ((d ^^^ d').getLsbD i) (List.mem_map.2 ⟨i, by simp [hi], rfl⟩)
    simpa using this
  · by_cases h1 : weight bs = 1
    · have := weight_one_hsiaoL bs oddCols hl h1
      have h3 : ∀ c ∈ oddCols, 3 ≤ popcount c := by decide +kernel
      have := h3 _ this
      omega
    · by_cases h2 : weight bs = 2
      · have := weight_two_hsiaoL bs oddCols hl (by decide +kernel) h2
        have hz : popcount (hsiaoL bs oddCols) ≠ 0 := fun h => this (byte_zero _ h)
        omega
      · by_cases h3 : weight bs = 3
        · omega
        · omega

/-! ## Worked examples of the manual -/

/-- R262: CRC-32C over the ASCII string "123456789". -/
theorem test_crc32c : crc32c [0x31, 0x32, 0x33, 0x34, 0x35, 0x36, 0x37, 0x38, 0x39] = 0xE3069283 := by decide +kernel

/-- The example of section 8: the key of QC05 of F4.RG2. -/
theorem test_queue_key : queueKey (8 * 4 + 2) 5 = 0xD065 := by decide +kernel

/-- The example of R286: port, home and mirror of address 0x1A_4321_5678. -/
def example286 : State :=
  { State.reset with mem := { mrt := [(336, { valid := true, mirror := true, ilv := false, mslot := 12 })] } }
theorem test_address : example286.portOf false 0x1A43215678 = (1, 6) := by decide +kernel
theorem test_mirror : example286.copiesOf 0x1A43215678 = [(44, 672401912), (4, 2249460216)] := by decide +kernel

/-- The example of R215: a take of counter 288, and one that finds it exhausted. -/
def takes (v : Nat) : State :=
  { up with ctrs := { ctrs := [(288, { value := BitVec.ofNat 48 v, limit := 40 })] }, msgs := [.take 288 3 0 0 true] }

/-- The example of R431: the fault that reaches the limit starts a retirement; W1 of the record of its substitution. -/
theorem test_record10 : tileRecord 443 (52 * 9 + 11) 48 = 0x0302E5BB := by decide +kernel

/-- The example of R421: bit 37 does not read back and bit 38 does. -/
theorem test_epoch : (match exec (.coldResetRelease {
      leadselHigh := false, memrate := 0, blows := [false, true], tileFails := [], wires := [] })
      { State.reset with sec := { epUsed := 37 } } with
    | .next t => (t.sec.epoch, t.sec.epUsed, t.sec.epv)
    | _ => (0, 0, false)) = (38, 39, true) := by decide +kernel

/-- The example of R143: 64 lanes of AF32 stored into AB8, SC 1, rounding half up. -/
def lanes143 : List Word32 :=
  [0x406C0000, 0xBF266666] ++ List.replicate 14 0 ++ [0x407CCCCD] ++ List.replicate 31 0 ++ [0x7FC00000, 0x3FC00000] ++
  List.replicate 14 0
def after143 : Tile := match exec (.vst 3 .none) (tvuAt (tw 0x19 [(21, 5, 1), (18, 3, 0), (12, 4, 3), (9, 2, 1)]) prog0 busy {
    vregs := [(1, lanes143)] }) with
  | .next t => t.tile 3
  | _ => {}
theorem test_vst_example :
    [0, 1, 2, 16, 17, 33, 34, 50, 51, 52, 67, 68].map (fun a => tget 0 after143.bankA a) =
      [0x76, 0xCD, 0, 0xFB, 0x70, 0xFC, 0, 0, 0x78, 0x70, 0xF9, 0] ∧
    after143.sreg 0 20 = 0xF900FCFB := by decide +kernel

theorem test_take_answered : (match exec (.counterTake 288) (takes 37) with
    | .next t => (t.ctrs.ctrs.map (fun x => (x.1, x.2.value)), t.spk.sides.filterMap (fun x => x.2.held.bind (·.load)))
    | _ => ([], [])) = ([(288, 38)], [.msg (.taken 288 3 0 0 false (some 37))]) := by decide +kernel
theorem test_take_exhausted : (match exec (.counterTake 288) (takes 40) with
    | .next t => (t.ctrs.ctrs.map (fun x => (x.1, x.2.value)), t.spk.sides.filterMap (fun x => x.2.held.bind (·.load)))
    | _ => ([], [])) = ([(288, 40)], [.msg (.taken 288 3 0 0 false none)]) := by decide +kernel

/-! ## What the well-formedness checks refuse: one ill-formed command for each check -/

theorem test_wf_groups : (Instr.spokeTokenReceived 4 (List.replicate 1039 0)).wf = false := by decide +kernel
theorem test_wf_wires :
    (Instr.wireTestComplete 4 { clean with badSpares := [0, 0] }).wf = false ∧
    (Instr.wireTestComplete 64 { clean with badSegs := [2] }).wf = false ∧
    (Instr.wireTestComplete 4 { clean with ackBad := 4 }).wf = false ∧
    (Instr.wireTestComplete 4 { clean with cred0Bad := 4 }).wf = false ∧
    (Instr.wireTestComplete 4 { clean with cred1Bad := 4 }).wf = false := by decide
theorem test_wf_window : (Instr.paceWindowClose (List.replicate 15 0) []).wf = false := by decide
theorem test_wf_block_memory :
    (Instr.blockMemoryAccess 0 0 none none).wf = false ∧
    (Instr.blockMemoryAccess 0 0 (some { shape := 6, addr := 1024, write := none, mode := 0, code := false }) none).wf = false ∧
    (Instr.blockMemoryAccess 0 0 none (some { shape := 0, addr := 65536, write := none, mode := 0, code := false })).wf = false := by
  decide +kernel
theorem test_wf_region_port :
    (Instr.regionPortRequest 0 false 0 0 []).wf = false ∧ (Instr.regionPortRequest 0 false 0 4097 []).wf = false ∧
    (Instr.regionPortRequest 0 true 0 8 [1]).wf = false := by decide
theorem test_wf_training : (Instr.trainingComplete 0 0 true [1]).wf = false := by decide
theorem test_wf_lane : (Instr.laneReceive 0 0 [] []).wf = false ∧ (Instr.laneReceive 0 0 [0] [(1, 0)]).wf = false := by
  decide
theorem test_wf_weevil : (Instr.weevilRead 0 [] none).wf = false := by decide
theorem test_wf_load : (Instr.islRegionLoad 1 {
    hashEcc := [], recEcc := [{ chan := 0, off := 64, errs := [] }], readbackBad := none, goldenEcc := [], goldenBad := none
    firmwareOk := true }).wf = false := by decide
theorem test_wf_words :
    (Instr.laneTransmitToken 0 0 []).wf = false ∧ (Instr.laneTransmitToken 0 0 (List.replicate 33 0)).wf = false ∧
    (Instr.ingressToken 0 0 []).wf = false ∧ (Instr.ingressToken 0 0 (List.replicate 33 0)).wf = false := by decide +kernel
def longFrame : Frame := { hdr := 0, data := List.replicate 517 0, crc := 0 }
theorem test_wf_frames :
    (Instr.peerWriteFrame 0 longFrame).wf = false ∧ (Instr.peerAcknowledgeFrame 0 (longFrame, .none)).wf = false ∧
    (Instr.peerRefusalFrame 0 longFrame).wf = false ∧ (Instr.commandFrame 0 longFrame).wf = false ∧
    (Instr.replyFrame 0 longFrame).wf = false ∧ (Instr.linkInit 0 longFrame init1).wf = false ∧
    (Instr.linkInit 0 sent1.frame { init1 with credits := [1, 2] }).wf = false := by decide +kernel
theorem test_wf_packets :
    (Instr.packetIntake (.host false (List.replicate 31 0))).wf = false ∧ (Instr.islAck (.host true [])).wf = false := by
  decide +kernel
theorem test_wf_resets :
    (Instr.partResetComplete (.spoke 0) [(0, { clean with ackBad := 4 })]).wf = false ∧
    (Instr.warmResetRelease [] [(0, { clean with cred0Bad := 4 })]).wf = false ∧
    (Instr.coldResetRelease {
      leadselHigh := false, memrate := 0, blows := [], tileFails := [], wires := [(0, { clean with cred1Bad := 4 })] }).wf = false ∧
    (Instr.coldResetRelease { leadselHigh := false, memrate := 0, blows := [], tileFails := [5, 5], wires := [] }).wf = false := by
  decide
def oddCode : List CodeWordError := [{ chan := 0, off := 64, errs := [(0, 1)] }]
theorem test_wf_code_words :
    (Instr.islRead 1 oddCode).wf = false ∧ (Instr.islWrite 1 oddCode).wf = false ∧ (Instr.islStoreWrite 1 oddCode).wf = false ∧
    (Instr.islTaskIssue 1 oddCode).wf = false ∧ (Instr.islAttest 1 oddCode).wf = false ∧
    (Instr.attstatReady [{ chan := 0, off := 0xF0000000, errs := [] }]).wf = false ∧
    (Instr.attstatReady [{ chan := 0, off := 0, errs := [] }, { chan := 0, off := 0, errs := [(0, 1)] }]).wf = false := by
  decide

/-! ## More of what meets the premises of some statements -/

/-- A counter outside instruction memory, an operation code that is none, and a word of VADD with a field that must be 0. -/
theorem test_illegal_words :
    (∃ (p : Nat) (s : State) (g : Prog), (s.tile p).prog = some g ∧ g.waitv = none ∧
      (g.boundary && g.eventPending ((s.tile p).ctx g.ctx)) = false ∧ (s.tile p).pcOk g.ctx g.pc = false) ∧
    (∃ (p : Nat) (s : State) (g : Prog), (s.tile p).prog = some g ∧ g.waitv = none ∧
      (g.boundary && g.eventPending ((s.tile p).ctx g.ctx)) = false ∧
      tvuOpcOk (tiOpc (tget 0 (s.tile p).imem g.pc)) = false) ∧
    (∃ (p : Nat) (s : State) (g : Prog) (opc : Nat), (s.tile p).prog = some g ∧ g.waitv = none ∧
      (g.boundary && g.eventPending ((s.tile p).ctx g.ctx)) = false ∧
      tiOpc (tget 0 (s.tile p).imem g.pc) = opc ∧ tvuLegal (tget 0 (s.tile p).imem g.pc) = false) :=
  ⟨⟨3, tvuAt 0 { prog0 with pc := 16384 } busy {}, { prog0 with pc := 16384 }, by decide +kernel⟩,
    ⟨3, tvu (tw 0x3F []), prog0, by decide +kernel⟩, ⟨3, tvu (tw 0x00 [(0, 1, 1)]), prog0, 0, by decide +kernel⟩⟩

/-- A device with its owner root blown, and a cold start that blows an epoch bit. -/
def owned : State := { State.reset with sec := { owner := true, ownerRoot := [7, 7], voff := true, epUsed := 37 } }
def bootOk : BootEnv := { leadselHigh := false, memrate := 0, blows := [true], tileFails := [], wires := [] }
theorem test_fuses :
    (∃ (c : Instr) (t : State), (∀ env, c ≠ .coldResetRelease env) ∧ owned.sec.owner = true ∧ owned.sec.voff = true ∧
      exec c owned = .next t) ∧
    (∃ (c : Instr) (t : State), exec c owned = .next t ∧ owned.sec.epUsed < t.sec.epUsed) :=
  ⟨⟨.coldReset, _, (fun _ h => nomatch h), rfl, rfl, rfl⟩, ⟨.coldResetRelease bootOk, _, rfl, by decide +kernel⟩⟩

/-- A full load of an image of no records that is about to end with its last region. -/
def lastRegion : State :=
  let s := imgAt 0x11 1 [1]
  let j : LoadJob := { entry := 5, slot := 1, full := true, target := 0, at_ := 127
                       env := env0 }
  { s with ldr := { job := some j }, fab := { regions := [(127, { closing := some .load })] } }
/-- One command for each change of the device state. -/
def dst (o : Host.Outcome State Fault Refusal) : Option DevState :=
  match o with
  | .next t => some t.keel.dstate
  | _ => none
def inState (d : DevState) (s : State) : State := { s with keel := { s.keel with dstate := d } }
theorem test_device_states :
    dst (exec .coldReset up) = some .sealed ∧
    dst (exec (.regionCloseComplete 127) (inState .sealed lastRegion)) = some .safe ∧
    dst (exec (.islArm 1) (inState .safe (cmd 0x20 []))) = some .armed ∧
    dst (exec (.islRun 1) (inState .armed (cmd 0x21 []))) = some .running ∧
    dst (exec (.islFreewheelEnter 1) (cmd 0x22 [])) = some .freewheel ∧
    dst (exec (.islFreewheelLeave 1) (inState .freewheel (cmd 0x23 []))) = some .running ∧
    dst (exec (.islQuiesce 1) (cmd 0x24 [])) = some .quiesced ∧
    dst (exec (.warmResetRelease [] []) { up with boot := { phase := .warm } }) = some .freewheel := by decide +kernel

/-- The examples of section 3: an exact AF4 sum and its conversions to AF8M, and a tie of AB8 sums. -/
def af4 (c : Nat) : Opnd := opOf 0 c
def sum4 := reduce .af32 .halfUp none [(0, { v := af4 7 }, { v := af4 5 }), (1, { v := af4 6 }, { v := af4 7 }),
  (2, { v := af4 0xB }, { v := af4 4 }), (3, { v := af4 1 }, { v := af4 3 })]
theorem test_af4_sum : sum4 = (some (0x415F2000, 3), []) := by decide +kernel
theorem test_af8m_narrowing :
    (fAF8M.convert .halfUp (af32 0x415F2000)).1 = 0x6C ∧ (fAF8M.convert .trunc (af32 0x415F2000)).1 = 0x6B := by decide +kernel
theorem test_ab8_tie :
    (addAF32 .halfUp 0x40000000 0x3A400000) = (0x40000001, { inx := true }) ∧
    (addAF32 .trunc 0x40000000 0x3A400000) = (0x40000000, { inx := true }) := by decide +kernel

/-! ## What meets the premises of the statements, clause by clause -/

theorem test_witness_SpokesAndBoundaries :
    (∃ (d : Fin 68) (gs : List (BitVec 4)) (s : State) (k : Token), s.spokesRun = true ∧ (s.side d.val).state = 0 ∧
      (s.side d.val).onWire = true ∧ (s.side d.val).held = some k ∧ codeError gs = false ∧ tokenOf d.val gs = some (k.data,
      k.route) ∧ (s.side d.val).lastTog ≠ some k.toggle ∧ ((s.side d.val).rx k.vc1).length < 4) ∧
    (∃ (d : Fin 68) (gs : List (BitVec 4)) (s : State) (k : Token), s.spokesRun = true ∧ (s.side d.val).state = 0 ∧
      (s.side d.val).onWire = true ∧ (s.side d.val).held = some k ∧ codeError gs = false ∧ tokenOf d.val gs = some (k.data,
      k.route) ∧ (s.side d.val).lastTog = some k.toggle) ∧
    (∃ (d : Fin 68) (gs : List (BitVec 4)) (s : State), s.spokesRun = true ∧ (s.side d.val).state = 0 ∧
      (s.side d.val).onWire = true ∧ codeError gs = true) ∧
    (∃ (d : Fin 68) (s : State), s.spokesRun = true ∧ (s.side d.val).state = 0 ∧ (s.side d.val).ackDue = true ∧ Still s) ∧
    (∃ (d : Fin 68) (vc1 : Bool) (s : State) (k : Token) (rest : List Token), s.spokesRun = true ∧ Still s ∧
      (s.side d.val).rx vc1 = k :: rest ∧ k.dst = dirTo d.val ∧ (∀ r, k.load = some (.resp r) → ∃ p c x, r.src = .xfer p c x) ∧
      s.turn (dirTo d.val) (68 + k.dstPort) d.val k = true) ∧
    (∃ (d : Fin 68) (vc1 : Bool) (s : State) (k : Token) (rest : List Token) (o : Nat), s.spokesRun = true ∧ Still s ∧
      (s.side d.val).rx vc1 = k :: rest ∧ o ≠ d.val ∧ s.outDir (dirTo d.val) k = some o ∧ o < 68 ∧
      s.turn (dirTo d.val) o d.val k = true) ∧
    (∃ (d : Fin 68) (s : State), s.spokesRun = true ∧ (s.side d.val).state = 0 ∧ (s.side d.val).held.isSome) ∧
    (∃ (d : Fin 68) (w : WireTest) (s : State), s.spokesRun = true ∧ (s.side d.val).state = 1 ∧ wireFails d.val w = false ∧
      (∀ i, i < 34 → (s.side (2 * i)).state ≠ 2) ∧ Still s) ∧
    (∃ (d : Fin 68) (w : WireTest) (s : State), s.spokesRun = true ∧ (s.side d.val).state = 1 ∧ wireFails d.val w = true ∧
      (s.side (2 * (d.val / 2))).state ≠ 2 ∧ Still s ∧ (∀ n, n < 16 → ∃ i ∈ spokesOf n, i ≠ d.val / 2 ∧
      (s.side (2 * i)).state ≠ 2)) ∧
    (∃ (b : Nat) (data : Word) (s : State), (tget ({} : Boundary) s.tim.boundaries b).req = false ∧
      (tget ({} : Boundary) s.tim.boundaries b).ack = false) ∧
    (∃ (b : Nat) (data : Word) (stored : Bool) (s : State), (tget ({} : Boundary) s.tim.boundaries b).ack = true) ∧
    (∃ (b : Nat) (data : Word) (s : State), (tget ({} : Boundary) s.tim.boundaries b).req = true ∧
      (tget ({} : Boundary) s.tim.boundaries b).ack = false) ∧
    (∃ (b : Nat) (s : State), (tget ({} : Boundary) s.tim.boundaries b).req = true) :=
  ⟨⟨4, gs0, side { held := some tok0, onWire := true, rx0 := [tok0, tok0, tok0] }, tok0, by decide +kernel⟩,
    ⟨4, gs0, side { held := some tok0, onWire := true, lastTog := some false }, tok0, by decide +kernel⟩,
    ⟨4, (3 : BitVec 4) :: List.replicate 1039 1, side { held := some tok0, onWire := true }, by decide +kernel⟩,
    ⟨4, side { held := some tok0, ackDue := true, credit0 := 3 }, by unfold Still; decide +kernel⟩,
    ⟨4, false, side { rx0 := [{ tok0 with route := 3 }] }, { tok0 with route := 3 }, [], by decide +kernel,
      by unfold Still; decide +kernel, by decide +kernel, by decide +kernel, (fun _ h => nomatch h), by decide +kernel⟩,
    ⟨4, false, side { rx0 := [tok0] }, tok0, [], 5, by unfold Still; decide +kernel⟩,
    ⟨4, side { held := some tok0, onWire := true }, by decide +kernel⟩,
    ⟨4, clean, side { state := 1, held := some tok0 }, by unfold Still; decide +kernel⟩,
    ⟨4, { clean with ackBad := 2 }, side { state := 1, held := some tok0 }, by unfold Still; decide +kernel⟩,
    ⟨7, 0x55, boundary {}, by decide +kernel⟩,
    ⟨7, 0x55, true, boundary { data := 3, req := true, ack := true, captured := some 3 }, by decide +kernel⟩,
    ⟨7, 0x55, boundary { data := 3, req := true }, by decide +kernel⟩,
    ⟨7, boundary { data := 3, req := true, ack := true, captured := some 3 }, by decide +kernel⟩⟩

theorem test_witness_PaceAndTemperature :
    (∃ (cs : List (BitVec 16)) (es : List (Nat × Nat)) (s : State), s.tim.refclk = true ∧ s.boot.phase ≠ .held ∧
      s.tim.windowOpen = false) ∧
    (∃ (cs : List (BitVec 16)) (es : List (Nat × Nat)) (s : State), s.tim.refclk = true ∧ s.boot.phase ≠ .held ∧
      s.tim.windowOpen = true) ∧
    (∃ (s : State), s.up = true) ∧
    (∃ (n : Fin 19) (tj : BitVec 12) (s : State), s.boot.phase = .held ∧ s.tim.thermTrip = false) ∧
    (∃ (n : Fin 19) (tj : BitVec 12) (s : State), (s.boot.phase ≠ .held ∨ s.tim.thermTrip = true)) :=
  ⟨⟨List.replicate 16 5, [(0, 3)], { up with tim := { windowOpen := false } }, by decide +kernel⟩,
    ⟨List.replicate 16 5, [(0, 3)], { up with tim := { clrReq := true } }, by decide +kernel⟩,
    ⟨up, by decide +kernel⟩,
    ⟨4, 0x100, State.reset, by decide +kernel⟩,
    ⟨4, 0x100, up, by decide +kernel⟩⟩

theorem test_witness_PaceEvent :
    ∃ (cs : List (BitVec 16)) (es : List (Nat × Nat)) (s : State), s.tim.refclk = true ∧ s.boot.phase ≠ .held ∧
      s.tim.windowOpen = true :=
  ⟨List.replicate 16 5, [], { up with tim := { floor := 9 } }, by decide +kernel⟩

theorem test_witness_CommandsComplete :
    ∃ (mv : Nat) (s : State), mv ≤ 880 :=
  ⟨880, up, by decide +kernel⟩

theorem test_witness_FlagWords :
    (∃ (p : Fin 832) (e : Engine) (w : World) (s : State), (w = true ∨ s.engineWorld p.val e = false)) ∧
    (∃ (p : Fin 832) (e : Engine) (s : State), s.engineWorld p.val e = true) ∧
    (∃ (w : FlagWord) (f : Fl) (at_ : EvAt), f.any = false) ∧
    (∃ (w : FlagWord) (f : Fl) (at_ : EvAt), f.any = true ∧ (w.raises f = true ∨ w.readMark = true)) ∧
    (∃ (w : FlagWord) (f : Fl) (at_ : EvAt), w.cValid = true ∧ f.inv = true) ∧
    (∃ (w : FlagWord) (f : Fl) (at_ : EvAt), w.cValid = false ∧ f.inv = true) ∧
    (∃ (w : FlagWord) (mask : BitVec 4) (gen : BitVec 8), gen ≠ w.gen) ∧
    (∃ (w : FlagWord) (mask : BitVec 4) (gen : BitVec 8), gen = w.gen) :=
  ⟨⟨3, .array, true, ctx3 {}, by decide +kernel⟩,
    ⟨3, .tvu1, ctx3 {}, by decide +kernel⟩,
    ⟨{ inx := true, readMark := true }, {}, { task := 7, row := 0, col := 0, kidx := 0, step := 0 }, by decide +kernel⟩,
    ⟨{ inx := true, readMark := true }, { ovf := true, inv := true }, { task := 7, row := 0, col := 0, kidx := 0, step := 0 },
      by decide +kernel⟩,
    ⟨{ inv := true, cValid := true, cTask := 3 }, { ovf := true, inv := true },
      { task := 7, row := 0, col := 0, kidx := 0, step := 0 }, by decide +kernel⟩,
    ⟨{ inx := true, readMark := true }, { ovf := true, inv := true }, { task := 7, row := 0, col := 0, kidx := 0, step := 0 },
      by decide +kernel⟩,
    ⟨{ inx := true, ovf := true, gen := 5 }, 4, 6, by decide +kernel⟩,
    ⟨{ inx := true, ovf := true, gen := 5 }, 4, 5, by decide +kernel⟩⟩

theorem test_witness_ArrayTakesInstructions :
    (∃ (p : Fin 832) (c : Fin 2) (s : State) (i : ArrInstr) (k : Task), OfferedTo s p.val c.val 1 i k ∧
      (s.ctx p.val c.val).load = none) ∧
    (∃ (p : Fin 832) (c : Fin 2) (s : State) (i : ArrInstr) (k : Task), OfferedTo s p.val c.val 2 i k ∧
      (s.ctx p.val c.val).strm = none ∧ (s.ctx p.val c.val).load = none ∧ (s.ctx p.val c.val).planeEmpty i = false ∧
      (s.tile p.val).prog = none) ∧
    (∃ (p : Fin 832) (c : Fin 2) (s : State) (i : ArrInstr), (s.ctx p.val c.val).offered 5 = some i) ∧
    (∃ (p : Fin 832) (c : Fin 2) (s : State), (s.ctx p.val c.val).active = true ∧ (s.ctx p.val c.val).fencing = true ∧
      (s.ctx p.val c.val).strm = none ∧ (s.ctx p.val c.val).flight = []) ∧
    (∃ (p : Fin 832) (c : Fin 2) (s : State), ((s.ctx p.val c.val).flight ≠ [] ∨ (s.ctx p.val c.val).strm ≠ none)) ∧
    (∃ (p : Fin 832) (c : Fin 2) (s : State) (i : ArrInstr), (s.ctx p.val c.val).offered 0 = some i) :=
  ⟨⟨3, 0, ctx3 { busy with offer := some iLoad }, iLoad, kT, by unfold OfferedTo; decide +kernel⟩,
    ⟨3, 0, ctx3 { busy with offer := some iStrm, plane0 := loaded }, iStrm, kT, by unfold OfferedTo; decide +kernel⟩,
    ⟨3, 0, ctx3 { busy with offer := some (ins 5 0 1 false false 0) }, ins 5 0 1 false false 0, by decide +kernel⟩,
    ⟨3, 0, ctx3 { busy with fencing := true }, by decide +kernel⟩,
    ⟨3, 0, ctx3 { busy with fencing := true, flight := [vec0] }, by decide +kernel⟩,
    ⟨3, 0, ctx3 { busy with offer := some (ins 0 0 1 false false 0) }, ins 0 0 1 false false 0, by decide +kernel⟩⟩

theorem test_witness_PlanesAndRows :
    (∃ (p : Fin 832) (c : Fin 2) (s : State) (ip : InProg) (k : Task), (s.ctx p.val c.val).load = some ip ∧
      (s.ctx p.val c.val).task = some k ∧ (s.ctx p.val c.val).active = true ∧ (s.ctx p.val c.val).beatHeld ip = false ∧
      awSrc ip.ins.w1 = false) ∧
    (∃ (p : Fin 832) (c : Fin 2) (s : State), (s.ctx p.val c.val).plane0.st = .entered) ∧
    (∃ (p : Fin 832) (c : Fin 2) (s : State), (s.ctx p.val c.val).plane0.st ≠ .entered ∧
      (s.ctx p.val c.val).plane1.st = .entered) ∧
    (∃ (p : Fin 832) (c : Fin 2) (s : State) (ip : InProg), (s.ctx p.val c.val).strm = some ip ∧
      (s.ctx p.val c.val).active = true ∧ aiMode ip.ins.w0 ≠ 2 ∧ (s.ctx p.val c.val).rowHeld ip = false) ∧
    (∃ (p : Fin 832) (c : Fin 2) (s : State) (ip : InProg), (s.ctx p.val c.val).strm = some ip ∧
      (s.ctx p.val c.val).active = true ∧ aiMode ip.ins.w0 = 2) ∧
    (∃ (p : Fin 832) (c : Fin 2) (s : State) (ip : InProg) (hw : HwEvent), (s.ctx p.val c.val).strm = some ip ∧
      aiMode ip.ins.w0 ≠ 2 ∧ (s.ctx p.val c.val).rowHeld ip = true) :=
  ⟨⟨3, 0, ctx3 { busy with load := some { ins := iLoad } }, { ins := iLoad }, kT, by decide +kernel⟩,
    ⟨3, 0, ctx3 { busy with plane0 := { loaded with st := .entered } }, by decide +kernel⟩,
    ⟨3, 0, ctx3 { busy with plane1 := { loaded with st := .entered } }, by decide +kernel⟩,
    ⟨3, 0, ctx3 { busy with plane0 := loaded, strm := some { ins := iStrm } }, { ins := iStrm }, by decide +kernel⟩,
    ⟨3, 0, ctx3 { busy with strm := some { ins := iOs } }, { ins := iOs }, by decide +kernel⟩,
    ⟨3, 0, ctx3 { busy with strm := some { ins := iStrm } }, { ins := iStrm }, .none, by decide +kernel⟩⟩

theorem test_witness_OutputsReachAccumulators :
    (∃ (p : Fin 832) (c : Fin 2) (s : State) (v : OutVec) (rest : List OutVec), (s.ctx p.val c.val).flight = v :: rest ∧
      (s.tile p.val).ringHeld c.val v = false) ∧
    (∃ (p : Fin 832) (c : Fin 2) (hw : HwEvent) (s : State) (v : OutVec) (rest : List OutVec),
      (s.ctx p.val c.val).flight = v :: rest ∧ (s.tile p.val).ringHeld c.val v = true) ∧
    (∃ (p : Fin 832) (c : Fin 2) (s : State) (i : ArrInstr) (k : Task), OfferedTo s p.val c.val 3 i k ∧
      (s.ctx p.val c.val).load = none ∧ (s.ctx p.val c.val).strm = none ∧ (s.ctx p.val c.val).flight = [] ∧
      ((s.ctx p.val c.val).plane (aiPlane i.w0)).st = .sums) ∧
    (∃ (p : Fin 832) (s : State) (i : ArrInstr) (k : Task), OfferedTo s p.val 0 4 i k ∧ (s.ctx p.val 0).load = none ∧
      (s.ctx p.val 0).strm = none ∧ (s.ctx p.val 0).flight = []) :=
  ⟨⟨3, 0, ctx3 { busy with flight := [vec0] }, vec0, [], by decide +kernel⟩,
    ⟨3, 0, .none, ctx3 { busy with flight := [{ vec0 with ring := 1, vec := 1, out := 1 }] },
      { vec0 with ring := 1, vec := 1, out := 1 }, [], by decide +kernel⟩,
    ⟨3, 0, ctx3 { busy with offer := some iDrain, plane0 := { st := .sums, sums := [(65, (7, 3))] } }, iDrain, kT,
      by unfold OfferedTo; decide +kernel⟩,
    ⟨3, ctx3 { busy with offer := some iMvp }, iMvp, kT, by unfold OfferedTo; decide +kernel⟩⟩

theorem test_witness_TileFaultRecorded :
    (∃ (s : State) (p : Nat) (c : Nat) (mvp : Bool) (code : Nat) (loc1 : Nat) (loc2 : Nat) (k : Task), c < 2 ∧
      (s.ctx p c).task = some k ∧ ∃ q, q ≠ p) ∧
    (∃ (p : Fin 832) (stage : Fin 3) (s : State), (s.ctx p.val 0).active = true ∧ (s.ctx p.val 1).task = none ∧
      (s.tile p.val).holds 0 stage.val = true) ∧
    (∃ (p : Fin 832) (c : Fin 2) (s : State) (i : ArrInstr) (k : Task) (l2 : Nat), (s.ctx p.val c.val).offered 1 = some i ∧
      (s.ctx p.val c.val).task = some k ∧ (s.ctx p.val c.val).load = none ∧ rangeCheck (s.tile p.val) k i = some (4, l2)) :=
  ⟨⟨{ up with tiles := [(3, { c1 := { busy with flight := [vec0], fCount := 0xFFFF } })] }, 3, 1, false, 4, 2, 9, kT,
    by decide +kernel, by decide +kernel, 4, by decide +kernel⟩,
    ⟨3, 0, ctx3 { busy with load := some { ins := iLoad } }, by decide +kernel⟩,
    ⟨3, 0, ctx3 { busy with offer := some { iLoad with base1 := 640 } }, { iLoad with base1 := 640 }, kT, 0, by decide +kernel⟩⟩

theorem test_witness_TvuScalarRows :
    (∃ (p : Fin 832) (s : State) (g : Prog) (w : Word32), Issues s p.val g w ∧ tiOpc w = 0x10) ∧
    (∃ (p : Fin 832) (s : State) (g : Prog) (w : Word32), Issues s p.val g w ∧ tiOpc w = 0x11) ∧
    (∃ (p : Fin 832) (s : State) (g : Prog) (w : Word32), Issues s p.val g w ∧ tiOpc w = 0x12) ∧
    (∃ (p : Fin 832) (s : State) (g : Prog) (w : Word32), Issues s p.val g w ∧ tiOpc w = 0x13) ∧
    (∃ (t : Tile) (c : Nat) (i : Nat) (j : Nat) (v : Word32), j < 32 ∧ j ≠ i) ∧
    (∃ (p : Fin 832) (s : State) (g : Prog) (w : Word32), Issues s p.val g w ∧ tiOpc w = 0x00) :=
  ⟨⟨3, tvu (tw 0x10 [(21, 5, 20), (0, 16, 0x8001)]), prog0, tw 0x10 [(21, 5, 20), (0, 16, 0x8001)],
    by unfold Issues; decide +kernel⟩,
    ⟨3, tvu (tw 0x11 [(21, 5, 22), (0, 16, 0x8001)]), prog0, tw 0x11 [(21, 5, 22), (0, 16, 0x8001)],
      by unfold Issues; decide +kernel⟩,
    ⟨3, tvu (tw 0x12 [(21, 5, 1), (0, 16, 0xFFFF)]), prog0, tw 0x12 [(21, 5, 1), (0, 16, 0xFFFF)],
      by unfold Issues; decide +kernel⟩,
    ⟨3, tvu (tw 0x13 [(21, 5, 21), (16, 5, 1)]), prog0, tw 0x13 [(21, 5, 21), (16, 5, 1)], by unfold Issues; decide +kernel⟩,
    ⟨{}, 0, 3, 31, 5, by decide +kernel⟩,
    ⟨3, tvu (tw 0 []), prog0, tw 0 [], by unfold Issues; decide +kernel⟩⟩

theorem test_witness_RegisterRotation :
    (∃ (t : Tile) (n : Nat), n < 16) ∧
    (∃ (t : Tile) (i : Nat), i < 16) ∧
    (∃ (p : Fin 832) (s : State) (g : Prog) (w : Word32), Issues s p.val g w ∧ tiOpc w = 0x0B) ∧
    (∃ (p : Fin 832) (s : State) (g : Prog) (w : Word32), Issues s p.val g w ∧ tiOpc w = 0x03 ∧
      (s.tile p.val).pcOk g.ctx (tiTarget w) = true) ∧
    (∃ (t : Tile) (g : Prog), t.prog = some g) ∧
    (∃ (t : Tile) (i : Nat) (ty : Bool) (v : List Word32), i < 16) :=
  ⟨⟨{}, 15, by decide +kernel⟩,
    ⟨{ rrb := 15 }, 15, by decide +kernel⟩,
    ⟨3, tvu (tw 0x0B []), prog0, tw 0x0B [], by unfold Issues; decide +kernel⟩,
    ⟨3, tvu (tw 3 [(24, 2, 1), (0, 12, 15)]), prog0, tw 3 [(24, 2, 1), (0, 12, 15)], by unfold Issues; decide +kernel⟩,
    ⟨{ prog := some { prog0 with slots := 1, rotate := true } }, { prog0 with slots := 1, rotate := true }, by decide +kernel⟩,
    ⟨{ rrb := 15 }, 15, true, [], by decide +kernel⟩⟩

theorem test_witness_TvuControlRows :
    (∃ (p : Fin 832) (s : State) (g : Prog) (w : Word32), Issues s p.val g w ∧ tiOpc w = 0x02 ∧
      (s.tile p.val).pcOk g.ctx (tiTarget w) = true) ∧
    (∃ (p : Fin 832) (s : State) (g : Prog) (w : Word32), Issues s p.val g w ∧ tiOpc w = 0x03 ∧
      (s.tile p.val).pcOk g.ctx (tiTarget w) = true) ∧
    (∃ (p : Fin 832) (s : State) (g : Prog) (w : Word32), Issues s p.val g w ∧ tiOpc w = 0x04 ∧ tiImm16 w ≠ 0 ∧
      (s.tile p.val).repBad g.ctx = false) ∧
    (∃ (p : Fin 832) (s : State) (g : Prog) (w : Word32), Issues s p.val g w ∧ tiOpc w = 0x01) ∧
    (∃ (t : Tile) (g : Prog) (d : Option Nat) (r : Bool),
      t.prog = some { g with slots := 1, dest := d, rotate := r, rep := none }) ∧
    (∃ (t : Tile) (g : Prog) (n : Nat) (k : Nat), t.prog = some { g with rep := some (n + 2, k) }) ∧
    (∃ (t : Tile) (g : Prog) (k : Nat), t.prog = some { g with rep := some (1, k) }) :=
  ⟨⟨3, tvu (tw 2 [(21, 3, 4), (0, 12, 15)]), prog0, tw 2 [(21, 3, 4), (0, 12, 15)], by unfold Issues; decide +kernel⟩,
    ⟨3, tvu (tw 3 [(24, 2, 1), (0, 12, 15)]), prog0, tw 3 [(24, 2, 1), (0, 12, 15)], by unfold Issues; decide +kernel⟩,
    ⟨3, { up with tiles := [(3, { imem := [(4, tw 4 [(0, 16, 1)]), (5, vec 0x20 0 0)], prog := some prog0, c0 := busy })] },
      prog0, tw 4 [(0, 16, 1)], by unfold Issues; decide +kernel⟩,
    ⟨3, tvu (tw 1 []), prog0, tw 1 [], by unfold Issues; decide +kernel⟩,
    ⟨{ prog := some { prog0 with slots := 1, dest := some 9, rotate := true } }, prog0, some 9, true, by decide +kernel⟩,
    ⟨{ prog := some { prog0 with rep := some (2, 0) } }, prog0, 0, 0, by decide +kernel⟩,
    ⟨{ prog := some { prog0 with rep := some (1, 7) } }, prog0, 7, by decide +kernel⟩⟩

theorem test_witness_TvuEvents :
    (∃ (p : Fin 832) (s : State) (c : Nat) (a : Nat), (s.tile p.val).prog = none ∧ (s.tile p.val).nextStart = some (c, a)) ∧
    (∃ (p : Fin 832) (s : State) (g : Prog) (w : Word32), Issues s p.val g w ∧ tiOpc w = 0x06) ∧
    (∃ (p : Fin 832) (s : State) (g : Prog) (w : Word32), Issues s p.val g w ∧ tiOpc w = 0x05 ∧ g.inHandler = true) ∧
    (∃ (p : Fin 832) (s : State) (g : Prog) (w : Word32), Issues s p.val g w ∧ tiOpc w = 0x07 ∧
      ((s.tile p.val).sreg g.ctx (tiSR w)).toNat ≤ ((s.tile p.val).ctx g.ctx).outcnt) ∧
    (∃ (p : Fin 832) (s : State) (g : Prog) (w : Word32), Issues s p.val g w ∧ tiOpc w = 0x07 ∧
      ((s.tile p.val).ctx g.ctx).outcnt < ((s.tile p.val).sreg g.ctx (tiSR w)).toNat ∧
      ((s.tile p.val).ctx g.ctx).deadlocked ((s.tile p.val).sreg g.ctx (tiSR w)).toNat = false) ∧
    (∃ (p : Fin 832) (s : State) (g : Prog) (n : Nat), (s.tile p.val).prog = some g ∧ g.waitv = some n ∧
      n ≤ ((s.tile p.val).ctx g.ctx).outcnt ∧ g.eventPending ((s.tile p.val).ctx g.ctx) = false) ∧
    (∃ (p : Fin 832) (s : State) (g : Prog) (w : Word32), Issues s p.val g w ∧ tiOpc w = 0x08 ∧
      ((s.tile p.val).ctx g.ctx).relcnt + tiImm16 w ≤ ((s.tile p.val).ctx g.ctx).outcnt) ∧
    (∃ (p : Fin 832) (s : State) (g : Prog), (s.tile p.val).prog = some g ∧ g.boundary = true ∧
      ((s.tile p.val).ctx g.ctx).faultNote = true) ∧
    (∃ (p : Fin 832) (s : State) (g : Prog), (s.tile p.val).prog = some g ∧ g.boundary = true ∧
      ((s.tile p.val).ctx g.ctx).faultNote = false ∧ ((s.tile p.val).ctx g.ctx).cancelNote = true) ∧
    (∃ (p : Fin 832) (s : State) (g : Prog), (s.tile p.val).prog = some g ∧ g.boundary = true ∧
      ((s.tile p.val).ctx g.ctx).faultNote = false ∧ ((s.tile p.val).ctx g.ctx).cancelNote = false ∧
      g.pacePending ((s.tile p.val).ctx g.ctx) = true) :=
  ⟨⟨3, { up with tiles := [(3, { starts := [(0, 4)], sregs := [(3, 1)], c0 := busy })] }, 0, 4, by decide +kernel⟩,
    ⟨3, tvu (tw 6 [(16, 5, 1), (0, 12, 6)]), prog0, tw 6 [(16, 5, 1), (0, 12, 6)], by unfold Issues; decide +kernel⟩,
    ⟨3, tvuAt (tw 5 []) { prog0 with inHandler := true, saved := 9 } busy {}, { prog0 with inHandler := true, saved := 9 },
      tw 5 [], by unfold Issues; decide +kernel⟩,
    ⟨3, tvuAt (tw 7 []) prog0 { busy with outcnt := 4 } { sregs := [(0, 4)] }, prog0, tw 7 [],
      by unfold Issues; decide +kernel⟩,
    ⟨3, tvuAt (tw 7 []) prog0 { busy with outcnt := 3 } { sregs := [(0, 4)] }, prog0, tw 7 [],
      by unfold Issues; decide +kernel⟩,
    ⟨3, tvuAt (tw 7 []) { prog0 with waitv := some 4 } { busy with outcnt := 4 } {}, { prog0 with waitv := some 4 }, 4,
      by decide +kernel⟩,
    ⟨3, tvuAt (tw 8 [(0, 16, 2)]) prog0 { busy with outcnt := 2 } {}, prog0, tw 8 [(0, 16, 2)],
      by unfold Issues; decide +kernel⟩,
    ⟨3, tvuAt 0 { prog0 with evOn := true, handler := 6 } { busy with faultNote := true } {},
      { prog0 with evOn := true, handler := 6 }, by decide +kernel⟩,
    ⟨3, tvuAt 0 { prog0 with evOn := true, handler := 6 } { busy with cancelNote := true } {},
      { prog0 with evOn := true, handler := 6 }, by decide +kernel⟩,
    ⟨3, tvuAt 0 { prog0 with evOn := true, handler := 6 } { busy with plarr := 1 } {},
      { prog0 with evOn := true, handler := 6 }, by decide +kernel⟩⟩

theorem test_witness_TvuFlagRows :
    (∃ (p : Fin 832) (s : State) (g : Prog) (w : Word32), Issues s p.val g w ∧ tiOpc w = 0x09 ∧ g.ctx < 2) ∧
    (∃ (p : Fin 832) (s : State) (g : Prog) (w : Word32), Issues s p.val g w ∧ tiOpc w = 0x0A ∧ g.ctx < 2) :=
  ⟨⟨3, tvu (tw 9 [(21, 5, 22)]), prog0, tw 9 [(21, 5, 22)], by unfold Issues; decide +kernel⟩,
    ⟨3, tvu (tw 0x0A [(21, 5, 2), (0, 4, 8)]), prog0, tw 0x0A [(21, 5, 2), (0, 4, 8)], by unfold Issues; decide +kernel⟩⟩

theorem test_witness_TvuMemoryRows :
    (∃ (p : Fin 832) (s : State) (g : Prog) (w : Word32), Issues s p.val g w ∧ tiOpc w = 0x18 ∧
      AccessOk (s.tile p.val) g.ctx w false = true) ∧
    (∃ (p : Fin 832) (s : State) (g : Prog) (w : Word32), Issues s p.val g w ∧ tiOpc w = 0x19 ∧
      ((s.tile p.val).vreg (tiVD w)).length = 64 ∧ AccessOk (s.tile p.val) g.ctx w true = true) ∧
    (∃ (p : Fin 832) (s : State) (g : Prog) (w : Word32), Issues s p.val g w ∧ tiOpc w = 0x1A ∧
      arSpace ((s.tile p.val).sreg g.ctx (tiAR w)) < 2 ∧
      (s.tile p.val).bankOk g.ctx (arSpace ((s.tile p.val).sreg g.ctx (tiAR w))) ((s.tile p.val).memAddr g.ctx w 0).1 4 = true) ∧
    (∃ (p : Fin 832) (s : State) (g : Prog) (w : Word32), Issues s p.val g w ∧ tiOpc w = 0x18 ∧
      AccessOk (s.tile p.val) g.ctx w false = false) ∧
    (∃ (p : Fin 832) (s : State) (g : Prog) (w : Word32), Issues s p.val g w ∧ tiOpc w = 0x19 ∧
      AccessOk (s.tile p.val) g.ctx w true = false) ∧
    (∃ (p : Fin 832) (s : State) (g : Prog) (w : Word32), Issues s p.val g w ∧ tiOpc w = 0x1A ∧
      (2 ≤ arSpace ((s.tile p.val).sreg g.ctx (tiAR w)) ∨
      (s.tile p.val).bankOk g.ctx (arSpace ((s.tile p.val).sreg g.ctx (tiAR w))) ((s.tile p.val).memAddr g.ctx w 0).1 4 =
        false)) :=
  ⟨⟨3, tvu (tw 0x18 [(21, 5, 3), (12, 4, 1)]), prog0, tw 0x18 [(21, 5, 3), (12, 4, 1)], by unfold Issues; decide +kernel⟩,
    ⟨3, tvu (tw 0x19 [(21, 5, 1), (12, 4, 7)]), prog0, tw 0x19 [(21, 5, 1), (12, 4, 7)], by unfold Issues; decide +kernel⟩,
    ⟨3, tvu (tw 0x1A []), prog0, tw 0x1A [], by unfold Issues; decide +kernel⟩,
    ⟨3, tvuAt (tw 0x18 [(21, 5, 3), (18, 3, 2), (12, 4, 7)]) prog0 busy { sregs := [(2, 4600)] }, prog0, tw 0x18 [(21, 5, 3),
      (18, 3, 2), (12, 4, 7)], by unfold Issues; decide +kernel⟩,
    ⟨3, tvuAt (tw 0x19 [(21, 5, 3), (18, 3, 2), (12, 4, 7)]) prog0 busy { sregs := [(2, 4600)] }, prog0, tw 0x19 [(21, 5, 3),
      (18, 3, 2), (12, 4, 7)], by unfold Issues; decide +kernel⟩,
    ⟨3, tvuAt (tw 0x1A [(18, 3, 2)]) prog0 busy { sregs := [(2, 0xFFFFFFFF)] }, prog0, tw 0x1A [(18, 3, 2)],
      by unfold Issues; decide +kernel⟩⟩

theorem test_witness_TvuVectorRows :
    (∃ (p : Fin 832) (s : State) (g : Prog) (w : Word32), Issues s p.val g w ∧ tiOpc w = 0x20) ∧
    (∃ (p : Fin 832) (s : State) (g : Prog) (w : Word32), Issues s p.val g w ∧ tiOpc w = 0x21) ∧
    (∃ (p : Fin 832) (s : State) (g : Prog) (w : Word32), Issues s p.val g w ∧ tiOpc w = 0x22) ∧
    (∃ (p : Fin 832) (s : State) (g : Prog) (w : Word32), Issues s p.val g w ∧ tiOpc w = 0x23) ∧
    (∃ (p : Fin 832) (s : State) (g : Prog) (w : Word32), Issues s p.val g w ∧ tiOpc w = 0x24) ∧
    (∃ (p : Fin 832) (s : State) (g : Prog) (w : Word32), Issues s p.val g w ∧ tiOpc w = 0x25) ∧
    (∃ (p : Fin 832) (s : State) (g : Prog) (w : Word32), Issues s p.val g w ∧ tiOpc w = 0x27) ∧
    (∃ (p : Fin 832) (s : State) (g : Prog) (w : Word32), Issues s p.val g w ∧ tiOpc w = 0x26) ∧
    (∃ (p : Fin 832) (s : State) (g : Prog) (w : Word32), Issues s p.val g w ∧
    let a (j : Nat) := laneOf (s.tile p.val) (tiVA w) j
    tiOpc w = 0x28) ∧
    (∃ (p : Fin 832) (s : State) (g : Prog) (w : Word32), Issues s p.val g w ∧
    let a (j : Nat) := laneOf (s.tile p.val) (tiVA w) j
    tiOpc w = 0x29) ∧
    (∃ (p : Fin 832) (s : State) (g : Prog) (w : Word32), Issues s p.val g w ∧
    let a (j : Nat) := laneOf (s.tile p.val) (tiVA w) j
    tiOpc w = 0x2A) ∧
    (∃ (p : Fin 832) (s : State) (g : Prog) (w : Word32), Issues s p.val g w ∧
    let a (j : Nat) := laneOf (s.tile p.val) (tiVA w) j
    tiOpc w = 0x30) ∧
    (∃ (p : Fin 832) (s : State) (g : Prog) (w : Word32), Issues s p.val g w ∧
    let a (j : Nat) := laneOf (s.tile p.val) (tiVA w) j
    tiOpc w = 0x31) ∧
    (∃ (p : Fin 832) (s : State) (g : Prog) (w : Word32), Issues s p.val g w ∧
    let a (j : Nat) := laneOf (s.tile p.val) (tiVA w) j
    tiOpc w = 0x32) ∧
    (∃ (p : Fin 832) (s : State) (g : Prog) (w : Word32), Issues s p.val g w ∧
    let a (j : Nat) := laneOf (s.tile p.val) (tiVA w) j
    tiOpc w = 0x33) ∧
    (∃ (p : Fin 832) (s : State) (g : Prog) (w : Word32), Issues s p.val g w ∧
    let a (j : Nat) := laneOf (s.tile p.val) (tiVA w) j
    tiOpc w = 0x38) ∧
    (∃ (p : Fin 832) (s : State) (g : Prog) (w : Word32), Issues s p.val g w ∧
    let a (j : Nat) := laneOf (s.tile p.val) (tiVA w) j
    tiOpc w = 0x39) ∧
    (∃ (p : Fin 832) (s : State) (g : Prog) (w : Word32), Issues s p.val g w ∧
    let a (j : Nat) := laneOf (s.tile p.val) (tiVA w) j
    tiOpc w = 0x3A) ∧
    (∃ (p : Fin 832) (s : State) (g : Prog) (w : Word32), Issues s p.val g w ∧
    let a (j : Nat) := laneOf (s.tile p.val) (tiVA w) j
    tiOpc w = 0x3B) ∧
    (∃ (p : Fin 832) (s : State) (g : Prog) (w : Word32), Issues s p.val g w ∧
    let a (j : Nat) := laneOf (s.tile p.val) (tiVA w) j
    tiOpc w = 0x3C) ∧
    (∃ (p : Fin 832) (s : State) (g : Prog) (w : Word32), Issues s p.val g w ∧
    let a (j : Nat) := laneOf (s.tile p.val) (tiVA w) j
    tiOpc w = 0x3D) :=
  ⟨⟨3, tvu (vec 0x20 0 0), prog0, vec 0x20 0 0, by unfold Issues; decide +kernel⟩,
    ⟨3, tvu (vec 0x21 0 1), prog0, vec 0x21 0 1, by unfold Issues; decide +kernel⟩,
    ⟨3, tvu (vec 0x22 0 0), prog0, vec 0x22 0 0, by unfold Issues; decide +kernel⟩,
    ⟨3, tvu (vec 0x23 0 1), prog0, vec 0x23 0 1, by unfold Issues; decide +kernel⟩,
    ⟨3, tvu (vec 0x24 0 0), prog0, vec 0x24 0 0, by unfold Issues; decide +kernel⟩,
    ⟨3, tvu (vec 0x25 0 1), prog0, vec 0x25 0 1, by unfold Issues; decide +kernel⟩,
    ⟨3, tvu (vec 0x27 0 0), prog0, vec 0x27 0 0, by unfold Issues; decide +kernel⟩,
    ⟨3, tvu (tw 0x26 [(16, 5, 1), (11, 5, 2), (0, 8, 5)]), prog0, tw 0x26 [(16, 5, 1), (11, 5, 2), (0, 8, 5)],
      by unfold Issues; decide +kernel⟩,
    ⟨3, tvu (un 0x28 1 0), prog0, un 0x28 1 0, by unfold Issues; decide +kernel⟩,
    ⟨3, tvu (un 0x29 3 1), prog0, un 0x29 3 1, by unfold Issues; decide +kernel⟩,
    ⟨3, tvu (un 0x2A 31 1), prog0, un 0x2A 31 1, by unfold Issues; decide +kernel⟩,
    ⟨3, tvu (un 0x30 0 0), prog0, un 0x30 0 0, by unfold Issues; decide +kernel⟩,
    ⟨3, tvu (un 0x31 0 0), prog0, un 0x31 0 0, by unfold Issues; decide +kernel⟩,
    ⟨3, tvu (un 0x32 0 0), prog0, un 0x32 0 0, by unfold Issues; decide +kernel⟩,
    ⟨3, tvu (un 0x33 0 0), prog0, un 0x33 0 0, by unfold Issues; decide +kernel⟩,
    ⟨3, tvu (un 0x38 0 0), prog0, un 0x38 0 0, by unfold Issues; decide +kernel⟩,
    ⟨3, tvu (un 0x39 0 0), prog0, un 0x39 0 0, by unfold Issues; decide +kernel⟩,
    ⟨3, tvu (un 0x3A 0 0), prog0, un 0x3A 0 0, by unfold Issues; decide +kernel⟩,
    ⟨3, tvu (vec 0x3B 63 0), prog0, vec 0x3B 63 0, by unfold Issues; decide +kernel⟩,
    ⟨3, tvu (un 0x3C 63 0), prog0, un 0x3C 63 0, by unfold Issues; decide +kernel⟩,
    ⟨3, tvu (un 0x3D 0 0), prog0, un 0x3D 0 0, by unfold Issues; decide +kernel⟩⟩

theorem test_witness_TvuIllegalWords :
    ∃ (p : Nat) (s : State) (g : Prog) (opc : Nat) (f : Nat → Word32 → Tile → TvuOut), (s.tile p).prog = some g ∧
      g.waitv = none ∧ (g.boundary && g.eventPending ((s.tile p).ctx g.ctx)) = false ∧ ((s.tile p).pcOk g.ctx g.pc = false ∨
      tvuOpcOk (tiOpc (tget 0 (s.tile p).imem g.pc)) = false ∨ (tiOpc (tget 0 (s.tile p).imem g.pc) = opc ∧
      tvuLegal (tget 0 (s.tile p).imem g.pc) = false)) ∧ ∃ q, q ≠ p :=
  ⟨3, tvuAt (tw 0x3F []) prog0 busy {}, prog0, 0x10, fun _ _ _ => .error 3, by decide +kernel, by decide +kernel,
    by decide +kernel, by decide +kernel, 4, by decide +kernel⟩

theorem test_witness_TaskStarts :
    ∃ (l : Fin 768) (s : State) (p : Nat) (k : Task), s.placed l.val = some p ∧
      firstStart (s.tile p) [] (tget [] s.startQ l.val) = some k ∧ s.startBarred p = false ∧ s.tileInReset l.val = false ∧
      tget false s.sec.wtileClr l.val = false :=
  ⟨3, { up with startQ := [(3, [kT])] }, 3, kT, by decide +kernel⟩

theorem test_witness_SequencersAndEnds :
    (∃ (p : Fin 832) (c : Fin 2) (s : State) (k : Task) (e : List Word),
    let x := s.ctx p.val c.val
    StandsAt s p.val c.val 0 k e ∧ ∃ i, arrayInstr k x.idx x.pos x.insNum e = some i) ∧
    (∃ (p : Fin 832) (c : Fin 2) (s : State) (k : Task) (e : List Word),
    let x := s.ctx p.val c.val
    StandsAt s p.val c.val 0 k e ∧ arrayInstr k x.idx x.pos x.insNum e = none) ∧
    (∃ (p : Fin 832) (c : Fin 2) (s : State) (k : Task) (e : List Word), StandsAt s p.val c.val 1 k e) ∧
    (∃ (p : Fin 832) (c : Fin 2) (s : State) (k : Task) (e : List Word),
    let x := s.ctx p.val c.val
    StandsAt s p.val c.val 2 k e ∧ ((x.groups.any (fun h => decide (h.1 = sqArg e / 64))) = true)) ∧
    (∃ (p : Fin 832) (c : Fin 2) (s : State) (k : Task) (e : List Word),
    let x := s.ctx p.val c.val
    StandsAt s p.val c.val 3 k e ∧ ix x.idx (sqLevel e) + 1 < k.cnt (sqLevel e)) ∧
    (∃ (p : Fin 832) (c : Fin 2) (s : State) (k : Task) (e : List Word),
    let x := s.ctx p.val c.val
    StandsAt s p.val c.val 3 k e ∧ k.cnt (sqLevel e) ≤ ix x.idx (sqLevel e) + 1) ∧
    (∃ (p : Fin 832) (c : Fin 2) (s : State) (k : Task) (e : List Word), StandsAt s p.val c.val 4 k e ∧
      (s.tile p.val).waitHolds c.val e = true) ∧
    (∃ (p : Fin 832) (c : Fin 2) (s : State) (k : Task) (e : List Word), StandsAt s p.val c.val 4 k e ∧
      (s.tile p.val).waitHolds c.val e = false) ∧
    (∃ (p : Fin 832) (c : Fin 2) (s : State) (k : Task) (e : List Word),
    let x := s.ctx p.val c.val
    x.active = true ∧ x.waiting = true ∧
      (s.tile p.val).waitHolds c.val (tget [] (s.tile p.val).seq (128 * c.val + x.pos)) = true) ∧
    (∃ (p : Fin 832) (c : Fin 2) (s : State) (k : Task) (e : List Word), StandsAt s p.val c.val 5 k e) ∧
    (∃ (p : Fin 832) (c : Fin 2) (s : State) (k : Task) (e : LgEntry), (s.tile p.val).finished c.val = true ∧
      (s.ctx p.val c.val).task = some k ∧ (s.ctx p.val c.val).lost = false ∧ s.entry k.entry = some e ∧ e.state ≠ .complete) ∧
    (∃ (p : Fin 832) (c : Fin 2) (s : State), (s.ctx p.val c.val).cancelAsked = true ∧ (s.ctx p.val c.val).active = true) ∧
    (∃ (p : Fin 832) (c : Fin 2) (s : State) (k : Task) (e : LgEntry), (s.ctx p.val c.val).task = some k ∧
      (s.ctx p.val c.val).ending = some .cancel ∧ (s.ctx p.val c.val).lost = false ∧ (s.ctx p.val c.val).xfers = [] ∧
      (s.ctx p.val c.val).owed = 0 ∧ (s.ctx p.val c.val).flight = [] ∧ (s.tile p.val).tvuDone c.val = true ∧
      s.entry k.entry = some e ∧ e.state ≠ .complete) :=
  ⟨⟨3, 0, (seqOf busy [0, iStrm.w0, rowsOf]), kT, [0, iStrm.w0, rowsOf], by unfold StandsAt; decide +kernel,
    { iStrm with entry := 0, num := 0, kCount := 0 }, by decide +kernel⟩,
    ⟨3, 0, (seqOf { busy with idx := [1, 0, 0, 0, 0, 0] } [packF [(5, 1, 1)], iStrm.w0, rowsOf]), kT, [packF [(5, 1, 1)],
      iStrm.w0, rowsOf], by unfold StandsAt; decide +kernel⟩,
    ⟨3, 0, (seqOf busy (sq 1 [(20, 12, 4)])), kT, sq 1 [(20, 12, 4)], by unfold StandsAt; decide +kernel⟩,
    ⟨3, 0, (seqOf { busy with groups := [(0, [])] } (sq 2 [(20, 12, 63)])), kT, sq 2 [(20, 12, 63)],
      by unfold StandsAt; decide +kernel⟩,
    ⟨3, 0, (seqOf { task := some kT2 } (sq 3 [(6, 3, 3), (9, 8, 1)])), kT2, sq 3 [(6, 3, 3), (9, 8, 1)],
      by unfold StandsAt; decide +kernel⟩,
    ⟨3, 0, (seqOf { task := some kT2, idx := [0, 0, 0, 1, 0, 0] } (sq 3 [(6, 3, 3), (9, 8, 1)])), kT2, sq 3 [(6, 3, 3), (9, 8,
      1)], by unfold StandsAt; decide +kernel⟩,
    ⟨3, 0, (seqOf busy (sq 4 [(20, 12, 5)])), kT, sq 4 [(20, 12, 5)], by unfold StandsAt; decide +kernel⟩,
    ⟨3, 0, (seqOf { busy with xfers := [outst 0 dRead 64] } (sq 4 [])), kT, sq 4 [], by unfold StandsAt; decide +kernel⟩,
    ⟨3, 0, (seqOf { busy with waiting := true } (sq 4 [])), kT, sq 4 [], by decide +kernel⟩,
    ⟨3, 0, (seqOf busy (sq 5 [])), kT, sq 5 [], by unfold StandsAt; decide +kernel⟩,
    ⟨3, 0, (withLg [(5, eTask)] (ctx3 { busy with atEnd := true })), kT, eTask, by decide +kernel⟩,
    ⟨3, 0, (ctx3 { busy with cancelAsked := true, offer := some iLoad }), by decide +kernel⟩,
    ⟨3, 0, (withLg [(5, eTask)] (ctx3 { busy with ending := some .cancel })), kT, eTask, by decide +kernel⟩⟩

theorem test_witness_RowTransfers :
    (∃ (p : Fin 832) (c : Fin 2) (s : State) (k : Task) (xi : Nat) (d : List Word) (v : Ixs),
    let xa := firstXa s p.val c.val d v
    let n := firstLen s p.val c.val d v
    OffersXfer s p.val c.val 0 false k xi d v ∧ locOk k d v = true ∧ 0 ≤ xa ∧ inMemSpace xa.toNat = true) ∧
    (∃ (p : Fin 832) (c : Fin 2) (s : State) (k : Task) (xi : Nat) (d : List Word) (v : Ixs),
    let xa := firstXa s p.val c.val d v
    let n := firstLen s p.val c.val d v
    OffersXfer s p.val c.val 1 false k xi d v ∧ locOk k d v = true ∧ 0 ≤ xa ∧ inMemSpace xa.toNat = true) ∧
    (∃ (p : Fin 832) (c : Fin 2) (s : State) (k : Task) (xi : Nat) (d : List Word) (v : Ixs),
    let xa := firstXa s p.val c.val d v
    let n := firstLen s p.val c.val d v
    OffersXfer s p.val c.val 4 false k xi d v ∧ locOk k d v = true ∧ (s.port (xf d 1 43 40)).state = 3 ∧
      s.wlane (xf d 1 43 40) = k.world ∧ 0 ≤ xa ∧ xa < 2 ^ 40) ∧
    (∃ (p : Fin 832) (c : Fin 2) (s : State) (k : Task) (xi : Nat) (d : List Word) (v : Ixs),
    let n := firstLen s p.val c.val d v
    ∃ i ∈ [(Instr.read p c, 0), (Instr.write p (c, .none), 1), (Instr.peer p (c, .none), 4)],
      OffersXfer s p.val c.val i.2 false k xi d v ∧ locOk k d v = false) ∧
    (∃ (p : Fin 832) (c : Fin 2) (s : State) (k : Task) (xi : Nat) (d : List Word) (v : Ixs),
    let xa := firstXa s p.val c.val d v
    let n := firstLen s p.val c.val d v
    ∃ i ∈ [(Instr.read p c, 0), (Instr.write p (c, .none), 1)], OffersXfer s p.val c.val i.2 false k xi d v ∧
      locOk k d v = true ∧ (xa < 0 ∨ inMemSpace xa.toNat = false)) ∧
    (∃ (p : Fin 832) (c : Fin 2) (s : State) (k : Task) (xi : Nat) (d : List Word) (v : Ixs),
    let x := s.ctx p.val c.val
    let n := firstLen s p.val c.val d v
    ∃ i ∈ [(Instr.read p c, 0, false), (Instr.write p (c, .none), 1, false), (Instr.remote p (c, .none), 2, false),
      (Instr.paceOrigin p (c, .none), 3, false), (Instr.paceForward p (c, .none), 3, true), (Instr.peer p (c, .none), 4,
      false), (Instr.ctake p c, 5, false), (Instr.grant p c, 6, false), (Instr.pring p c, 7, false)],
      OffersAny s p.val c.val i.2.1 i.2.2 k xi d ∧ (∀ f ∈ x.xfers, f.kind = 2 ∨ f.kind = 3 → f.credited = true) ∧
      ((xfGuard d = true ∧ (x.xreg (xfXr d)).exh = true) ∨ (xfNext d = true ∧ nextTile k x.idx = none))) ∧
    (∃ (p : Fin 832) (c : Fin 2) (id : Nat) (s : State) (k : Task) (f : Transfer) (r : MemResp),
      (s.ctx p.val c.val).active = true ∧ (s.ctx p.val c.val).task = some k ∧ (s.ctx p.val c.val).xferAt id = some f ∧
      s.firstResp p.val (.xfer p.val c.val id) = some r ∧ f.kind ≤ 1 ∧ r.status = 0 ∧
    let g := { f with done := f.done + f.nextReq.2.2, inFlight := 0 }
    f.total ≤ g.done) ∧
    (∃ (p : Fin 832) (c : Fin 2) (id : Nat) (s : State) (k : Task) (f : Transfer) (r : MemResp),
      (s.ctx p.val c.val).active = true ∧ (s.ctx p.val c.val).task = some k ∧ (s.ctx p.val c.val).xferAt id = some f ∧
      s.firstResp p.val (.xfer p.val c.val id) = some r ∧ f.kind ≤ 1 ∧ r.status = 0 ∧
    let g := { f with done := f.done + f.nextReq.2.2, inFlight := 0 }
    g.done < f.total ∧ 0 ≤ g.nextReq.1 ∧ inMemSpace g.nextReq.1.toNat = true) ∧
    (∃ (p : Fin 832) (c : Fin 2) (id : Nat) (s : State) (f : Transfer) (r : MemResp), (s.ctx p.val c.val).active = true ∧
      (s.ctx p.val c.val).xferAt id = some f ∧ s.firstResp p.val (.xfer p.val c.val id) = some r ∧ r.status ≠ 0) ∧
    (∃ (p : Fin 832) (c : Fin 2) (id : Nat) (ctr : Nat) (s : State) (f : Transfer) (val : Option Nat),
      (s.ctx p.val c.val).active = true ∧ (s.ctx p.val c.val).xferAt id = some f ∧
      s.firstResp p.val (.xfer p.val c.val id) = none ∧
      s.msgs.find? (isTaken p.val) = some (.taken ctr p.val c.val id false val)) ∧
    (∃ (p : Fin 832) (c : Fin 2) (id : Nat) (ctr : Nat) (s : State) (f : Transfer) (val : Option Nat),
      (s.ctx p.val c.val).active = true ∧ (s.ctx p.val c.val).xferAt id = some f ∧
      s.firstResp p.val (.xfer p.val c.val id) = none ∧
      s.msgs.find? (isTaken p.val) = some (.taken ctr p.val c.val id true val) ∧ val = none) ∧
    (∃ (p : Fin 832) (c : Fin 2) (id : Nat) (s : State), (s.ctx p.val c.val).active = true ∧ ∃ f,
      (s.ctx p.val c.val).xferAt id = some f ∧ f.inFlight ≠ 0 ∧ s.rimWaits f = false) ∧
    (∃ (p : Fin 832) (c : Fin 2) (id : Nat) (s : State), (s.ctx p.val c.val).active = true ∧ ∃ k, ∃ g,
      (s.ctx p.val c.val).xferAt id = none ∧ (s.ctx p.val c.val).task = some k ∧ (s.ctx p.val c.val).fetching = some g ∧
      s.rimInReset ((k.f 7 39 0 + 4096 * g) / 0x1400000000) = false) ∧
    (∃ (p : Fin 832) (c : Fin 2) (g : Nat) (s : State) (k : Task) (r : MemResp), (s.ctx p.val c.val).active = true ∧
      (s.ctx p.val c.val).task = some k ∧ k.pring = none ∧ s.firstResp p.val (.desc p.val c.val g) = some r ∧ r.status = 0 ∧
      Config.groupCheck r.data = k.groups.getD g 0) ∧
    (∃ (p : Fin 832) (c : Fin 2) (g : Nat) (xi : Nat) (s : State) (k : Task), (s.ctx p.val c.val).active = true ∧
      (s.ctx p.val c.val).task = some k ∧ s.firstResp p.val (.desc p.val c.val g) = none ∧
      (s.ctx p.val c.val).fetching = none ∧ (s.ctx p.val c.val).offerX = some xi ∧ xi / 64 = g ∧ 64 * g < k.nxfer ∧
      ((s.ctx p.val c.val).groups.any (fun h => decide (h.1 = g)) = false)) :=
  ⟨⟨3, 0, (ctx3 (offers dRead)), kT, 0, dRead, [0, 0, 0, 0, 0, 0], by unfold OffersXfer OffersAny; decide +kernel⟩,
    ⟨3, 0, (ctx3 (offers dWrite)), kT, 0, dWrite, [0, 0, 0, 0, 0, 0], by unfold OffersXfer OffersAny; decide +kernel⟩,
    ⟨3, 0, { ctx3 (offers dPeer) with ser := { ports := [(2, { state := 3 })] }, sec := { wlane := [(2, false)] } }, kT, 0,
      dPeer, [0, 0, 0, 0, 0, 0], by unfold OffersXfer OffersAny; decide +kernel⟩,
    ⟨3, 0, (ctx3 (offers (xd 0 0 4097 0 []))), kT, 0, (xd 0 0 4097 0 []), [0, 0, 0, 0, 0, 0], (Instr.read 3 0, 0),
      by decide +kernel, by unfold OffersXfer OffersAny; decide +kernel⟩,
    ⟨3, 0, (ctx3 (offers (xd 0 0 64 0xFFFFFFFFFF []))), kT, 0, (xd 0 0 64 0xFFFFFFFFFF []), [0, 0, 0, 0, 0, 0],
      (Instr.read 3 0, 0), by decide +kernel, by unfold OffersXfer OffersAny; decide +kernel⟩,
    ⟨3, 0, (ctx3 { offers (xd 0 0 64 0x1000 [(11, 1, 1)]) with xr := [(0, { exh := true })] }), kT, 0, (xd 0 0 64 0x1000 [(11,
      1, 1)]), [0, 0, 0, 0, 0, 0], (Instr.read 3 0, 0, false), by decide +kernel, by unfold OffersAny; decide +kernel⟩,
    ⟨3, 0, 0, { ctx3 { busy with xfers := [outst 0 dRead 64] } with mem := { resps := [resp3 0] } }, kT, outst 0 dRead 64,
      resp3 0, by decide +kernel⟩,
    ⟨3, 0, 0, { ctx3 { busy with xfers := [outst 0 (xd 0 0 5000 0x1000 []) 4096] } with mem := { resps := [resp3 0] } }, kT,
      outst 0 (xd 0 0 5000 0x1000 []) 4096, resp3 0, by decide +kernel⟩,
    ⟨3, 0, 0, { ctx3 { busy with xfers := [outst 0 dRead 64] } with mem := { resps := [resp3 4] } }, outst 0 dRead 64, resp3 4,
      by decide +kernel⟩,
    ⟨3, 0, 0, 7, { ctx3 { busy with xfers := [outst 5 dTake 1] } with msgs := [.taken 7 3 0 0 false (some 5)] },
      outst 5 dTake 1, some 5, by decide +kernel⟩,
    ⟨3, 0, 0, 7, { ctx3 { busy with xfers := [outst 5 dTake 1] } with msgs := [.taken 7 3 0 0 true none] }, outst 5 dTake 1,
      none, by decide +kernel⟩,
    ⟨3, 0, 0, (ctx3 { busy with xfers := [outst 0 dRead 64] }), by decide +kernel, outst 0 dRead 64, by decide +kernel⟩,
    ⟨3, 0, 0, (ctx3 { busy with fetching := some 0, owed := 1 }), by decide +kernel, kT, 0, by decide +kernel⟩,
    ⟨3, 0, 0,
      { ctx3 { task := some { kT with groups := [Config.groupCheck (bytesOf 8 5), 0] }, fetching := some 0, owed := 1 } with
      mem := { resps := [{ src := .desc 3 0 0, write := false, status := 0, data := bytesOf 8 5 }] } },
    { kT with groups := [Config.groupCheck (bytesOf 8 5), 0] },
    { src := .desc 3 0 0, write := false, status := 0, data := bytesOf 8 5 }, rfl, rfl, rfl, rfl, rfl, rfl⟩,
    ⟨3, 0, 0, 0, (ctx3 { busy with offerX := some 0 }), kT, by decide +kernel⟩⟩

theorem test_witness_TileTransfersSend :
    (∃ (p : Fin 832) (c : Fin 2) (s : State) (k : Task) (f : Transfer) (credit : Nat) (first : Nat),
      (s.ctx p.val c.val).active = true ∧ (s.ctx p.val c.val).task = some k ∧ (s.ctx p.val c.val).readyRemote = some f ∧
      (s.ctx p.val c.val).xferAt f.id = some f ∧ (∀ g ∈ (s.ctx p.val c.val).xfers, g.id = f.id → g = f) ∧
      (s.ctx p.val c.val).link (xfKey f.desc) = some (credit, first) ∧ (s.placedAt (p.val / 52) (xf f.desc 1 9 0)).isSome) ∧
    (∃ (p : Fin 832) (c : Fin 2) (s : State) (k : Task) (xi : Nat) (d : List Word) (v : Ixs),
      OffersXfer s p.val c.val 2 false k xi d v ∧ (s.ctx p.val c.val).readyRemote = none ∧ xfKey d < 0xC000 ∧
      locOk k d v = true ∧
    let x := s.ctx p.val c.val
    ((x.uncredited 2 false (xfKey d)).isSome ∨ x.link (xfKey d) = none ∨ (∃ credit first, x.link (xfKey d) = some (credit,
      first) ∧ credit < xfLen d))) ∧
    (∃ (p : Fin 832) (c : Fin 2) (s : State) (k : Task) (xi : Nat) (d : List Word) (v : Ixs),
      OffersXfer s p.val c.val 2 false k xi d v ∧ (s.ctx p.val c.val).readyRemote = none ∧ xfKey d < 0xC000 ∧
      locOk k d v = true ∧
    let x := s.ctx p.val c.val
    ∃ credit, ∃ first, x.uncredited 2 false (xfKey d) = none ∧ x.link (xfKey d) = some (credit, first) ∧ xfLen d ≤ credit ∧
      (s.placedAt (p.val / 52) (xf d 1 9 0)).isSome) ∧
    (∃ (p : Fin 832) (c : Fin 2) (s : State) (k : Task) (f : Transfer) (r : Ring) (credit : Nat) (first : Nat),
      (s.ctx p.val c.val).active = true ∧ (s.ctx p.val c.val).task = some k ∧ (s.ctx p.val c.val).ring = some r ∧
      (s.ctx p.val c.val).link r.key = some (credit, first) ∧ (s.ctx p.val c.val).xferAt f.id = some f ∧
      (s.placedAt (p.val / 52) r.succ).isSome ∧ (s.ctx p.val c.val).uncredited 3 false 0 = some f ∧
      occupancy (xfLen f.desc) ≤ first ∧ occupancy (xfLen f.desc) ≤ credit) ∧
    (∃ (p : Fin 832) (c : Fin 2) (s : State) (k : Task) (f : Transfer) (r : Ring) (credit : Nat) (first : Nat),
      (s.ctx p.val c.val).active = true ∧ (s.ctx p.val c.val).task = some k ∧ (s.ctx p.val c.val).ring = some r ∧
      (s.ctx p.val c.val).link r.key = some (credit, first) ∧ (s.ctx p.val c.val).xferAt f.id = some f ∧
      (s.placedAt (p.val / 52) r.succ).isSome ∧ ∃ b, (s.ctx p.val c.val).uncredited 3 true 0 = some f ∧
      ((s.ctx p.val c.val).blocks.find? (fun b => decide (b.fwd = 0)) = some b) ∧ b.hops ≠ 0 ∧ occupancy b.len ≤ first ∧
      occupancy b.len ≤ credit) ∧
    (∃ (p : Fin 832) (c : Fin 2) (s : State) (k : Task) (xi : Nat) (d : List Word) (v : Ixs),
    let x := s.ctx p.val c.val
    ∃ i ∈ [(Instr.paceOrigin p (c, .none), false), (Instr.paceForward p (c, .none), true)], ∃ r,
      OffersXfer s p.val c.val 3 i.2 k xi d v ∧ x.uncredited 3 i.2 0 = none ∧ x.ring = some r ∧ x.link r.key = none ∧
      r.key < 0xC000 ∧ (i.2 = false → locOk k d v = true) ∧ (i.2 = true → ∀ b,
      x.blocks.find? (fun b => decide (b.fwd = 0)) = some b → b.hops ≠ 0)) ∧
    (∃ (p : Fin 832) (c : Fin 2) (s : State) (k : Task) (xi : Nat) (d : List Word) (v : Ixs),
    let x := s.ctx p.val c.val
    OffersXfer s p.val c.val 5 false k xi d v ∧ x.usesXr (xfXr d) = false) ∧
    (∃ (p : Fin 832) (c : Fin 2) (s : State) (k : Task) (xi : Nat) (d : List Word) (v : Ixs),
    let x := s.ctx p.val c.val
    OffersXfer s p.val c.val 6 false k xi d v ∧ x.grants.length < (if (s.tile p.val).split then 4 else 8) ∧
      locOk k d v = true ∧ (if xfKey d < 0xC000 then (s.placedAt (p.val / 52) (xf d 1 9 0)).isSome else xfKey d % 0x400 < 384)) ∧
    (∃ (p : Fin 832) (c : Fin 2) (s : State) (k : Task) (xi : Nat) (d : List Word) (v : Ixs),
      OffersXfer s p.val c.val 7 false k xi d v) ∧
    (∃ (p : Nat) (s : State) (m : Msg) (k : Token),
      tokensFor s.fresh (s.msgPort (p / 52) m).1 (s.msgPort (p / 52) m).2 (p / 52) (p % 52) m.cls m.tokens (.msg m) = [k] ∧
      s.refuses (p / 52) k = true) ∧
    (∃ (p : Nat) (s : State) (m : Msg) (k : Token),
      tokensFor s.fresh (s.msgPort (p / 52) m).1 (s.msgPort (p / 52) m).2 (p / 52) (p % 52) m.cls m.tokens (.msg m) = [k] ∧
      s.refuses (p / 52) k = false ∧ Still s ∧ (∀ d, d < 68 → (s.side d).rx0 = [] ∧ (s.side d).rx1 = []) ∧ k.dst = p / 52) ∧
    (∃ (p : Nat) (s : State) (m : Msg) (k : Token),
      tokensFor s.fresh (s.msgPort (p / 52) m).1 (s.msgPort (p / 52) m).2 (p / 52) (p % 52) m.cls m.tokens (.msg m) = [k] ∧
      s.refuses (p / 52) k = false ∧ Still s ∧ (∀ d, d < 68 → (s.side d).rx0 = [] ∧ (s.side d).rx1 = []) ∧ ∃ o,
      k.dst ≠ p / 52 ∧ o < 68 ∧ s.outDir (p / 52) k = some o ∧ s.canDrive o k = true ∧ ∃ e, e ≠ o) :=
  ⟨⟨3, 0, (ctx3 { busy with xfers := [outst 2 dRemote 0], links := [(100, 300, 512)] }), kT, outst 2 dRemote 0, 300, 512,
    by decide +kernel⟩,
    ⟨3, 0, (ctx3 (offers dRemote)), kT, 0, dRemote, [0, 0, 0, 0, 0, 0], by unfold OffersXfer OffersAny; decide +kernel,
      by decide +kernel, by decide +kernel, by decide +kernel, (.inr (.inl rfl))⟩,
    ⟨3, 0, (ctx3 { offers dRemote with links := [(100, 300, 512)] }), kT, 0, dRemote, [0, 0, 0, 0, 0, 0],
      by unfold OffersXfer OffersAny; decide +kernel, by decide +kernel, by decide +kernel, by decide +kernel, 300, 512,
      by decide +kernel⟩,
    ⟨3, 0, (ctx3 { busy with ring := some ring0, xfers := [outst 3 dPace 0], links := [(200, 256, 512)] }), kT,
      outst 3 dPace 0, ring0, 256, 512, by decide +kernel⟩,
    ⟨3, 0, (ctx3 { busy with ring := some ring0, xfers := [outst 3 dFwd 0], links := [(200, 256, 256)], blocks := [blk 1] }),
      kT, outst 3 dFwd 0, ring0, 256, 256, by decide +kernel, by decide +kernel, by decide +kernel, by decide +kernel,
      by decide +kernel, by decide +kernel, blk 1, by decide +kernel⟩,
    ⟨3, 0, (ctx3 { offers dPace with ring := some ring0 }), kT, 0, dPace, [0, 0, 0, 0, 0, 0], (Instr.paceOrigin 3 (0, .none),
      false), by decide +kernel, ring0, by unfold OffersXfer OffersAny; decide +kernel⟩,
    ⟨3, 0, (ctx3 (offers dTake)), kT, 0, dTake, [0, 0, 0, 0, 0, 0], by unfold OffersXfer OffersAny; decide +kernel⟩,
    ⟨3, 0, (ctx3 (offers dGrant)), kT, 0, dGrant, [0, 0, 0, 0, 0, 0], by unfold OffersXfer OffersAny; decide +kernel⟩,
    ⟨3, 0, (ctx3 (offers dRing)), kT, 0, dRing, [0, 0, 0, 0, 0, 0], by unfold OffersXfer OffersAny; decide +kernel⟩,
    ⟨3, up, (.remote 9 0 1 0xD065 0 [1, 2, 3] false (.queue 0 1)), tokBad, rfl, by decide +kernel⟩,
    ⟨3, upR, (.remote 3 0 1 0xD065 0 [1, 2, 3] false (.queue 0 1)), tokHere, rfl, by unfold Still; decide +kernel⟩,
    ⟨3, upR, msgFar, tokFar, rfl, by decide +kernel, by unfold Still; decide +kernel, by decide +kernel, 0, by decide +kernel,
      by decide +kernel, by decide +kernel, by decide +kernel, 5, by decide +kernel⟩⟩

theorem test_witness_TileArrivals :
    (∃ (p : Fin 832) (c : Fin 2) (s : State) (l : Nat) (code : Nat) (key : Nat) (n : Nat) (w : World) (src : Option (Nat × Nat
        × Nat × Nat)), s.logicalOf p.val = some l ∧ s.msgs.find? (toTile l) = some (.grant l code key n w src) ∧
      ctxOfCode code = c.val ∧
    let x := s.ctx p.val c.val
    x.link key = none ∧ x.links.length < 8) ∧
    (∃ (p : Fin 832) (c : Fin 2) (s : State) (l : Nat) (code : Nat) (key : Nat) (n : Nat) (w : World) (src : Option (Nat × Nat
        × Nat × Nat)), s.logicalOf p.val = some l ∧ s.msgs.find? (toTile l) = some (.grant l code key n w src) ∧
      ctxOfCode code = c.val ∧
    let x := s.ctx p.val c.val
    ∃ credit, ∃ first, x.link key = some (credit, first)) ∧
    (∃ (p : Fin 832) (c : Fin 2) (s : State) (l : Nat) (code : Nat) (key : Nat) (n : Nat) (w : World) (src : Option (Nat × Nat
        × Nat × Nat)), s.logicalOf p.val = some l ∧ s.msgs.find? (toTile l) = some (.grant l code key n w src) ∧
      ctxOfCode code = c.val ∧
    let x := s.ctx p.val c.val
    x.link key = none ∧ 8 ≤ x.links.length) ∧
    (∃ (p : Fin 832) (c : Fin 2) (s : State) (l : Nat) (code : Nat) (rec : Nat) (key : Nat) (doff : Nat) (data : List Byte)
        (last : Bool) (src : Sender), s.logicalOf p.val = some l ∧
      s.msgs.find? (toTile l) = some (.remote l code rec key doff data last src) ∧ ctxOfCode code = c.val ∧
    let x := s.ctx p.val c.val
    ∃ k, ∃ g, x.active = true ∧ x.task = some k ∧ k.ctxCode = code ∧ rec < k.nstr ∧ bits (k.sb rec) 1 0 = 3 ∧
      (x.grants.find? (fun g => g.takes rec key doff data.length) = some g)) ∧
    (∃ (p : Fin 832) (c : Fin 2) (s : State) (l : Nat) (code : Nat) (rec : Nat) (key : Nat) (doff : Nat) (data : List Byte)
        (last : Bool) (src : Sender), s.logicalOf p.val = some l ∧
      s.msgs.find? (toTile l) = some (.remote l code rec key doff data last src) ∧ ctxOfCode code = c.val ∧
    let x := s.ctx p.val c.val
    (x.active = false ∨ (∃ k, x.task = some k ∧ (k.ctxCode ≠ code ∨ k.nstr ≤ rec ∨ bits (k.sb rec) 1 0 ≠ 3)) ∨
      x.grants.find? (fun g => g.takes rec key doff data.length) = none)) ∧
    (∃ (p : Fin 832) (c : Fin 2) (s : State) (l : Nat) (code : Nat) (key : Nat) (rot : Nat) (hops : Nat) (num : Nat) (q : Nat)
        (qc : Nat) (id : Nat) (data : List Byte) (k : Task) (r : Ring), s.logicalOf p.val = some l ∧
      s.msgs.find? (toTile l) = some (.block l code key rot hops num data q qc id) ∧ ctxOfCode code = c.val ∧
    let x := s.ctx p.val c.val
    x.active = true ∧ x.task = some k ∧ x.ring = some r ∧ k.ctxCode = code ∧ r.key = key ∧
      (if x.lastRot = 0 then rot = 1 else rot = x.lastRot ∨ rot = x.lastRot + 1)) ∧
    (∃ (p : Fin 832) (c : Fin 2) (s : State) (l : Nat) (code : Nat) (key : Nat) (rot : Nat) (hops : Nat) (num : Nat) (q : Nat)
        (qc : Nat) (id : Nat) (data : List Byte) (k : Task) (r : Ring), s.logicalOf p.val = some l ∧
      s.msgs.find? (toTile l) = some (.block l code key rot hops num data q qc id) ∧ ctxOfCode code = c.val ∧
    let x := s.ctx p.val c.val
    x.active = true ∧ x.task = some k ∧ x.ring = some r ∧ k.ctxCode = code ∧ r.key = key ∧
      (¬ (if x.lastRot = 0 then rot = 1 else rot = x.lastRot ∨ rot = x.lastRot + 1))) ∧
    (∃ (p : Fin 832) (c : Fin 2) (s : State) (l : Nat) (code : Nat) (key : Nat) (rot : Nat) (hops : Nat) (num : Nat) (q : Nat)
        (qc : Nat) (id : Nat) (data : List Byte) (k : Task) (r : Ring), s.logicalOf p.val = some l ∧
      s.msgs.find? (toTile l) = some (.block l code key rot hops num data q qc id) ∧ ctxOfCode code = c.val ∧
    let x := s.ctx p.val c.val
    (x.active = false ∨ x.ring = none ∨ (x.task = some k ∧ k.ctxCode ≠ code) ∨ (x.ring = some r ∧ r.key ≠ key))) ∧
    (∃ (p : Fin 832) (c : Fin 2) (s : State) (k : Task) (r : Ring) (b : PlBlock), (s.ctx p.val c.val).active = true ∧
      (s.ctx p.val c.val).task = some k ∧ (s.ctx p.val c.val).ring = some r ∧
      ((s.ctx p.val c.val).blocks.find? (fun b => decide (b.start + b.len ≤ (s.ctx p.val c.val).readPt) && (b.hops = 0 || b.fwd
        = 2)) = some b) ∧ (s.placedAt (p.val / 52) r.pred).isSome) ∧
    (∃ (ctr : Fin 4096) (s : State) (p : Nat) (c : Nat) (id : Nat) (w : World),
      (s.msgs.find? (fun m => match m with | .take k _ _ _ _ => k = ctr.val | _ => false) = some (.take ctr.val p c id w)) ∧
      s.wcbank (ctr.val / 256) ≠ w) ∧
    (∃ (ctr : Fin 4096) (s : State) (p : Nat) (c : Nat) (id : Nat) (w : World),
      (s.msgs.find? (fun m => match m with | .take k _ _ _ _ => k = ctr.val | _ => false) = some (.take ctr.val p c id w)) ∧
    let first := s.ctrs.pool.find? (fun e => decide (e.1 = ctr.val))
    s.wcbank (ctr.val / 256) = w ∧ ∃ e, first = some e) ∧
    (∃ (ctr : Fin 4096) (s : State) (p : Nat) (c : Nat) (id : Nat) (w : World),
      (s.msgs.find? (fun m => match m with | .take k _ _ _ _ => k = ctr.val | _ => false) = some (.take ctr.val p c id w)) ∧
    let ct := tget ({} : Counter) s.ctrs.ctrs ctr.val
    let first := s.ctrs.pool.find? (fun e => decide (e.1 = ctr.val))
    s.wcbank (ctr.val / 256) = w ∧ first = none ∧ ct.value.toNat < ct.limit.toNat) ∧
    (∃ (ctr : Fin 4096) (s : State) (p : Nat) (c : Nat) (id : Nat) (w : World),
      (s.msgs.find? (fun m => match m with | .take k _ _ _ _ => k = ctr.val | _ => false) = some (.take ctr.val p c id w)) ∧
    let ct := tget ({} : Counter) s.ctrs.ctrs ctr.val
    let first := s.ctrs.pool.find? (fun e => decide (e.1 = ctr.val))
    s.wcbank (ctr.val / 256) = w ∧ first = none ∧ ct.limit.toNat ≤ ct.value.toNat) :=
  ⟨⟨3, 0, { ctx3 busy with msgs := [.grant 3 0 100 64 false none] }, 3, 0, 100, 64, false, none, by decide +kernel⟩,
    ⟨3, 0, { ctx3 { busy with links := [(100, 1, 64)] } with msgs := [.grant 3 0 100 64 false none] }, 3, 0, 100, 64, false,
      none, by decide +kernel, by decide +kernel, by decide +kernel, 1, 64, by decide +kernel⟩,
    ⟨3, 0,
      { ctx3 { busy with links := (List.range 8).map (fun i => (i, 1, 64)) } with msgs := [.grant 3 0 100 64 false none] }, 3,
      0, 100, 64, false, none, by decide +kernel⟩,
    ⟨3, 0, { ctx3 { busy with grants := [grant1] } with msgs := [remoteMsg] }, 3, 0, 1, 0xD065, 0, [1, 2, 3, 4, 5, 6, 7, 8],
      false, .queue 0 1, by decide +kernel, by decide +kernel, by decide +kernel, kT, grant1, by decide +kernel⟩,
    ⟨3, 0, { ctx3 busy with msgs := [remoteMsg] }, 3, 0, 1, 0xD065, 0, [1, 2, 3, 4, 5, 6, 7, 8], false, .queue 0 1,
      by decide +kernel⟩,
    ⟨3, 0, { ctx3 { busy with ring := some ring0 } with msgs := [.block 3 0 200 1 2 7 [9, 8] 4 0 0] }, 3, 0, 200, 1, 2, 7, 4,
      0, 0, [9, 8], kT, ring0, by decide +kernel⟩,
    ⟨3, 0, { ctx3 { busy with ring := some ring0, lastRot := 5 } with msgs := [.block 3 0 200 1 2 7 [9, 8] 4 0 0] }, 3, 0, 200,
      1, 2, 7, 4, 0, 0, [9, 8], kT, ring0, by decide +kernel⟩,
    ⟨3, 0, { ctx3 busy with msgs := [.block 3 0 200 1 2 7 [9, 8] 4 0 0] }, 3, 0, 200, 1, 2, 7, 4, 0, 0, [9, 8], kT, ring0,
      by decide +kernel⟩,
    ⟨3, 0, (ctx3 { busy with ring := some ring0, blocks := [blk 0], readPt := 100 }), kT, ring0, blk 0, by decide +kernel⟩,
    ⟨7, { up with msgs := [.take 7 3 0 0 false] }, 3, 0, 0, false, by decide +kernel⟩,
    ⟨7, { up with msgs := [.take 7 3 0 0 true], ctrs := { pool := [(7, 5)] } }, 3, 0, 0, true, by decide +kernel,
      by decide +kernel, (7, 5), by decide +kernel⟩,
    ⟨7, { up with msgs := [.take 7 3 0 0 true], ctrs := { ctrs := [(7, { limit := 1 })] } }, 3, 0, 0, true, by decide +kernel⟩,
    ⟨7, { up with msgs := [.take 7 3 0 0 true], ctrs := { ctrs := [(7, { limit := 1, value := 1 })] } }, 3, 0, 0, true,
      by decide +kernel⟩⟩

theorem test_witness_ClocksAndBlockMemories :
    (∃ (r : Fin 128) (g : Fin 4) (on : Bool) (s : State), (s.region r.val).isOpen = true) ∧
    (∃ (r : Fin 128) (bm : Fin 256) (a : Option BmAccess) (b : Option BmAccess) (s : State), (s.region r.val).isOpen = true ∧
      (s.region r.val).bmTaken bm.val = false) ∧
    (∃ (m : BlockMem) (a : BmAccess), a.shape = 6 ∧ a.code = false ∧ a.addr < 1024 ∧ ∃ i, i < 1024) ∧
    (∃ (m : BlockMem) (a : BmAccess), a.shape = 6 ∧ a.code = false ∧ a.addr < 1024 ∧ ∃ g, a.clk = some g ∧ a.outReg = true) ∧
    (∃ (m : BlockMem) (a : BmAccess), a.shape = 6 ∧ a.code = false ∧ a.addr < 1024 ∧ (a.clk = none ∨ a.outReg = false)) ∧
    (∃ (code : Word → Byte), SecDed code ∧ ∃ (d : Word), ∃ i, i < 72) ∧
    (∃ (code : Word → Byte), SecDed code ∧ ∃ (d : Word), ∃ i, ∃ j, i < j ∧ j < 72) ∧
    (∃ (s : State) (k : Nat) (r : Nat) (e : Fin 4) (j : Nat) (nb : Nat), ((e = 0 ∧ nb + 1 = r ∧ r % 4 ≠ 0) ∨ (e = 1 ∧
      nb = r + 1 ∧ r % 4 ≠ 3) ∨ (e = 2 ∧ nb + 4 = r ∧ 4 ≤ r % 8) ∨ (e = 3 ∧ nb = r + 4 ∧ r % 8 < 4)) ∧
      (s.region nb).isOpen = true) ∧
    (∃ (s : State) (k : Nat) (r : Nat) (e : Fin 4) (j : Nat) (nb : Nat), ((e = 0 ∧ nb + 1 = r ∧ r % 4 ≠ 0) ∨ (e = 1 ∧
      nb = r + 1 ∧ r % 4 ≠ 3) ∨ (e = 2 ∧ nb + 4 = r ∧ 4 ≤ r % 8) ∨ (e = 3 ∧ nb = r + 4 ∧ r % 8 < 4)) ∧
      (s.region nb).isOpen = false) ∧
    (∃ (s : State), s.pending = []) ∧
    (∃ (s : State) (r : Fin 128) (g : Fin 4),
    let x := s.region r.val
    x.isOpen = true ∧ (tget ({} : ClockGen) x.gens g.val).run = true ∧ s.sourceRuns r.val g.val = true ∧ ∃ (i q : Nat),
      i < 150000 ∧ q < 2) ∧
    (∃ (s : State) (r : Fin 128) (g : Fin 4),
    let x := s.region r.val
    (x.isOpen = false ∨ (tget ({} : ClockGen) x.gens g.val).run = false ∨ s.sourceRuns r.val g.val = false)) ∧
    (∃ (s : State) (r : Fin 128) (key : Nat), (s.region r.val).isOpen = true ∧ key < 1200 ∧
    let x := s.region r.val
    let c := Config.hcConf x.hard key
    let h := x.hc key
    let reqIn := s.netOf r.val c.reqIn
    let ackIn := s.netOf r.val c.ackIn
    ∃ k, k ≠ key) ∧
    (∃ (s : State) (r : Fin 128) (key : Nat), (s.region r.val).isOpen = true ∧ key < 1200 ∧
    let x := s.region r.val
    let c := Config.hcConf x.hard key
    let h := x.hc key
    let reqIn := s.netOf r.val c.reqIn
    let ackIn := s.netOf r.val c.ackIn
    ∃ (i q : Nat), q < 2) :=
  ⟨⟨5, 3, true, region5 open5, by decide +kernel⟩,
    ⟨5, 255, some (row6 (some 9) 0), none, region5 open5, by decide +kernel⟩,
    ⟨{}, row6 (some 9) 0, by decide +kernel, by decide +kernel, by decide +kernel, 1023, by decide +kernel⟩,
    ⟨{}, { row6 (some 9) 0 with clk := some 2, outReg := true }, by decide +kernel, by decide +kernel, by decide +kernel, 2,
      by decide +kernel⟩,
    ⟨{}, row6 (some 9) 0, by decide +kernel⟩,
    ⟨hsiao, hsiao_secded, 9, 3, by decide⟩,
    ⟨hsiao, hsiao_secded, 9, 3, 71, by decide⟩,
    ⟨{ up with fab := { regions := [(0, open5)] } }, 3, 1, 0, 1535, 0, by decide +kernel⟩,
    ⟨region5 open5, 3, 1, 0, 1535, 0, by decide +kernel⟩,
    ⟨region5 open5, by decide +kernel⟩,
    ⟨region5 { open5 with gens := [(3, { run := true })] }, 5, 3, by decide +kernel, by decide +kernel, by decide +kernel,
      149999, 1, by decide +kernel⟩,
    ⟨region5 open5, 5, 3, by decide +kernel⟩,
    ⟨region5 open5, 5, 1199, by decide +kernel, by decide +kernel, 0, by decide +kernel⟩,
    ⟨region5 open5, 5, 1199, by decide +kernel, by decide +kernel, 7, 1, by decide +kernel⟩⟩

theorem test_witness_BlockMemoryReadBack :
    ∃ (b : BlockMem) (shape : Fin 7) (addr : Nat) (v : BitVec 72), addr < shapeDepth shape.val :=
  ⟨{}, 0, 65535, 1, by decide +kernel⟩

theorem test_witness_QueueControllers :
    (∃ (r : Fin 128) (q : Fin 48) (l : Fin 768) (x : BitVec 2) (d : Fin 16) (on : Bool) (clk : Option (Fin 4)) (s : State),
      (s.region r.val).isOpen = true ∧ (s.region r.val).clocked clk = true ∧ ((s.region r.val).qc q.val).mode = 1 ∧
      ((s.region r.val).qc q.val).fill = [] ∧ ((s.region r.val).qc q.val).credit = 0) ∧
    (∃ (r : Fin 128) (q : Fin 48) (w : Word) (clk : Option (Fin 4)) (s : State), (s.region r.val).isOpen = true ∧
      (s.region r.val).clocked clk = true ∧ ((s.region r.val).qc q.val).mode = 1 ∧
      ((s.region r.val).qc q.val).fill.length + 8 ≤ (((s.region r.val).qc q.val).depth.toNat + 1) * 32768) ∧
    (∃ (r : Fin 128) (q : Fin 48) (s : State) (l : Nat) (x : Nat) (n : Nat) (w : World) (p : Nat) (c : Nat) (xi : Nat) (id :
        Nat) (g : Grant), s.msgs.find? (toRegion r.val) = some (.grant l x (queueKey r.val q.val) n w (some (p, c, xi, id))) ∧
      ((s.ctx p c).grants.find? (fun (g : Grant) => decide (g.id = id) && decide (g.key = queueKey r.val q.val)) = some g) ∧
      s.queueTakes r.val q.val p c g = true) ∧
    (∃ (r : Fin 128) (q : Fin 48) (s : State) (l : Nat) (x : Nat) (n : Nat) (w : World) (p : Nat) (c : Nat) (xi : Nat) (id :
        Nat) (g : Grant), s.msgs.find? (toRegion r.val) = some (.grant l x (queueKey r.val q.val) n w (some (p, c, xi, id))) ∧
      ((s.ctx p c).grants.find? (fun (g : Grant) => decide (g.id = id) && decide (g.key = queueKey r.val q.val)) = some g) ∧
      s.queueTakes r.val q.val p c g = false ∧ (s.ctx p c).active = true) ∧
    (∃ (r : Fin 128) (q : Fin 48) (ue : Bool) (s : State) (g : QRange) (rest : List QRange) (b : Nat × Nat × Nat),
    let c := (s.region r.val).qc q.val
    let n := min 256 g.left
    (s.region r.val).isOpen = true ∧ c.ranges = g :: rest ∧ c.bound = some b ∧ n ≤ c.fill.length ∧
      nextServed (s.region r.val).served q.val (s.region r.val).readyQs = true) :=
  ⟨⟨5, 3, 767, 2, 15, true, none, qc5 { mode := 1 }, by decide +kernel⟩,
    ⟨5, 3, 0x0102, none, qc5 { mode := 1 }, by decide +kernel⟩,
    ⟨5, 3, grantTo 3, 0, 0, 300, false, 3, 0, 2, 0, gKey, by decide +kernel⟩,
    ⟨5, 3, grantTo 4, 0, 0, 300, false, 3, 0, 2, 0, gKey, by decide +kernel⟩,
    ⟨5, 3, false, qc5 { mode := 1, bound := some (3, 0, 1), fill := List.replicate 300 7, ranges := [range5] }, range5, [], (3,
      0, 1), by decide +kernel⟩⟩

theorem test_witness_RegionPortAndClose :
    (∃ (r : Fin 128) (write : Bool) (addr : BitVec 40) (len : Nat) (data : List Byte) (s : State),
      (s.region r.val).isOpen = true ∧ 0 < len ∧ len ≤ 4096 ∧ addr.toNat % 4096 + len ≤ 4096 ∧
      (s.region r.val).reqs.length < 4 ∧ inMemSpace addr.toNat = true) ∧
    (∃ (r : Fin 128) (write : Bool) (addr : BitVec 40) (len : Nat) (data : List Byte) (s : State),
      (s.region r.val).isOpen = true ∧ 0 < len ∧ len ≤ 4096 ∧ addr.toNat % 4096 + len ≤ 4096 ∧
      (s.region r.val).reqs.length < 4 ∧
    let x := s.region r.val
    inMemSpace addr.toNat = false ∧ x.reqs = [] ∧ x.closing = none ∧ x.givenBytes ≤ 2048) ∧
    (∃ (r : Fin 128) (taken : Nat) (s : State) (k : InTok) (rest : List InTok), (s.region r.val).arriving = k :: rest) ∧
    (∃ (c : Fin 64) (s : State) (i : Nat) (e : LgEntry), Running s c.val 0x13 i e ∧ s.rsvd i [(0, 63, 7)] = true) ∧
    (∃ (c : Fin 64) (s : State) (i : Nat) (e : LgEntry), Running s c.val 0x13 i e ∧
    let r := bits (s.pw i 0) 6 0
    s.rsvd i [(0, 63, 7)] = false ∧ (s.region r).state = 0) ∧
    (∃ (c : Fin 64) (s : State) (i : Nat) (e : LgEntry), Running s c.val 0x13 i e ∧
    let r := bits (s.pw i 0) 6 0
    s.rsvd i [(0, 63, 7)] = false ∧ (s.region r).state = 1) ∧
    (∃ (c : Fin 64) (s : State) (i : Nat) (e : LgEntry), Running s c.val 0x13 i e ∧
    let r := bits (s.pw i 0) 6 0
    s.rsvd i [(0, 63, 7)] = false ∧ (s.region r).state ≠ 0 ∧ (s.region r).state ≠ 1) ∧
    (∃ (r : Fin 128) (s : State) (i : Nat) (e : LgEntry), (s.region r.val).closing = some (.command i) ∧
      (s.region r.val).reqs = [] ∧ s.entry i = some e ∧ e.state ≠ .complete) ∧
    (∃ (r : Fin 128) (s : State), ((s.region r.val).closing = some .weevil ∨ (s.region r.val).closing = some .reset) ∧
      (s.region r.val).reqs = []) ∧
    (∃ (r : Fin 128) (s : State), (s.region r.val).reqs ≠ []) :=
  ⟨⟨5, true, 0xF00, 256, [], region5 open5, by decide +kernel⟩,
    ⟨5, false, 0xFFFFFFFF00, 256, [], region5 open5, by decide +kernel⟩,
    ⟨5, 1, region5 { open5 with arriving := [tok5], inbound := List.replicate 225 word0 }, tok5, [], by decide +kernel⟩,
    ⟨1, cmd 0x13 [0x80], 5, eCmd 0x13 1, by unfold Running; decide +kernel⟩,
    ⟨1, cmd 0x13 [5] (region5 { open5 with qcs := [(3, { mode := 1, bound := some (3, 0, 1), fill := [7] })] }), 5,
      eCmd 0x13 1, by unfold Running; decide +kernel⟩,
    ⟨1, cmd 0x13 [5] (region5 {}), 5, eCmd 0x13 1, by unfold Running; decide +kernel⟩,
    ⟨1, cmd 0x13 [5] (region5 { open5 with state := 2, closing := some .reset }), 5, eCmd 0x13 1,
      by unfold Running; decide +kernel⟩,
    ⟨5, withLg [(5, eCmd 0x13 1)] (region5 { state := 2, closing := some (.command 5) }), 5, eCmd 0x13 1, by decide +kernel⟩,
    ⟨5, region5 { state := 2, closing := some .weevil }, by decide +kernel⟩,
    ⟨5, region5 { state := 2, closing := some .weevil, reqs := [{ tag := 0, write := false }] }, by decide +kernel⟩⟩

theorem test_witness_GpioPins :
    (∃ (m : Fin 2) (p : Fin 128) (v : Word) (s : State), s.up = true) ∧
    (∃ (r : Fin 128) (val : Word) (oe : Word) (s : State), (s.region r.val).isOpen = true ∧ ((s.region r.val).ioVal,
      (s.region r.val).ioOe) ≠ (val, oe)) ∧
    (∃ (m : Fin 2) (s : State) (r : Nat) (w0 : Word) (val : Word) (oe : Word),
      (s.fab.ioToks.find? (fun t => decide (t.1 = m.val)) = some (m.val, r, w0, val, oe))) :=
  ⟨⟨1, 1, packF [(0, 3, 1), (3, 2, 3)], pinAt bound5, by decide +kernel⟩,
    ⟨5, 2, 3, pinAt bound5, by decide +kernel⟩,
    ⟨1, { pinAt bound5 with fab := { (pinAt bound5).fab with ioToks := [(1, 5, 0, 2, 2)] } }, 5, 0, 2, 2, by decide +kernel⟩⟩

theorem test_witness_StoreAndLoads :
    (∃ (c : Fin 64) (ecc : List CodeWordError) (s : State) (i : Nat) (e : LgEntry), Running s c.val 0x10 i e ∧
      s.mem.resps = [] ∧
    let a := bits (s.pw i 0) 39 0
    let data := (s.paramsOf i).drop 8
    let sl := (a - slotBase 0) / slotSize
    let bad : Prop := s.rsvd i [(0, 63, 40)] = true ∨ a < slotBase 0 ∨ storeEnd ≤ a ∨ slotBase sl + slotSize < a + data.length
    bad) ∧
    (∃ (c : Fin 64) (ecc : List CodeWordError) (s : State) (i : Nat) (e : LgEntry), Running s c.val 0x10 i e ∧
      s.mem.resps = [] ∧
    let a := bits (s.pw i 0) 39 0
    let data := (s.paramsOf i).drop 8
    let sl := (a - slotBase 0) / slotSize
    let bad : Prop := s.rsvd i [(0, 63, 40)] = true ∨ a < slotBase 0 ∨ storeEnd ≤ a ∨ slotBase sl + slotSize < a + data.length
    let barred : Prop := e.world = false ∧ slotWorld sl = true
    ¬ bad ∧ barred) ∧
    (∃ (c : Fin 64) (ecc : List CodeWordError) (s : State) (i : Nat) (e : LgEntry), Running s c.val 0x10 i e ∧
      s.mem.resps = [] ∧
    let a := bits (s.pw i 0) 39 0
    let data := (s.paramsOf i).drop 8
    let sl := (a - slotBase 0) / slotSize
    let bad : Prop := s.rsvd i [(0, 63, 40)] = true ∨ a < slotBase 0 ∨ storeEnd ≤ a ∨ slotBase sl + slotSize < a + data.length
    let barred : Prop := e.world = false ∧ slotWorld sl = true
    let locked : Prop := (s.slot sl).busy = true ∨ (sl = 0 ∧ s.ldr.prot = true)
    ¬ bad ∧ ¬ barred ∧ locked) ∧
    (∃ (c : Fin 64) (ecc : List CodeWordError) (s : State) (i : Nat) (e : LgEntry), Running s c.val 0x10 i e ∧
      s.mem.resps = [] ∧
    let a := bits (s.pw i 0) 39 0
    let data := (s.paramsOf i).drop 8
    let sl := (a - slotBase 0) / slotSize
    let bad : Prop := s.rsvd i [(0, 63, 40)] = true ∨ a < slotBase 0 ∨ storeEnd ≤ a ∨ slotBase sl + slotSize < a + data.length
    let barred : Prop := e.world = false ∧ slotWorld sl = true
    let locked : Prop := (s.slot sl).busy = true ∨ (sl = 0 ∧ s.ldr.prot = true)
    ¬ bad ∧ ¬ barred ∧ ¬ locked ∧ s.memHeld a data.length = true) ∧
    (∃ (c : Fin 64) (ecc : List CodeWordError) (s : State) (i : Nat) (e : LgEntry), Running s c.val 0x10 i e ∧
      s.mem.resps = [] ∧
    let a := bits (s.pw i 0) 39 0
    let data := (s.paramsOf i).drop 8
    let sl := (a - slotBase 0) / slotSize
    let bad : Prop := s.rsvd i [(0, 63, 40)] = true ∨ a < slotBase 0 ∨ storeEnd ≤ a ∨ slotBase sl + slotSize < a + data.length
    let barred : Prop := e.world = false ∧ slotWorld sl = true
    let locked : Prop := (s.slot sl).busy = true ∨ (sl = 0 ∧ s.ldr.prot = true)
    ¬ bad ∧ ¬ barred ∧ ¬ locked ∧ s.memHeld a data.length = false) ∧
    (∃ (c : Fin 64) (env : LoadEnv) (s : State) (i : Nat) (sl : Nat) (e : LgEntry), s.loadNext c.val 0x11 = some (i, e) ∧
      s.entry i = some e ∧ e.state ≠ .complete ∧ slotOfBase (bits (s.pw i 0) 39 0) = some sl ∧ bits (s.pw i 0) 63 40 = 0 ∧
      bits (s.pw i 1) 63 40 = 0) ∧
    (∃ (c : Fin 64) (env : LoadEnv) (s : State) (i : Nat) (sl : Nat) (e : LgEntry), s.loadNext c.val 0x12 = some (i, e) ∧
      s.entry i = some e ∧ e.state ≠ .complete ∧ slotOfBase (bits (s.pw i 0) 39 0) = some sl ∧ bits (s.pw i 0) 63 40 = 0 ∧
      bits (s.pw i 1) 63 40 = 0 ∧ bits (s.pw i 2) 63 7 = 0) ∧
    (∃ (r : Fin 128) (s : State) (j : LoadJob) (e : LgEntry), (s.region r.val).closing = some .load ∧
      (s.region r.val).reqs = [] ∧ s.retraining = false ∧ s.ldr.job = some j ∧ j.at_ = r.val ∧ j.full = false ∧
      s.entry j.entry = some e ∧ e.state ≠ .complete ∧
    let sc := s.scanJob j (fun _ => true)
    sc.fail = none ∧ j.golden = none) :=
  ⟨⟨1, [], cmd 0x10 [BitVec.ofNat 64 (slotBase 0 - 8), 77], 5, eCmd 0x10 2, by unfold Running; decide +kernel⟩,
    ⟨1, [], cmdW false 0x10 [BitVec.ofNat 64 (slotBase 1), 77], 5, { eCmd 0x10 2 with world := false },
      by unfold Running; decide +kernel⟩,
    ⟨1, [], cmd 0x10 [BitVec.ofNat 64 (slotBase 1), 77] { up with ldr := { slots := [(1, { busy := true })] } }, 5,
      eCmd 0x10 2, by unfold Running; decide +kernel⟩,
    ⟨1, [], cmd 0x10 [BitVec.ofNat 64 (slotBase 1),
      77] { up with mem := { chans := (List.range 80).map (fun c => (c, { state := 2 })) } }, 5, eCmd 0x10 2,
      by unfold Running; decide +kernel⟩,
    ⟨1, [], cmd 0x10 [BitVec.ofNat 64 (slotBase 1), 77], 5, eCmd 0x10 2, by unfold Running; decide +kernel⟩,
    ⟨1, env0, { cmd 0x11 [BitVec.ofNat 64 (slotBase 1), 3332] with ldr := { waiting := [5] } }, 5, 1, eCmd 0x11 2,
      by decide +kernel⟩,
    ⟨1, env0, { cmd 0x12 [BitVec.ofNat 64 (slotBase 1), 3332, 5] with ldr := { waiting := [5] } }, 5, 1, eCmd 0x12 3,
      by decide +kernel⟩,
    ⟨5, cmd 0x12 [BitVec.ofNat 64 (slotBase 1), 3332, 5] (loading5 5), load5 5, eCmd 0x12 3, by decide +kernel⟩⟩

theorem test_witness_WeevilScrubbing :
    (∃ (n : Fin 16) (res : List EccResult) (crc : Option Word32) (s : State),
    let w := s.weevil n.val
    wvEn w.used = true ∧ s.dieState n.val ≠ 3 ∧ w.region.toNat ∈ s.wvRegions n.val w.used ∧ .uncorrectable ∉ res.take 8 ∧
      w.pos + 1 < 112564) ∧
    (∃ (n : Fin 16) (res : List EccResult) (crc : Option Word32) (s : State),
    let w := s.weevil n.val
    let x := s.region (8 * n.val + w.region.toNat)
    wvEn w.used = true ∧ s.dieState n.val ≠ 3 ∧ w.region.toNat ∈ s.wvRegions n.val w.used ∧ .uncorrectable ∉ res.take 8 ∧
      112564 ≤ w.pos + 1 ∧ crc.getD x.schk = x.schk) ∧
    (∃ (n : Fin 16) (res : List EccResult) (crc : Option Word32) (s : State),
    let w := s.weevil n.val
    wvEn w.used = true ∧ s.dieState n.val ≠ 3 ∧ w.region.toNat ∈ s.wvRegions n.val w.used ∧ ∃ k,
      ((res.take 8).findIdx? (fun e => decide (e = EccResult.uncorrectable)) = some k) ∧ s.keel.events.length < 16384) ∧
    (∃ (n : Fin 16) (s : State) (m : Nat), s.dieState n.val ≠ 3 ∧ s.wvSuccessor n.val = some m ∧
    let w := s.weevil m
    (w.readOne = true ∨ wvEn w.master = false ∨ s.wvRegions m w.master = [])) ∧
    (∃ (n : Fin 16) (s : State) (m : Nat), s.dieState n.val ≠ 3 ∧ s.wvSuccessor n.val = some m ∧
    let w := s.weevil m
    w.readOne = false ∧ wvEn w.master = true ∧ s.wvRegions m w.master ≠ []) :=
  ⟨⟨2, [.corrected], none, weevil2 { master := wvOn, copies := [wvOn, wvOn, wvOn], pos := 112562 }, by decide +kernel⟩,
    ⟨2, [.corrected], none, weevil2 { master := wvOn, copies := [wvOn, wvOn, wvOn], pos := 112563 }, by decide +kernel⟩,
    ⟨2, [.corrected, .uncorrectable], none, weevil2 { master := wvOn, copies := [wvOn, wvOn, wvOn] }, by decide +kernel,
      by decide +kernel, by decide +kernel, 1, by decide +kernel⟩,
    ⟨2, weevil2 {}, 3, by decide +kernel⟩,
    ⟨2, { up with weevils := [(3, { master := wvOn, copies := [wvOn, wvOn, wvOn] })], fab := { regions := [(24, open5)] } }, 3,
      by decide +kernel⟩⟩

theorem test_witness_WeevilControl :
    ∃ (n : Fin 16) (v : Word) (w : World) (s : State), s.up = true :=
  ⟨2, 0xFFFFFFFFFFFFFFFF, true, weevil2 {}, by decide +kernel⟩

theorem test_witness_MemoryRequests :
    (∃ (m : Fin 2) (port : Fin 40) (s : State) (r : MemReq),
      (s.mem.net.find? (fun r => decide (s.portOf r.write r.addr = (m.val, port.val)) || decide (s.homePort r.addr = (m.val,
      port.val))) = some r) ∧
    let e := s.mrtE (blockIx r.addr)
    s.reqCheck r ≠ 0) ∧
    (∃ (m : Fin 2) (port : Fin 40) (s : State) (r : MemReq),
      (s.mem.net.find? (fun r => decide (s.portOf r.write r.addr = (m.val, port.val)) || decide (s.homePort r.addr = (m.val,
      port.val))) = some r) ∧
    let e := s.mrtE (blockIx r.addr)
    let hs := s.partsOf r s.mem.nextId false (homeSpot e)
    let ms := if e.mirror then s.partsOf r s.mem.nextId true (mirrorSpot e) else []
    let sound (xs : List (Nat × Part)) : Prop := xs ≠ [] ∧ ∀ x ∈ xs, s.devFailed (devOf x.1) = false
    s.reqCheck r = 0 ∧ ∃ (xs : List (Nat × Part)) (fwd : List (Nat × Part)), ((sound hs ∧ xs = hs ∧ ((r.write = true ∧
      sound ms ∧ fwd = ms) ∨ (¬ (r.write = true ∧ sound ms) ∧ fwd = []))) ∨ (¬ sound hs ∧ sound ms ∧ xs = ms ∧ fwd = [])) ∧
      (∀ x ∈ xs, s.hasRoom x.1 = true)) ∧
    (∃ (m : Fin 2) (port : Fin 40) (s : State) (r : MemReq),
      (s.mem.net.find? (fun r => decide (s.portOf r.write r.addr = (m.val, port.val)) || decide (s.homePort r.addr = (m.val,
      port.val))) = some r) ∧
    let e := s.mrtE (blockIx r.addr)
    let hs := s.partsOf r s.mem.nextId false (homeSpot e)
    let ms := if e.mirror then s.partsOf r s.mem.nextId true (mirrorSpot e) else []
    let sound (xs : List (Nat × Part)) : Prop := xs ≠ [] ∧ ∀ x ∈ xs, s.devFailed (devOf x.1) = false
    s.reqCheck r = 0 ∧ ¬ sound hs ∧ ¬ sound ms) ∧
    (∃ (m : Fin 2) (port : Fin 40) (s : State) (r : MemReq),
      (s.mem.net.find? (fun r => decide (s.portOf r.write r.addr = (m.val, port.val)) || decide (s.homePort r.addr = (m.val,
      port.val))) = some r) ∧
    let e := s.mrtE (blockIx r.addr)
    let hs := s.partsOf r s.mem.nextId false (homeSpot e)
    let ms := if e.mirror then s.partsOf r s.mem.nextId true (mirrorSpot e) else []
    let sound (xs : List (Nat × Part)) : Prop := xs ≠ [] ∧ ∀ x ∈ xs, s.devFailed (devOf x.1) = false
    s.reqCheck r = 0 ∧ ((sound hs ∧ ∃ x ∈ hs, s.hasRoom x.1 = false) ∨ (¬ sound hs ∧ sound ms ∧ ∃ x ∈ ms,
      s.hasRoom x.1 = false))) ∧
    (∃ (m : Fin 2) (c : Fin 40) (s : State) (x : Nat × Part),
    let ch := 40 * m.val + c.val
    (s.mem.copies.find? (fun x => decide (x.1 = ch)) = some x) ∧ ∃ (q : PendReq), tlook x.2.rid s.mem.pend = some q ∧
      q.req.write = true ∧ (s.devFailed (devOf ch) = true ∨ s.hasRoom ch = true)) ∧
    (∃ (m : Fin 2) (c : Fin 40) (s : State) (x : Nat × Part),
    let ch := 40 * m.val + c.val
    (s.mem.copies.find? (fun x => decide (x.1 = ch)) = some x) ∧ s.devFailed (devOf ch) = false ∧ s.hasRoom ch = false) :=
  ⟨⟨0, 4, { up with mem := { net := [mreq false 64] } }, mreq false 64, by decide +kernel⟩,
    ⟨0, 4, memOf {} { net := [mreq false 64] }, mreq false 64, by decide +kernel, by decide +kernel,
      (memOf {} { net := [mreq false 64] }).partsOf (mreq false 64) 0 false (homeSpot { valid := true, world := false }), [],
      by decide +kernel⟩,
    ⟨0, 4, memOf {} { net := [mreq false 64], failed := [(1, 2)] }, mreq false 64, by decide +kernel⟩,
    ⟨0, 4, memOf { queue := List.replicate 48 (part4 false) } { net := [mreq false 64] }, mreq false 64, by decide +kernel⟩,
    ⟨0, 4, memOf {} { copies := [(4, part4 true)], pend := [(7, { req := mreq true 128, waits := 1 })] }, (4, part4 true),
      by decide +kernel, { req := mreq true 128, waits := 1 }, by decide +kernel⟩,
    ⟨0, 4,
      memOf { queue := List.replicate 48 (part4 false) } { copies := [(4, part4 true)], pend := [(7, { req := mreq true 128, waits := 1 })] },
      (4, part4 true), by decide +kernel⟩⟩

theorem test_witness_CommandSlots :
    (∃ (m : Fin 2) (c : Fin 40) (busy : List (Fin 16)) (ecc : List CodeWordError) (s : State) (d : Due),
    let ch := 40 * m.val + c.val
    let x := s.mchan ch
    x.state = 1 ∧ x.sref = false ∧ x.postponed = 0 ∧ x.due.find? (s.dueReady ch (busy.map (·.val))) = some d ∧ ∃ b,
      d = .refresh b) ∧
    (∃ (m : Fin 2) (c : Fin 40) (busy : List (Fin 16)) (ecc : List CodeWordError) (s : State) (d : Due),
    let ch := 40 * m.val + c.val
    let x := s.mchan ch
    x.state = 1 ∧ x.sref = false ∧ x.postponed = 0 ∧ x.due.find? (s.dueReady ch (busy.map (·.val))) = some d ∧ ∃ b, ∃ r,
      d = .neighbour b r) ∧
    (∃ (m : Fin 2) (c : Fin 40) (busy : List (Fin 16)) (ecc : List CodeWordError) (s : State) (d : Due),
    let ch := 40 * m.val + c.val
    let x := s.mchan ch
    x.state = 1 ∧ x.sref = false ∧ x.postponed = 0 ∧ x.due.find? (s.dueReady ch (busy.map (·.val))) = some d ∧ ∃ b, d = .rfm b) ∧
    (∃ (m : Fin 2) (c : Fin 40) (busy : List (Fin 16)) (ecc : List CodeWordError) (s : State) (d : Due),
    let ch := 40 * m.val + c.val
    let x := s.mchan ch
    x.state = 1 ∧ x.sref = false ∧ x.postponed = 0 ∧ x.due.find? (s.dueReady ch (busy.map (·.val))) = some d ∧ d = .track) ∧
    (∃ (m : Fin 2) (c : Fin 40) (busy : List (Fin 16)) (s : State) (p : Part),
    let ch := 40 * m.val + c.val
    (s.mchan ch).state = 1 ∧ (s.mchan ch).sref = false ∧ (s.mchan ch).postponed = 0 ∧
      (s.mchan ch).due.find? (s.dueReady ch (busy.map (·.val))) = none ∧ s.pick ch (busy.map (·.val)) = some p ∧
      s.devFailed (devOf ch) = false ∧ s.mem.bad = [] ∧ p.write = true ∧ p.owes = false) ∧
    (∃ (m : Fin 2) (c : Fin 40) (busy : List (Fin 16)) (s : State) (p : Part),
    let ch := 40 * m.val + c.val
    (s.mchan ch).state = 1 ∧ (s.mchan ch).sref = false ∧ (s.mchan ch).postponed = 0 ∧
      (s.mchan ch).due.find? (s.dueReady ch (busy.map (·.val))) = none ∧ s.pick ch (busy.map (·.val)) = some p ∧
      s.devFailed (devOf ch) = false ∧ s.mem.bad = [] ∧ ∃ (pq : PendReq), p.write = true ∧ p.owes = true ∧
      tlook p.rid s.mem.pend = some pq) ∧
    (∃ (m : Fin 2) (c : Fin 40) (busy : List (Fin 16)) (s : State) (p : Part),
    let ch := 40 * m.val + c.val
    (s.mchan ch).state = 1 ∧ (s.mchan ch).sref = false ∧ (s.mchan ch).postponed = 0 ∧
      (s.mchan ch).due.find? (s.dueReady ch (busy.map (·.val))) = none ∧ s.pick ch (busy.map (·.val)) = some p ∧
      s.devFailed (devOf ch) = false ∧ s.mem.bad = [] ∧ ∃ (pq : PendReq), p.write = false ∧ tlook p.rid s.mem.pend = some pq ∧
      pq.status = 0 ∧ pq.req.write = false) :=
  ⟨⟨0, 4, [1], [], memOf { due := [.refresh 1, .refresh 2] } {}, .refresh 2, by decide +kernel, by decide +kernel,
    by decide +kernel, by decide +kernel, 2, by decide +kernel⟩,
    ⟨0, 4, [1], [], memOf { due := [.refresh 1, .neighbour 2 5] } {}, .neighbour 2 5, by decide +kernel, by decide +kernel,
      by decide +kernel, by decide +kernel, 2, 5, by decide +kernel⟩,
    ⟨0, 4, [1], [], memOf { due := [.refresh 1, .rfm 2] } {}, .rfm 2, by decide +kernel, by decide +kernel, by decide +kernel,
      by decide +kernel, 2, by decide +kernel⟩,
    ⟨0, 4, [1], [], memOf { due := [.refresh 1, .track] } {}, .track, by decide +kernel⟩,
    ⟨0, 4, [1], memOf { queue := [part4 true] } {}, part4 true, by decide +kernel⟩,
    ⟨0, 4, [1], memOf { queue := [{ part4 true with owes := true }] } { pend := [(7, { req := mreq true 128, waits := 1 })] },
      { part4 true with owes := true }, by decide +kernel, by decide +kernel, by decide +kernel, by decide +kernel,
      by decide +kernel, by decide +kernel, by decide +kernel, { req := mreq true 128, waits := 1 }, by decide +kernel⟩,
    ⟨0, 4, [1],
      memOf { queue := [part4 false] } { pend := [(7, { req := mreq false 128, waits := 1 })], cells := [(memKey 4 0, 5)] },
      part4 false, by decide +kernel, by decide +kernel, by decide +kernel, by decide +kernel, by decide +kernel,
      by decide +kernel, by decide +kernel, { req := mreq false 128, waits := 1 }, by decide +kernel⟩⟩

theorem test_witness_RefreshAndTraining :
    (∃ (m : Fin 2) (c : Fin 40) (s : State),
    let ch := 40 * m.val + c.val
    let x := s.mchan ch
    x.state = 1 ∧ x.sref = false ∧ (s.rimLevel m.val < 2 ∨ 8 ≤ x.postponed)) ∧
    (∃ (m : Fin 2) (c : Fin 40) (s : State),
    let ch := 40 * m.val + c.val
    let x := s.mchan ch
    x.state = 1 ∧ x.sref = false ∧ 2 ≤ s.rimLevel m.val ∧ x.postponed < 8) ∧
    (∃ (m : Fin 2) (c : Fin 40) (s : State),
    let ch := 40 * m.val + c.val
    let x := s.mchan ch
    x.state = 1 ∧ x.sref = false ∧ s.rimLevel m.val < 2 ∧ x.postponed ≠ 0) ∧
    (∃ (m : Fin 2) (c : Fin 40) (s : State), (s.mchan (40 * m.val + c.val)).state = 1 ∧
      s.devFailed (10 * m.val + c.val / 4) = false ∧ s.keel.events.length < 16384) ∧
    (∃ (c : Fin 64) (s : State) (i : Nat) (e : LgEntry), Running s c.val 0x18 i e ∧ s.rsvd i [(0, 63, 40), (1, 63, 40)] = true) ∧
    (∃ (c : Fin 64) (s : State) (i : Nat) (e : LgEntry), Running s c.val 0x18 i e ∧
    let named (ch : Nat) : Prop := ch < 80 ∧ bit (s.pw i (ch / 40)) (ch % 40) = true ∧ (s.mchan ch).state ≠ 3
    s.rsvd i [(0, 63, 40), (1, 63, 40)] = false ∧ (∃ ch, named ch)) ∧
    (∃ (c : Fin 64) (s : State) (i : Nat) (e : LgEntry), Running s c.val 0x18 i e ∧
    let named (ch : Nat) : Prop := ch < 80 ∧ bit (s.pw i (ch / 40)) (ch % 40) = true ∧ (s.mchan ch).state ≠ 3
    s.rsvd i [(0, 63, 40), (1, 63, 40)] = false ∧ (¬ ∃ ch, named ch)) ∧
    (∃ (m : Fin 2) (c : Fin 40) (results : List Word) (s : State) (i : Nat) (e : LgEntry),
    let ch := 40 * m.val + c.val
    (s.mchan ch).state = 2 ∧ (s.mchan ch).cmds = [i] ∧ s.entry i = some e ∧ e.state ≠ .complete ∧ s.boot.phase ≠ .training ∧
      Rising s.mem.chans) ∧
    (∃ (m : Fin 2) (c : Fin 40) (ok : Bool) (results : List Word) (s : State),
    let ch := 40 * m.val + c.val
    s.boot.phase = .training ∧ s.boot.trained.contains ch = false ∧ (s.mchan ch).cmds = [] ∧ (s.mchan ch).state = 0 ∧
      ok = true) ∧
    (∃ (m : Fin 2) (c : Fin 40) (ok : Bool) (results : List Word) (s : State),
    let ch := 40 * m.val + c.val
    s.boot.phase = .training ∧ s.boot.trained.contains ch = false ∧ (s.mchan ch).cmds = [] ∧ (s.mchan ch).state = 0 ∧
      ok = false) ∧
    (∃ (m : Fin 2) (c : Fin 40) (ok : Bool) (results : List Word) (s : State),
    let ch := 40 * m.val + c.val
    s.boot.phase = .training ∧ s.boot.trained.contains ch = false ∧ (s.mchan ch).cmds = [] ∧ (s.mchan ch).state = 3) :=
  ⟨⟨0, 4, memOf { postponed := 2, refs := 61 } {}, by decide +kernel⟩,
    ⟨0, 4, memOf { postponed := 2, refs := 61 } { rtport := [(3, { level := 2 })] }, by decide +kernel⟩,
    ⟨0, 4, memOf { postponed := 2, refs := 61 } {}, by decide +kernel⟩,
    ⟨0, 4, memOf { postponed := 2, refs := 61 } {}, by decide +kernel⟩,
    ⟨1, cmd 0x18 [0x10000000000, 1], 5, eCmd 0x18 2, by unfold Running; decide +kernel⟩,
    ⟨1, cmd 0x18 [0x10, 1] (memOf {} {}), 5, eCmd 0x18 2, by unfold Running; decide +kernel⟩,
    ⟨1, cmd 0x18 [0, 0] (memOf {} {}), 5, eCmd 0x18 2, by unfold Running; decide +kernel⟩,
    ⟨0, 4, [1, 2, 3, 4, 5, 6, 7, 8], withLg [(5,
      eCmd 0x18 2)] { up with mem := { chans := [(4, { state := 2, cmds := [5] })] } }, 5, eCmd 0x18 2, by decide +kernel⟩,
    ⟨1, 39, true, [1, 2, 3, 4, 5, 6, 7, 8], { State.reset with boot := { phase := .training } }, by decide +kernel⟩,
    ⟨1, 39, false, [1, 2, 3, 4, 5, 6, 7, 8], { State.reset with boot := { phase := .training } }, by decide +kernel⟩,
    ⟨1, 39, true, [1, 2, 3, 4, 5, 6, 7, 8],
      { State.reset with boot := { phase := .training }, mem := { chans := [(79, { state := 3 })] } }, by decide +kernel⟩⟩

theorem test_witness_RegionTableWrites :
    (∃ (m : Fin 2) (e : Fin 256) (v : Word) (s : State),
    let ix := 256 * m.val + e.val
    let x := s.mrtE ix
    let y := x.asWritten v
    s.up = true ∧ x.release = none ∧ s.mem.failed = [] ∧ x.state = 0 ∧ x.valid = false ∧ bit v 0 = true ∧ ¬ (y.mirror = true ∧
      SlotTaken s ix y)) ∧
    (∃ (m : Fin 2) (e : Fin 256) (v : Word) (s : State),
    let ix := 256 * m.val + e.val
    let x := s.mrtE ix
    let y := x.asWritten v
    s.up = true ∧ x.release = none ∧ s.mem.failed = [] ∧ x.state = 0 ∧ y.mirror = true ∧ bit v 0 = true ∧ SlotTaken s ix y) ∧
    (∃ (m : Fin 2) (e : Fin 256) (v : Word) (s : State),
    let ix := 256 * m.val + e.val
    let x := s.mrtE ix
    s.up = true ∧ x.release = none ∧ s.mem.failed = [] ∧ x.state = 0 ∧ bit v 0 = false ∧ x.world = true ∧ (x.valid = true ∨
      bit v 1 = false)) ∧
    (∃ (m : Fin 2) (e : Fin 256) (v : Word) (s : State),
    let ix := 256 * m.val + e.val
    let x := s.mrtE ix
    let y := x.asWritten v
    s.up = true ∧ x.release = none ∧ s.mem.failed = [] ∧ x.state = 0 ∧ ((x.valid = true ∧ bit v 0 = true ∧ ¬ (y.mirror = true ∧
      SlotTaken s ix y)) ∨ (bit v 0 = false ∧ (x.world = false ∨ (x.valid = false ∧ bit v 1 = true))))) ∧
    (∃ (m : Fin 2) (e : Fin 256) (v : Word) (s : State),
    let ix := 256 * m.val + e.val
    let x := s.mrtE ix
    x.release.isSome) ∧
    (∃ (m : Fin 2) (e : Fin 256) (s : State) (w : World),
    let ix := 256 * m.val + e.val
    (s.mrtE ix).release = some w ∧ s.mem.failed = [] ∧ (s.mrtE ix).state = 0) ∧
    (∃ (m : Fin 2) (p : Fin 16) (v : Word) (s : State), s.up = true ∧ 1 ≤ bits v 5 0 ∧ bits v 5 0 < bits v 13 8 ∧
      bits v 13 8 < bits v 21 16) ∧
    (∃ (m : Fin 2) (p : Fin 16) (v : Word) (s : State), ¬ (1 ≤ bits v 5 0 ∧ bits v 5 0 < bits v 13 8 ∧
      bits v 13 8 < bits v 21 16)) :=
  ⟨⟨1, 1, packF [(0, 1, 1), (3, 1, 1), (4, 2, 3), (8, 8, 159)], { up with mem := { mrt := [(257, { world := false })] } },
    by unfold SlotTaken; decide +kernel⟩,
    ⟨1, 1, packF [(0, 1, 1), (2, 1, 1), (8, 8, 159)],
      { up with mem := { mrt := [(256, { valid := true, mirror := true, mslot := 159 })] } },
      by unfold SlotTaken; decide +kernel⟩,
    ⟨1, 1, 0, { up with mem := { mrt := [(257, { ilv := true })] } }, by decide +kernel⟩,
    ⟨1, 1, 2, { up with mem := { mrt := [(257, { ilv := true })] } }, by unfold SlotTaken; decide +kernel⟩,
    ⟨1, 1, 1, { up with mem := { mrt := [(257, { release := some false })] } }, by decide +kernel⟩,
    ⟨1, 1, { up with mem := { mrt := [(257, { release := some false })], cells := [(memKey 43 (homeBase 257 + 5), 7)] } },
      false, by decide +kernel⟩,
    ⟨1, 15, packF [(0, 6, 1), (8, 6, 2), (16, 6, 3)], { up with mem := { rtport := [(31, { fill := 4096 })] } },
      by decide +kernel⟩,
    ⟨1, 15, packF [(0, 6, 2), (8, 6, 2), (16, 6, 3)], { up with mem := { rtport := [(31, { fill := 4096 })] } },
      by decide +kernel⟩⟩

theorem test_witness_LaneConfiguration :
    (∃ (m : Fin 2) (l : Fin 48) (v : Word) (s : State),
    let i := 48 * m.val + l.val
    let x := s.lane i
    let cfg := laneMerge x.cfg v
    s.up = true ∧ x.en = false ∧ bit v 0 = true ∧ modeOk (bits cfg 2 1) (bits cfg 5 3) = true ∧ (bits cfg 2 1 ≤ 1 →
      (s.region (bits cfg 18 12)).world = s.wlane (lanePort i)) ∧ (s.port (lanePort i)).state = 0 ∧ s.ldr.eqtab = none) ∧
    (∃ (m : Fin 2) (l : Fin 48) (v : Word) (s : State),
    let i := 48 * m.val + l.val
    let x := s.lane i
    let cfg := laneMerge x.cfg v
    s.up = true ∧ x.en = false ∧ bit v 0 = true ∧ modeOk (bits cfg 2 1) (bits cfg 5 3) = true ∧ (bits cfg 2 1 ≤ 1 →
      (s.region (bits cfg 18 12)).world = s.wlane (lanePort i)) ∧ (s.port (lanePort i)).state = 0 ∧ ∃ tab,
      s.ldr.eqtab = some tab ∧ bits (eqEntry tab i).1 2 0 = bits cfg 5 3) ∧
    (∃ (m : Fin 2) (l : Fin 48) (v : Word) (s : State),
    let i := 48 * m.val + l.val
    let x := s.lane i
    let cfg := laneMerge x.cfg v
    s.up = true ∧ x.en = false ∧ bit v 0 = true ∧ modeOk (bits cfg 2 1) (bits cfg 5 3) = true ∧ (bits cfg 2 1 ≤ 1 →
      (s.region (bits cfg 18 12)).world = s.wlane (lanePort i)) ∧ (s.port (lanePort i)).state = 0 ∧ ∃ tab,
      s.ldr.eqtab = some tab ∧ bits (eqEntry tab i).1 2 0 ≠ bits cfg 5 3 ∧ s.keel.events.length < 16384) ∧
    (∃ (m : Fin 2) (l : Fin 48) (v : Word) (s : State),
    let i := 48 * m.val + l.val
    let x := s.lane i
    let cfg := laneMerge x.cfg v
    s.up = true ∧ x.en = false ∧ bit v 0 = true ∧ modeOk (bits cfg 2 1) (bits cfg 5 3) = false) ∧
    (∃ (m : Fin 2) (l : Fin 48) (v : Word) (s : State),
    let i := 48 * m.val + l.val
    let x := s.lane i
    s.up = true ∧ x.en = false ∧ bit v 0 = false ∧ (s.port (lanePort i)).state = 0) ∧
    (∃ (m : Fin 2) (l : Fin 48) (v : Word) (s : State),
    let i := 48 * m.val + l.val
    let x := s.lane i
    s.up = true ∧ x.en = true ∧ (bit v 0 = true → modeOk x.mode x.rate = true) ∧ (s.port (lanePort i)).state = 0) ∧
    (∃ (m : Fin 2) (l : Fin 48) (s : State),
    let i := 48 * m.val + l.val
    (s.lane i).en = true ∧ (s.lane i).state = 1 ∧ (s.lane i).cdr = false ∧ (s.port (lanePort i)).state = 0 ∧
      s.keel.events.length < 16384) ∧
    (∃ (g : Fin 12) (s : State) (tab : List Word) (rest : List Nat), s.ser.pel.again = g.val :: rest ∧
      (s.port g.val).unacked = [] ∧ s.ldr.eqtab = some tab ∧ ∃ rate, 1 ≤ rate ∧ rate ≤ 4 ∧ (∀ j, j < 8 →
      bits (eqEntry tab (portLane g.val j)).1 2 0 = rate)) ∧
    (∃ (g : Fin 12) (s : State) (tab : List Word) (rest : List Nat), s.ser.pel.again = g.val :: rest ∧
      (s.port g.val).unacked = [] ∧ s.ldr.eqtab = some tab ∧ ((∃ j, j < 8 ∧
      bits (eqEntry tab (portLane g.val j)).1 2 0 ≠ bits (eqEntry tab (portLane g.val 0)).1 2 0) ∨
      bits (eqEntry tab (portLane g.val 0)).1 2 0 = 0)) ∧
    (∃ (g : Fin 12) (s : State), (s.ser.pel.again.head? ≠ some g.val ∨ (s.port g.val).unacked ≠ [])) :=
  ⟨⟨0, 3, lnc 0 0 0 0 5, laneAt {}, by decide +kernel⟩,
    ⟨0, 3, lnc 2 1 0 0 0, { laneAt {} with ldr := { eqtab := some (eqt 1) } }, by decide +kernel, by decide +kernel,
      by decide +kernel, by decide +kernel, by decide +kernel, by decide +kernel, eqt 1, by decide +kernel⟩,
    ⟨0, 3, lnc 2 1 0 0 0, { laneAt {} with ldr := { eqtab := some (eqt 2) } }, by decide +kernel, by decide +kernel,
      by decide +kernel, by decide +kernel, by decide +kernel, by decide +kernel, eqt 2, by decide +kernel⟩,
    ⟨0, 3, lnc 1 2 0 0 5, laneAt {}, by decide +kernel⟩,
    ⟨0, 3, lnc 0 0 0 0 5 - 1, laneAt {}, by decide +kernel⟩,
    ⟨0, 3, lnc 0 0 1 1 0, laneAt (laneUp 0 2), by decide +kernel⟩,
    ⟨0, 3, laneAt { laneUp 0 1 with cdr := false }, by decide +kernel⟩,
    ⟨2, groupAt (eqt 3), eqt 3, [], by decide +kernel, by decide +kernel, by decide +kernel, 3, by decide +kernel⟩,
    ⟨2, groupAt ((eqt 3).set 34 1), (eqt 3).set 34 1, [], by decide +kernel⟩,
    ⟨2, laneAt {}, by decide +kernel⟩⟩

theorem test_witness_LaneWords :
    (∃ (m : Fin 2) (l : Fin 48) (ws : List Word) (s : State),
    let i := 48 * m.val + l.val
    let x := s.lane i
    let gs := rawHeard x ws
    LaneReceives x ∧ x.mode = 0 ∧ x.held.length + gs.length < fullToken x) ∧
    (∃ (m : Fin 2) (l : Fin 48) (ws : List Word) (s : State),
    let i := 48 * m.val + l.val
    let x := s.lane i
    let gs := rawHeard x ws
    LaneReceives x ∧ x.mode = 0 ∧ x.held = [] ∧ gs.length = fullToken x) ∧
    (∃ (m : Fin 2) (l : Fin 48) (ws : List Word) (s : State),
    let i := 48 * m.val + l.val
    let x := s.lane i
    x.en = true ∧ (x.state = 1 ∨ x.state = 2) ∧ x.cdr = true ∧ 2 ≤ x.prbs ∧ x.loopMode = 0 ∧ bit x.cfg 11 = false) ∧
    (∃ (m : Fin 2) (l : Fin 48) (b : BitVec 2 × Word) (s : State),
    let i := 48 * m.val + l.val
    let x := s.lane i
    x.en = true ∧ x.state = 2 ∧ x.cdr = true ∧ x.prbs = 0 ∧ x.mode = 1 ∧ x.block = true ∧ x.loopMode = 0 ∧
      bit x.cfg 11 = false ∧ (b.1 = 1 ∨ b.1 = 2) ∧ x.syncSeen < 63 ∧ x.held.length < 30 ∧ x.syncBad < 16) ∧
    (∃ (r : Fin 128) (m : Fin 2) (ws : List Word) (s : State),
    let h := ws.getD 0 0
    let i := 48 * m.val + bits h 5 0
    let x := s.lane i
    let data := ((ws.drop 1).take (bits h 11 7)).zipIdx.map (fun w => (w.1, bit h (12 + w.2)))
    let whole : Prop := x.mode ≠ 0 ∨ bits h 11 7 % rawWords x.rate = 0
    (s.region r.val).isOpen = true ∧ bits h 5 0 < 48 ∧ x.en = true ∧ x.mode ≤ 1 ∧ x.region = r.val ∧ whole ∧ x.state ≠ 3 ∧
      x.prbs = 0 ∧ x.loopMode ≠ 3 ∧ x.tx.length + data.length ≤ 256) ∧
    (∃ (r : Fin 128) (m : Fin 2) (ws : List Word) (s : State),
    let h := ws.getD 0 0
    let i := 48 * m.val + bits h 5 0
    let x := s.lane i
    let data := ((ws.drop 1).take (bits h 11 7)).zipIdx.map (fun w => (w.1, bit h (12 + w.2)))
    let whole : Prop := x.mode ≠ 0 ∨ bits h 11 7 % rawWords x.rate = 0
    (s.region r.val).isOpen = true ∧ bits h 5 0 < 48 ∧ x.en = true ∧ x.mode ≤ 1 ∧ x.region = r.val ∧ whole ∧ x.state ≠ 3 ∧
      x.prbs = 0 ∧ x.loopMode ≠ 3 ∧ 256 < x.tx.length + data.length) ∧
    (∃ (r : Fin 128) (m : Fin 2) (ws : List Word) (s : State),
    let h := ws.getD 0 0
    let i := 48 * m.val + bits h 5 0
    let x := s.lane i
    let whole : Prop := x.mode ≠ 0 ∨ bits h 11 7 % rawWords x.rate = 0
    (s.region r.val).isOpen = true ∧ bits h 5 0 < 48 ∧ (x.en = false ∨ 2 ≤ x.mode ∨ x.region ≠ r.val ∨ ¬ whole)) ∧
    (∃ (m : Fin 2) (l : Fin 48) (s : State),
    let i := 48 * m.val + l.val
    let x := s.lane i
    x.en = true ∧ x.state = 1 ∧ x.mode = 0 ∧ x.cdr = false ∧ s.lrefOk i = true) ∧
    (∃ (m : Fin 2) (l : Fin 48) (s : State),
    let i := 48 * m.val + l.val
    s.lrefOk i = false) ∧
    (∃ (m : Fin 2) (l : Fin 48) (s : State),
    let i := 48 * m.val + l.val
    let x := s.lane i
    x.en = true ∧ x.state = 2 ∧ x.mode = 2 ∧ x.cdr = true ∧ (s.port (lanePort i)).state ≠ 0) ∧
    (∃ (m : Fin 2) (l : Fin 48) (s : State),
    let i := 48 * m.val + l.val
    let x := s.lane i
    x.en = true ∧ x.mode ≤ 1 ∧ x.state = 2 ∧ x.prbs = 0 ∧ x.loopMode ≠ 3) :=
  ⟨⟨0, 3, [1, 2], laneAt (laneUp 0 2), by unfold LaneReceives; decide +kernel⟩,
    ⟨0, 3, List.replicate (fullToken (laneUp 0 2)) 7, laneAt (laneUp 0 2), by unfold LaneReceives; decide +kernel⟩,
    ⟨0, 3, [1], laneAt { laneUp 0 2 with cfg := lnc 0 1 0 2 5 }, by decide +kernel⟩,
    ⟨0, 3, (1, 5), laneAt { laneUp 1 2 with block := true }, by decide +kernel⟩,
    ⟨5, 0, [packF [(0, 6, 3), (7, 5, 2)], 8, 9], laneAt (laneUp 0 2), by decide +kernel⟩,
    ⟨5, 0, [packF [(0, 6, 3), (7, 5, 2)], 8, 9], laneAt { laneUp 0 2 with tx := List.replicate 255 (1, false) },
      by decide +kernel⟩,
    ⟨5, 0, [packF [(0, 6, 3), (7, 5, 2)], 8, 9], laneAt (laneUp 2 2), by decide +kernel⟩,
    ⟨0, 3, laneAt { laneUp 0 1 with cdr := false }, by decide +kernel⟩,
    ⟨0, 3,
      { laneAt { laneUp 0 1 with cdr := false } with ser := { lanes := [(3, { laneUp 0 1 with cdr := false })], lrefMissing := [0] } },
      by decide +kernel⟩,
    ⟨0, 3, portAt link0 (fun _ => none), by decide +kernel⟩,
    ⟨0, 3, laneAt (laneUp 0 2), by decide +kernel⟩⟩

theorem test_witness_PortsAndLinks :
    (∃ (m : Fin 2) (l : Fin 48) (lip : Fin 8) (sp : BitVec 4) (count : BitVec 16) (par : Byte) (skew : Nat) (s : State),
    let i := 48 * m.val + l.val
    let v := lanePort i
    let x := s.lane i
    x.mode = 2 ∧ x.state = 2 ∧ (s.port v).state ≠ 0 ∧ skew ≤ 64 ∧ (∀ j, j < 8 → (s.lane (portLane v j)).marker = none)) ∧
    (∃ (m : Fin 2) (l : Fin 48) (lip : Fin 8) (sp : BitVec 4) (count : BitVec 16) (par : Byte) (skew : Nat) (s : State),
    let i := 48 * m.val + l.val
    let v := lanePort i
    let x := s.lane i
    let y : Lane := { x with
      marker := some (lip.val, sp.toNat, count.toNat), biperr := if par.toNat ≠ 0 then satInc x.biperr else x.biperr }
    x.mode = 2 ∧ x.state = 2 ∧ (s.port v).state ≠ 0 ∧ skew ≤ 64 ∧ (∀ a b c, x.marker = some (a, b, c) →
      count.toNat = (c + 1) % 65536) ∧ (∀ j, j < 8 → ∃ p q, ((s.modLane i (fun _ => y)).lane (portLane v j)).marker = some (p,
      q, count.toNat)) ∧ (∀ k, k < 8 → ∃ j q, j < 8 ∧ ((s.modLane i (fun _ => y)).lane (portLane v j)).marker = some (k, q,
      count.toNat))) ∧
    (∃ (m : Fin 2) (l : Fin 48) (lip : Fin 8) (sp : BitVec 4) (count : BitVec 16) (par : Byte) (skew : Nat) (s : State),
    let i := 48 * m.val + l.val
    let v := lanePort i
    let x := s.lane i
    x.mode = 2 ∧ x.state = 2 ∧ (s.port v).state ≠ 0 ∧ 64 < skew) ∧
    (∃ (m : Fin 2) (l : Fin 48) (lip : Fin 8) (sp : BitVec 4) (count : BitVec 16) (par : Byte) (skew : Nat) (s : State),
    let i := 48 * m.val + l.val
    let v := lanePort i
    let x := s.lane i
    x.mode = 2 ∧ x.state = 2 ∧ (s.port v).state ≠ 0 ∧ ∃ a, ∃ b, ∃ c, skew ≤ 64 ∧ x.marker = some (a, b, c) ∧
      count.toNat ≠ (c + 1) % 65536) ∧
    (∃ (v : Fin 12) (s : State), 2 ≤ (s.port v.val).state.toNat ∧
    let x := s.port v.val
    ∃ (ack : BitVec 16) (nak : Bool) (c0 : Byte) (c1 : Byte) (c2 : Byte) (a : Nat) (b : Nat) (c : Nat), x.state = 3 ∧
      x.queue = [] ∧ (∀ u ∈ x.unacked, u.sent < 15) ∧ x.credit = [a, b, c] ∧ x.ownInit = true) ∧
    (∃ (v : Fin 12) (s : State), 2 ≤ (s.port v.val).state.toNat ∧
    let x := s.port v.val
    x.unacked ≠ [] ∧ (∀ u ∈ x.unacked, u.sent < 15)) ∧
    (∃ (v : Fin 12) (s : State), 2 ≤ (s.port v.val).state.toNat ∧
    let x := s.port v.val
    (∃ u ∈ x.unacked, 15 ≤ u.sent)) ∧
    (∃ (v : Fin 12) (s : State), 2 ≤ (s.port v.val).state.toNat ∧
    let x := s.port v.val
    x.unacked = []) :=
  ⟨⟨0, 3, 3, 5, 7, 9, 64, portAt { state := 1 } (fun _ => none), by decide +kernel⟩,
    ⟨0, 3, 3, 5, 7, 0, 64, portAt { state := 1, aligned := 1 } (fun j => some (j, 5, if j = 3 then 6 else 7)),
      by decide +kernel,
      by decide +kernel, by decide +kernel, by decide, by intro a b c h; cases h; decide,
      by refine fun j _ => ⟨j, 5, ?_⟩; revert j; decide +kernel,
      by refine fun k hk => ⟨k, 5, hk, ?_⟩; revert k; decide +kernel⟩,
    ⟨0, 3, 3, 5, 7, 0, 65, portAt { state := 2 } (fun _ => none), by decide +kernel⟩,
    ⟨0, 3, 3, 5, 7, 0, 64, portAt { state := 2 } (fun j => some (j, 5, 7)), by decide +kernel, by decide +kernel,
      by decide +kernel, 3, 5, 7, by decide +kernel⟩,
    ⟨0, portAt { link0 with unacked := [sent1] } (fun _ => none), by decide +kernel, 0, false, 1, 2, 3, 4, 4, 4,
      by decide +kernel⟩,
    ⟨0, portAt { link0 with unacked := [sent1] } (fun _ => none), by decide +kernel⟩,
    ⟨0, portAt { link0 with unacked := [{ sent1 with sent := 15 }] } (fun _ => none), by decide +kernel⟩,
    ⟨0, portAt link0 (fun _ => none), by decide +kernel⟩⟩

theorem test_witness_PeerFrames :
    (∃ (v : Fin 12) (f : Frame) (s : State), AcceptsFrame s v.val 0 f ∧
    let len := 8 * (f.data.length - 1)
    fsWorld f.hdr = s.wlane v.val ∧ 2 ≤ f.data.length ∧ s.memCheck (fsWorld f.hdr) (bits (f.data.getD 0 0) 39 0) len = 0) ∧
    (∃ (v : Fin 12) (f : Frame) (s : State), AcceptsFrame s v.val 0 f ∧
    let x := s.port v.val
    let len := 8 * (f.data.length - 1)
    (fsWorld f.hdr ≠ s.wlane v.val ∨ f.data.length < 2 ∨ s.memCheck (fsWorld f.hdr) (bits (f.data.getD 0 0) 39 0) len ≠ 0) ∧
      x.state = 3 ∧ x.queue = [] ∧ x.peers = [] ∧ x.credit.length = 3 ∧ 1 ≤ x.credit.getD 1 0) ∧
    (∃ (v : Fin 12) (f : Frame) (s : State) (p : Nat) (c : Nat) (id : Nat) (rest : List (Nat × Nat × Nat)) (x : Transfer),
      AcceptsFrame s v.val 1 f ∧ (s.port v.val).awaiting = (p, c, id) :: rest ∧ (s.ctx p c).xferAt id = some x ∧ c < 2 ∧
      (x.total ≤ x.done + x.nextReq.2.2 ∨ (s.ctx p c).active = false)) ∧
    (∃ (v : Fin 12) (f : Frame) (s : State) (p : Nat) (c : Nat) (id : Nat) (rest : List (Nat × Nat × Nat)) (x : Transfer),
      AcceptsFrame s v.val 1 f ∧ (s.port v.val).awaiting = (p, c, id) :: rest ∧ (s.ctx p c).xferAt id = some x ∧ c < 2 ∧
      x.done + x.nextReq.2.2 < x.total ∧ (s.ctx p c).active = true) ∧
    (∃ (v : Fin 12) (f : Frame) (s : State) (p : Nat) (c : Nat) (id : Nat) (rest : List (Nat × Nat × Nat)) (x : Transfer),
      AcceptsFrame s v.val 2 f ∧ (s.port v.val).awaiting = (p, c, id) :: rest ∧ (s.ctx p c).xferAt id = some x ∧
      (s.ctx p c).active = true) ∧
    (∃ (v : Fin 12) (f : Frame) (s : State) (init : LinkInit), 2 ≤ (s.port v.val).state.toNat ∧
      ∃ i ∈ [(Instr.peerWriteFrame v f, 0), (Instr.peerAcknowledgeFrame v (f, .none), 1), (Instr.peerRefusalFrame v f, 2),
      (Instr.commandFrame v f, 3), (Instr.replyFrame v f, 4), (Instr.linkInit v f init, 5)], fsKind f.hdr = i.2 ∧
    let x := s.port v.val
    f.crc = frameCrc f.hdr f.data ∧ fsSeq f.hdr ≠ x.rxSeq ∧ (x.rxSeq - fsSeq f.hdr - 1).toNat < 32768) ∧
    (∃ (v : Fin 12) (f : Frame) (s : State) (init : LinkInit), 2 ≤ (s.port v.val).state.toNat ∧
      ∃ i ∈ [(Instr.peerWriteFrame v f, 0), (Instr.peerAcknowledgeFrame v (f, .none), 1), (Instr.peerRefusalFrame v f, 2),
      (Instr.commandFrame v f, 3), (Instr.replyFrame v f, 4), (Instr.linkInit v f init, 5)], fsKind f.hdr = i.2 ∧
    let x := s.port v.val
    f.crc ≠ frameCrc f.hdr f.data ∧ x.nakked = false) :=
  ⟨⟨0, fr 0 0 true 0 0 [0x1000, 9],
    { portAt link0 (fun _ => none) with mem := { mrt := [(0, { valid := true, world := false })] } },
    by unfold AcceptsFrame; decide +kernel⟩,
    ⟨0, fr 0 0 true 0 0 [0x1000, 9], portAt link0 (fun _ => none), by unfold AcceptsFrame; decide +kernel⟩,
    ⟨0, fr 1 1 true 0 0 [], peerAt (outst 4 dPeer 64), 3, 0, 0, [], outst 4 dPeer 64, by unfold AcceptsFrame; decide +kernel⟩,
    ⟨0, fr 1 1 true 0 0 [], peerAt (outst 4 dPeerBig 4096), 3, 0, 0, [], outst 4 dPeerBig 4096,
      by unfold AcceptsFrame; decide +kernel⟩,
    ⟨0, fr 2 1 true 0 0 [], peerAt (outst 4 dPeer 64), 3, 0, 0, [], outst 4 dPeer 64, by unfold AcceptsFrame; decide +kernel⟩,
    ⟨0, fr 0 0 true 0 0 [0x1000, 9], portAt { link0 with rxSeq := 1 } (fun _ => none), init1, by decide +kernel,
      (Instr.peerWriteFrame 0 (fr 0 0 true 0 0 [0x1000, 9]), 0), by decide +kernel, by decide +kernel⟩,
    ⟨0, { fr 0 0 true 0 0 [0x1000, 9] with crc := 5 }, portAt link0 (fun _ => none), init1, by decide +kernel,
      (Instr.peerWriteFrame 0 { fr 0 0 true 0 0 [0x1000, 9] with crc := 5 }, 0), by decide +kernel, by decide +kernel⟩⟩

theorem test_witness_PelotonFrames :
    (∃ (v : Fin 12) (f : Frame) (s : State), AcceptsFrame s v.val 3 f ∧
    let sound : Prop := s.wlane v.val = true ∧ fsWorld f.hdr = true
    sound ∧ s.boot.follower = true ∧ fsDest f.hdr = s.pelNum ∧ fsSrc f.hdr = 0) ∧
    (∃ (v : Fin 12) (f : Frame) (s : State), AcceptsFrame s v.val 3 f ∧
    let sound : Prop := s.wlane v.val = true ∧ fsWorld f.hdr = true
    (¬ sound ∨ (s.forKeel f.hdr true = true ∧ ¬ (s.boot.follower = true ∧ fsSrc f.hdr = 0)))) ∧
    (∃ (v : Fin 12) (f : Frame) (s : State), AcceptsFrame s v.val 3 f ∧
    let sound : Prop := s.wlane v.val = true ∧ fsWorld f.hdr = true
    sound ∧ s.forKeel f.hdr true = false ∧ ∃ p, s.routePort (fsDest f.hdr) = some p) ∧
    (∃ (v : Fin 12) (f : Frame) (s : State), AcceptsFrame s v.val 3 f ∧
    let sound : Prop := s.wlane v.val = true ∧ fsWorld f.hdr = true
    sound ∧ s.forKeel f.hdr true = false ∧ s.routePort (fsDest f.hdr) = none) ∧
    (∃ (v : Fin 12) (f : Frame) (s : State), AcceptsFrame s v.val 4 f ∧ s.wlane v.val = true ∧ fsWorld f.hdr = true ∧
      fsDest f.hdr = s.pelNum ∧ s.lead = true) ∧
    (∃ (v : Fin 12) (f : Frame) (s : State), AcceptsFrame s v.val 4 f ∧ s.wlane v.val = true ∧ fsWorld f.hdr = true ∧ ∃ p,
      s.forKeel f.hdr false = false ∧ s.routePort (fsDest f.hdr) = some p) ∧
    (∃ (v : Fin 12) (f : Frame) (i : LinkInit) (s : State), AcceptsFrame s v.val 5 f ∧ s.initRefused v.val i = false ∧
      (s.port v.val).state = 2 ∧ (s.port v.val).queue = []) ∧
    (∃ (v : Fin 12) (f : Frame) (i : LinkInit) (s : State), AcceptsFrame s v.val 5 f ∧ s.initRefused v.val i = true) :=
  ⟨⟨0, fr 3 2 true 127 0 [1, 2, 3, 4], { portAt link0 (fun _ => none) with boot := { phase := .ready, follower := true } },
    by unfold AcceptsFrame; decide +kernel⟩,
    ⟨0, fr 3 2 true 127 0 [1, 2, 3, 4], portAt link0 (fun _ => none), by unfold AcceptsFrame; decide +kernel⟩,
    ⟨0, fr 3 2 true 9 0 [1, 2, 3, 4], routed, by unfold AcceptsFrame; decide +kernel, by decide +kernel, by decide +kernel, 4,
      by decide +kernel⟩,
    ⟨0, fr 3 2 true 10 0 [1, 2, 3, 4], routed, by unfold AcceptsFrame; decide +kernel⟩,
    ⟨0, fr 4 2 true 0 0 [3, 2, 3, 4, 5], portAt link0 (fun _ => none), by unfold AcceptsFrame; decide +kernel⟩,
    ⟨0, fr 4 2 true 9 0 [3, 2, 3, 4, 5], routed, by unfold AcceptsFrame; decide +kernel, by decide +kernel, by decide +kernel,
      4, by decide +kernel⟩,
    ⟨0, fr 5 2 true 0 0 [1], init1, portAt { link0 with state := 2, farInit := false } (fun _ => none),
      by unfold AcceptsFrame; decide +kernel⟩,
    ⟨0, fr 5 2 true 0 0 [1], { init1 with kid := 0 }, portAt link0 (fun _ => none), by unfold AcceptsFrame; decide +kernel⟩⟩

theorem test_witness_OdometerAndActions :
    (∃ (m : Fin 2) (c : Fin 4) (a : Bool) (b : Bool) (s : State) (ia : Nat) (ib : Nat) (na : Bool) (nb : Bool),
    let o := s.odo c.val
    let rev := (if (o.seen m.val).1 ≠ na then na != nb else nb == na) == o.inv
    let next := if rev then o.pos m.val - 1 else o.pos m.val + 1
    Counts s m.val c.val ia ib a b na nb ∧ s.waitingActs m.val c.val = [] ∧ ((o.seen m.val).1 ≠ na ↔ (o.seen m.val).2 = nb)) ∧
    (∃ (m : Fin 2) (c : Fin 4) (a : Bool) (b : Bool) (s : State) (ia : Nat) (ib : Nat) (na : Bool) (nb : Bool),
    let o := s.odo c.val
    let rev := (if (o.seen m.val).1 ≠ na then na != nb else nb == na) == o.inv
    let next := if rev then o.pos m.val - 1 else o.pos m.val + 1
    Counts s m.val c.val ia ib a b na nb ∧ s.waitingActs m.val c.val = [] ∧ (o.seen m.val).1 ≠ na ∧ (o.seen m.val).2 ≠ nb) ∧
    (∃ (m : Fin 2) (c : Fin 4) (a : Bool) (b : Bool) (s : State) (ia : Nat) (ib : Nat) (na : Bool) (nb : Bool),
    let o := s.odo c.val
    let rev := (if (o.seen m.val).1 ≠ na then na != nb else nb == na) == o.inv
    let next := if rev then o.pos m.val - 1 else o.pos m.val + 1
    Counts s m.val c.val ia ib a b na nb ∧ s.waitingActs m.val c.val = [] ∧ o.seen m.val = (na, nb)) ∧
    (∃ (m : Fin 2) (c : Fin 4) (a : Bool) (b : Bool) (s : State), s.live m.val c.val = false) ∧
    (∃ (m : Fin 2) (c : Fin 4) (a : Bool) (b : Bool) (s : State) (ia : Nat) (ib : Nat) (na : Bool) (nb : Bool) (k : Nat),
    let o := s.odo c.val
    let x := s.act k
    let rev := (if (o.seen m.val).1 ≠ na then na != nb else nb == na) == o.inv
    let next := if rev then o.pos m.val - 1 else o.pos m.val + 1
    Counts s m.val c.val ia ib a b na nb ∧ ((o.seen m.val).1 ≠ na ↔ (o.seen m.val).2 = nb) ∧ s.waitingActs m.val c.val = [k] ∧
      x.st ≠ 0 ∧ x.ch = c.val ∧ x.rim = m.val ∧ (∀ v, o.pre m.val ≠ some (next, v)) ∧ x.st = 1 ∧ x.rev = rev ∧ x.target = next) ∧
    (∃ (m : Fin 2) (c : Fin 4) (a : Bool) (b : Bool) (s : State) (ia : Nat) (ib : Nat) (na : Bool) (nb : Bool) (k : Nat),
    let o := s.odo c.val
    let x := s.act k
    let rev := (if (o.seen m.val).1 ≠ na then na != nb else nb == na) == o.inv
    let next := if rev then o.pos m.val - 1 else o.pos m.val + 1
    Counts s m.val c.val ia ib a b na nb ∧ ((o.seen m.val).1 ≠ na ↔ (o.seen m.val).2 = nb) ∧ s.waitingActs m.val c.val = [k] ∧
      x.st ≠ 0 ∧ x.ch = c.val ∧ x.rim = m.val ∧ (∀ v, o.pre m.val ≠ some (next, v)) ∧ x.st = 1 ∧ ¬ (x.rev = rev ∧
      x.target = next)) ∧
    (∃ (m : Fin 2) (c : Fin 4) (a : Bool) (b : Bool) (s : State) (ia : Nat) (ib : Nat) (na : Bool) (nb : Bool) (k : Nat),
    let o := s.odo c.val
    let x := s.act k
    let rev := (if (o.seen m.val).1 ≠ na then na != nb else nb == na) == o.inv
    let next := if rev then o.pos m.val - 1 else o.pos m.val + 1
    Counts s m.val c.val ia ib a b na nb ∧ ((o.seen m.val).1 ≠ na ↔ (o.seen m.val).2 = nb) ∧ s.waitingActs m.val c.val = [k] ∧
      x.st ≠ 0 ∧ x.ch = c.val ∧ x.rim = m.val ∧ (∀ v, o.pre m.val ≠ some (next, v)) ∧ x.st = 2) ∧
    (∃ (m : Fin 2) (c : Fin 4) (a : Bool) (b : Bool) (s : State) (ia : Nat) (ib : Nat) (na : Bool) (nb : Bool) (k : Nat),
    let o := s.odo c.val
    let x := s.act k
    let rev := (if (o.seen m.val).1 ≠ na then na != nb else nb == na) == o.inv
    let next := if rev then o.pos m.val - 1 else o.pos m.val + 1
    Counts s m.val c.val ia ib a b na nb ∧ ((o.seen m.val).1 ≠ na ↔ (o.seen m.val).2 = nb) ∧ s.waitingActs m.val c.val = [k] ∧
      x.st ≠ 0 ∧ x.ch = c.val ∧ x.rim = m.val ∧ ∃ v, o.pre m.val = some (next, v) ∧ x.st = 2) ∧
    (∃ (m : Fin 2) (c : Fin 4) (a : Bool) (b : Bool) (s : State) (ia : Nat) (ib : Nat) (na : Bool) (nb : Bool) (k : Nat),
    let o := s.odo c.val
    let x := s.act k
    let rev := (if (o.seen m.val).1 ≠ na then na != nb else nb == na) == o.inv
    let next := if rev then o.pos m.val - 1 else o.pos m.val + 1
    Counts s m.val c.val ia ib a b na nb ∧ ((o.seen m.val).1 ≠ na ↔ (o.seen m.val).2 = nb) ∧ s.waitingActs m.val c.val = [k] ∧
      x.st ≠ 0 ∧ x.ch = c.val ∧ x.rim = m.val ∧ ∃ v, o.pre m.val = some (next, v) ∧ x.st = 1 ∧ ahead x.target v x.rev = true) ∧
    (∃ (m : Fin 2) (c : Fin 4) (a : Bool) (b : Bool) (s : State) (ia : Nat) (ib : Nat) (na : Bool) (nb : Bool) (k : Nat),
    let o := s.odo c.val
    let x := s.act k
    let rev := (if (o.seen m.val).1 ≠ na then na != nb else nb == na) == o.inv
    let next := if rev then o.pos m.val - 1 else o.pos m.val + 1
    Counts s m.val c.val ia ib a b na nb ∧ ((o.seen m.val).1 ≠ na ↔ (o.seen m.val).2 = nb) ∧ s.waitingActs m.val c.val = [k] ∧
      x.st ≠ 0 ∧ x.ch = c.val ∧ x.rim = m.val ∧ ∃ v, o.pre m.val = some (next, v) ∧ x.st = 1 ∧ ahead x.target v x.rev = false ∧
      x.late = false) ∧
    (∃ (m : Fin 2) (c : Fin 4) (a : Bool) (b : Bool) (s : State) (ia : Nat) (ib : Nat) (na : Bool) (nb : Bool) (k : Nat),
    let o := s.odo c.val
    let x := s.act k
    let rev := (if (o.seen m.val).1 ≠ na then na != nb else nb == na) == o.inv
    let next := if rev then o.pos m.val - 1 else o.pos m.val + 1
    Counts s m.val c.val ia ib a b na nb ∧ ((o.seen m.val).1 ≠ na ↔ (o.seen m.val).2 = nb) ∧ s.waitingActs m.val c.val = [k] ∧
      x.st ≠ 0 ∧ x.ch = c.val ∧ x.rim = m.val ∧ ∃ v, o.pre m.val = some (next, v) ∧ x.st = 1 ∧ ahead x.target v x.rev = false ∧
      x.late = true) ∧
    (∃ (c : Fin 4) (s : State) (fromE : Bool) (q : BitVec 48) (rest : List (Bool × BitVec 48)),
    let o := s.odo c.val
    let m := if fromE then 0 else 1
    let d := min (o.pos m - q).toNat (q - o.pos m).toNat
    o.sent = (fromE, q) :: rest ∧ s.live m c.val = true ∧ 8 < d) ∧
    (∃ (c : Fin 4) (s : State) (fromE : Bool) (q : BitVec 48) (rest : List (Bool × BitVec 48)),
    let o := s.odo c.val
    let m := if fromE then 0 else 1
    let d := min (o.pos m - q).toNat (q - o.pos m).toNat
    o.sent = (fromE, q) :: rest ∧ (s.live m c.val = false ∨ d ≤ 8)) ∧
    (∃ (c : Fin 4) (s : State), (s.odo c.val).sent = []) ∧
    (∃ (c : Fin 4) (v : Word) (s : State), s.up = true) :=
  ⟨⟨0, 1, true, false, odoAt { posW := 99, preW := some (100, 7) } [], 10, 11, true, false, by unfold Counts; decide +kernel⟩,
    ⟨0, 1, true, true, odoAt { posW := 99, preW := some (100, 7) } [], 10, 11, true, true, by unfold Counts; decide +kernel⟩,
    ⟨0, 1, false, false, odoAt { posW := 99, preW := some (100, 7) } [], 10, 11, false, false,
      by unfold Counts; decide +kernel⟩,
    ⟨0, 1, true, false, up, by decide +kernel⟩,
    ⟨0, 1, true, false, odoAt { posW := 99 } [(8, act0 1)], 10, 11, true, false, 8, by unfold Counts; decide +kernel,
      by decide +kernel, by decide +kernel, by decide +kernel, by decide +kernel, by decide +kernel, (fun _ h => nomatch h),
      by decide +kernel⟩,
    ⟨0, 1, true, false, odoAt { posW := 50 } [(8, act0 1)], 10, 11, true, false, 8, by unfold Counts; decide +kernel,
      by decide +kernel, by decide +kernel, by decide +kernel, by decide +kernel, by decide +kernel, (fun _ h => nomatch h),
      by decide +kernel⟩,
    ⟨0, 1, true, false, odoAt { posW := 99 } [(8, act0 2)], 10, 11, true, false, 8, by unfold Counts; decide +kernel,
      by decide +kernel, by decide +kernel, by decide +kernel, by decide +kernel, by decide +kernel, (fun _ h => nomatch h),
      by decide +kernel⟩,
    ⟨0, 1, true, false, odoAt { posW := 99, preW := some (100, 7) } [(8, act0 2)], 10, 11, true, false, 8,
      by unfold Counts; decide +kernel, by decide +kernel, by decide +kernel, by decide +kernel, by decide +kernel,
      by decide +kernel, 7, by decide +kernel⟩,
    ⟨0, 1, true, false, odoAt { posW := 99, preW := some (100, 7) } [(8, act0 1)], 10, 11, true, false, 8,
      by unfold Counts; decide +kernel, by decide +kernel, by decide +kernel, by decide +kernel, by decide +kernel,
      by decide +kernel, 7, by decide +kernel⟩,
    ⟨0, 1, true, false, odoAt { posW := 99, preW := some (100, 200) } [(8, act0 1)], 10, 11, true, false, 8,
      by unfold Counts; decide +kernel, by decide +kernel, by decide +kernel, by decide +kernel, by decide +kernel,
      by decide +kernel, 200, by decide +kernel⟩,
    ⟨0, 1, true, false, odoAt { posW := 99, preW := some (100, 200) } [(8,
      { w0 := packF [(0, 48, 100), (48, 2, 1), (53, 1, 1), (56, 7, 12)], w1 := packF [(24, 2, 1)] })], 10, 11, true, false, 8,
      by unfold Counts; decide +kernel, by decide +kernel, by decide +kernel, by decide +kernel, by decide +kernel,
      by decide +kernel, 200, by decide +kernel⟩,
    ⟨1, odoAt { posW := 100, sent := [(true, 150)] } [], true, 150, [], by decide +kernel⟩,
    ⟨1, odoAt { posW := 100, sent := [(true, 108)] } [], true, 108, [], by decide +kernel⟩,
    ⟨1, odoAt {} [], by decide +kernel⟩,
    ⟨1, 5, odoAt {} [], by decide +kernel⟩⟩

theorem test_witness_IngressTokens :
    (∃ (m : Fin 2) (r : Fin 128) (ws : List Word) (s : State),
    let h := ws.getD 0 0
    let st := 16 * m.val + bits h 3 0
    let x := s.stream_ st
    let n := 8 * bits h 12 8
    let old := if x.cur.isSome then x.lines.map (fun l => if l.ended then l else { l with ended := true, short := true }) else x.lines
    let backlog := x.next.toNat - x.rel.toNat
    let fits := x.lineb ≤ ({ x with lines := old } : Stream).unreserved
    let deferred := s.keel.dstate = .freewheel ∨ x.livewin < backlog
    let dec := (x.dlevel ≠ 0 ∧ x.dlevel ≤ (tget ({} : RtPort) s.mem.rtport st).level.toNat) ∨ x.nslot - backlog ≤ x.dslots
    s.mem.resps = [] ∧ (badHeader ws = true ∨ x.en = false ∨ s.ingressOn = false ∨ x.region ≠ r.val ∨
      (s.region r.val).world ≠ x.world)) ∧
    (∃ (m : Fin 2) (r : Fin 128) (ws : List Word) (s : State),
    let h := ws.getD 0 0
    let st := 16 * m.val + bits h 3 0
    let x := s.stream_ st
    let n := 8 * bits h 12 8
    let old := if x.cur.isSome then x.lines.map (fun l => if l.ended then l else { l with ended := true, short := true }) else x.lines
    let backlog := x.next.toNat - x.rel.toNat
    let fits := x.lineb ≤ ({ x with lines := old } : Stream).unreserved
    let deferred := s.keel.dstate = .freewheel ∨ x.livewin < backlog
    let dec := (x.dlevel ≠ 0 ∧ x.dlevel ≤ (tget ({} : RtPort) s.mem.rtport st).level.toNat) ∨ x.nslot - backlog ≤ x.dslots
    badHeader ws = false ∧ x.en = true ∧ s.ingressOn = true ∧ x.region = r.val ∧ (s.region r.val).world = x.world ∧
      bit h 4 = true ∧ (∀ l ∈ old, l.ended = true) ∧ (s.boot.phase = .warm ∨ s.rimInReset m.val = true ∨ x.nslot ≤ backlog)) ∧
    (∃ (m : Fin 2) (r : Fin 128) (ws : List Word) (s : State),
    let h := ws.getD 0 0
    let st := 16 * m.val + bits h 3 0
    let x := s.stream_ st
    let n := 8 * bits h 12 8
    let old := if x.cur.isSome then x.lines.map (fun l => if l.ended then l else { l with ended := true, short := true }) else x.lines
    let backlog := x.next.toNat - x.rel.toNat
    let fits := x.lineb ≤ ({ x with lines := old } : Stream).unreserved
    let deferred := s.keel.dstate = .freewheel ∨ x.livewin < backlog
    let dec := (x.dlevel ≠ 0 ∧ x.dlevel ≤ (tget ({} : RtPort) s.mem.rtport st).level.toNat) ∨ x.nslot - backlog ≤ x.dslots
    badHeader ws = false ∧ x.en = true ∧ s.ingressOn = true ∧ x.region = r.val ∧ (s.region r.val).world = x.world ∧
      bit h 4 = true ∧ (∀ l ∈ old, l.ended = true) ∧ s.boot.phase ≠ .warm ∧ s.rimInReset m.val = false ∧ backlog < x.nslot) ∧
    (∃ (m : Fin 2) (r : Fin 128) (ws : List Word) (s : State),
    let h := ws.getD 0 0
    let st := 16 * m.val + bits h 3 0
    let x := s.stream_ st
    let n := 8 * bits h 12 8
    let old := if x.cur.isSome then x.lines.map (fun l => if l.ended then l else { l with ended := true, short := true }) else x.lines
    let backlog := x.next.toNat - x.rel.toNat
    let fits := x.lineb ≤ ({ x with lines := old } : Stream).unreserved
    let deferred := s.keel.dstate = .freewheel ∨ x.livewin < backlog
    let dec := (x.dlevel ≠ 0 ∧ x.dlevel ≤ (tget ({} : RtPort) s.mem.rtport st).level.toNat) ∨ x.nslot - backlog ≤ x.dslots
    badHeader ws = false ∧ x.en = true ∧ s.ingressOn = true ∧ x.region = r.val ∧ (s.region r.val).world = x.world ∧
      bit h 4 = false ∧ x.cur = none) ∧
    (∃ (m : Fin 2) (r : Fin 128) (ws : List Word) (s : State),
    let h := ws.getD 0 0
    let st := 16 * m.val + bits h 3 0
    let x := s.stream_ st
    let n := 8 * bits h 12 8
    let old := if x.cur.isSome then x.lines.map (fun l => if l.ended then l else { l with ended := true, short := true }) else x.lines
    let backlog := x.next.toNat - x.rel.toNat
    let fits := x.lineb ≤ ({ x with lines := old } : Stream).unreserved
    let deferred := s.keel.dstate = .freewheel ∨ x.livewin < backlog
    let dec := (x.dlevel ≠ 0 ∧ x.dlevel ≤ (tget ({} : RtPort) s.mem.rtport st).level.toNat) ∨ x.nslot - backlog ≤ x.dslots
    badHeader ws = false ∧ x.en = true ∧ s.ingressOn = true ∧ x.region = r.val ∧ (s.region r.val).world = x.world ∧ ∃ left,
      ∃ done, ∃ l, bit h 4 = false ∧ x.cur = some left ∧ x.lines = done ++ [l] ∧ (∀ y ∈ done, y.ended = true) ∧
      l.ended = false) ∧
    (∃ (m : Fin 2) (r : Fin 128) (ws : List Word) (s : State),
    let h := ws.getD 0 0
    let st := 16 * m.val + bits h 3 0
    let x := s.stream_ st
    let n := 8 * bits h 12 8
    let old := if x.cur.isSome then x.lines.map (fun l => if l.ended then l else { l with ended := true, short := true }) else x.lines
    let backlog := x.next.toNat - x.rel.toNat
    let fits := x.lineb ≤ ({ x with lines := old } : Stream).unreserved
    let deferred := s.keel.dstate = .freewheel ∨ x.livewin < backlog
    let dec := (x.dlevel ≠ 0 ∧ x.dlevel ≤ (tget ({} : RtPort) s.mem.rtport st).level.toNat) ∨ x.nslot - backlog ≤ x.dslots
    badHeader ws = false ∧ x.en = true ∧ s.ingressOn = true ∧ x.region = r.val ∧ (s.region r.val).world = x.world ∧ ∃ left,
      bit h 4 = false ∧ x.cur = some left ∧ (∀ y ∈ x.lines, y.ended = true)) :=
  ⟨⟨0, 5, [packF [(0, 4, 2), (8, 5, 3)], 1, 2], streamAt str2, by decide +kernel⟩,
    ⟨0, 5, [packF [(0, 4, 2), (4, 1, 1), (8, 5, 3)], 1, 2, 3], streamAt { str2 with next := 16 }, by decide +kernel⟩,
    ⟨0, 5, [packF [(0, 4, 2), (4, 1, 1), (8, 5, 3)], 1, 2, 3], streamAt str2, by decide +kernel⟩,
    ⟨0, 5, [packF [(0, 4, 2), (8, 5, 3)], 1, 2, 3], streamAt str2, by decide +kernel⟩,
    ⟨0, 5, [packF [(0, 4, 2), (8, 5, 3)], 1, 2, 3],
      streamAt { str2 with next := 2, cur := some 64, lines := [line0 true, line1] }, by decide +kernel, by decide +kernel,
      by decide +kernel, by decide +kernel, by decide +kernel, 64, [line0 true], line1, by decide +kernel⟩,
    ⟨0, 5, [packF [(0, 4, 2), (8, 5, 3)], 1, 2, 3], streamAt { str2 with next := 1, cur := some 64, lines := [line0 true] },
      by decide +kernel, by decide +kernel, by decide +kernel, by decide +kernel, by decide +kernel, 64, by decide +kernel⟩⟩

theorem test_witness_LinesAndStreamWords :
    (∃ (st : Nat) (s : State) (done : List Line) (l : Line),
    let x := s.stream_ st
    x.lines = done ++ [l] ∧ (x.lines.map (·.seq)).Nodup ∧ (∀ y ∈ done, ∀ k, y.issued ≤ k → y.ready k = false) ∧ (∀ y,
      done.head? = some y → y.written = true → y.recSent = true) ∧ l.fate ≠ 3 ∧ l.acked.length < l.parts ∧ (∀ k ∈ l.acked,
      k < l.issued)) ∧
    (∃ (st : Nat) (s : State) (l : Line) (rest : List Line),
    let x := s.stream_ st
    x.lines = l :: rest ∧ (x.lines.map (·.seq)).Nodup ∧ (∀ y ∈ x.lines, ∀ k, y.issued ≤ k → y.ready k = false) ∧
      l.written = true ∧ l.recSent = false ∧ s.boot.phase ≠ .warm ∧ s.rimInReset (st / 16) = false) ∧
    (∃ (i : Fin 32) (s : State) (q : MemResp) (before : List Line) (after : List Line) (l : Line) (k : Nat),
    let x := s.stream_ i.val
    (s.mem.resps.find? (fun r => (lineResp i.val r).isSome) = some q) ∧ q.src = .line i.val l.seq k ∧
      x.lines = before ++ l :: after ∧ (∀ y ∈ before ++ after, y.seq ≠ l.seq) ∧ k ≠ l.parts ∧ l.fate = 3) ∧
    (∃ (i : Fin 32) (s : State) (q : MemResp) (before : List Line) (after : List Line) (l : Line) (k : Nat),
    let x := s.stream_ i.val
    (s.mem.resps.find? (fun r => (lineResp i.val r).isSome) = some q) ∧ q.src = .line i.val l.seq k ∧
      x.lines = before ++ l :: after ∧ (∀ y ∈ before ++ after, y.seq ≠ l.seq) ∧ k ≠ l.parts ∧ l.fate ≠ 3 ∧ q.status = 0) ∧
    (∃ (i : Fin 32) (s : State) (q : MemResp) (before : List Line) (after : List Line) (l : Line) (k : Nat),
    let x := s.stream_ i.val
    (s.mem.resps.find? (fun r => (lineResp i.val r).isSome) = some q) ∧ q.src = .line i.val l.seq k ∧
      x.lines = before ++ l :: after ∧ (∀ y ∈ before ++ after, y.seq ≠ l.seq) ∧ k ≠ l.parts ∧ l.fate ≠ 3 ∧ q.status ≠ 0 ∧
      (q.status.toNat ≤ 2 ∨ x.en = false)) ∧
    (∃ (i : Fin 32) (s : State) (q : MemResp) (before : List Line) (after : List Line) (l : Line) (k : Nat),
    let x := s.stream_ i.val
    (s.mem.resps.find? (fun r => (lineResp i.val r).isSome) = some q) ∧ q.src = .line i.val l.seq k ∧
      x.lines = before ++ l :: after ∧ (∀ y ∈ before ++ after, y.seq ≠ l.seq) ∧ k ≠ l.parts ∧ l.fate ≠ 3 ∧ 2 < q.status.toNat ∧
      x.en = true) ∧
    (∃ (i : Fin 32) (s : State) (q : MemResp) (before : List Line) (after : List Line) (l : Line) (k : Nat),
    let x := s.stream_ i.val
    (s.mem.resps.find? (fun r => (lineResp i.val r).isSome) = some q) ∧ q.src = .line i.val l.seq k ∧
      x.lines = before ++ l :: after ∧ (∀ y ∈ before ++ after, y.seq ≠ l.seq) ∧ k = l.parts ∧ q.status.toNat ≤ 2) ∧
    (∃ (i : Fin 32) (s : State) (q : MemResp) (before : List Line) (after : List Line) (l : Line) (k : Nat),
    let x := s.stream_ i.val
    (s.mem.resps.find? (fun r => (lineResp i.val r).isSome) = some q) ∧ q.src = .line i.val l.seq k ∧
      x.lines = before ++ l :: after ∧ (∀ y ∈ before ++ after, y.seq ≠ l.seq) ∧ k = l.parts ∧ 2 < q.status.toNat ∧
      x.en = false) ∧
    (∃ (i : Fin 32) (s : State) (q : MemResp) (before : List Line) (after : List Line) (l : Line) (k : Nat),
    let x := s.stream_ i.val
    (s.mem.resps.find? (fun r => (lineResp i.val r).isSome) = some q) ∧ q.src = .line i.val l.seq k ∧
      x.lines = before ++ l :: after ∧ (∀ y ∈ before ++ after, y.seq ≠ l.seq) ∧ k = l.parts ∧ 2 < q.status.toNat ∧ x.en = true) ∧
    (∃ (m : Fin 2) (p : Fin 16) (v : Word) (s : State), s.up = true ∧
    let st := 16 * m.val + p.val
    let x := s.stream_ st
    let new := packF [(0, 3, bits v 2 0), (3, 4, if sbitsOk v then bits v 6 3 else bits x.cfg0 6 3), (7, 12, bits v 18 7),
      (24, 7, bits v 30 24), (32, 16, if bits v 47 32 < 63 then bits x.cfg0 47 32 else bits v 47 32)]
    x.en = false ∧ (bit v 0 = false ∨ s.enableOk m.val { x with cfg0 := new } v = true)) ∧
    (∃ (m : Fin 2) (p : Fin 16) (v : Word) (s : State), s.up = true ∧
    let st := 16 * m.val + p.val
    let x := s.stream_ st
    let new := packF [(0, 3, bits v 2 0), (3, 4, if sbitsOk v then bits v 6 3 else bits x.cfg0 6 3), (7, 12, bits v 18 7),
      (24, 7, bits v 30 24), (32, 16, if bits v 47 32 < 63 then bits x.cfg0 47 32 else bits v 47 32)]
    x.en = false ∧ bit v 0 = true ∧ s.enableOk m.val { x with cfg0 := new } v = false) ∧
    (∃ (m : Fin 2) (p : Fin 16) (v : Word) (s : State), s.up = true ∧
    let st := 16 * m.val + p.val
    let x := s.stream_ st
    x.en = true ∧ ∃ (k : Fin 3), (k.val ≠ 0 ∨ bit v 0 = true)) ∧
    (∃ (m : Fin 2) (p : Fin 16) (v : Word) (s : State), s.up = true ∧
    let st := 16 * m.val + p.val
    let x := s.stream_ st
    x.en = true ∧ bit v 0 = false) ∧
    (∃ (c : Fin 64) (s : State) (i : Nat) (e : LgEntry), Running s c.val 0x48 i e ∧ s.rsvd i [(0, 63, 5), (1, 63,
      48)] = false ∧
    let st := bits (s.pw i 0) 4 0
    let l := bits (s.pw i 1) 47 0
    (e.world = true ∨ (s.stream_ st).world = false) ∧ s.keel.rebuilt.contains i = false ∧ (s.stream_ st).rel.toNat ≤ l ∧
      l ≤ (s.stream_ st).done.toNat) ∧
    (∃ (c : Fin 64) (s : State) (i : Nat) (e : LgEntry), Running s c.val 0x48 i e ∧ s.rsvd i [(0, 63, 5), (1, 63,
      48)] = false ∧
    let st := bits (s.pw i 0) 4 0
    let l := bits (s.pw i 1) 47 0
    (e.world = true ∨ (s.stream_ st).world = false) ∧ s.keel.rebuilt.contains i = false ∧ (l < (s.stream_ st).rel.toNat ∨
      (s.stream_ st).done.toNat < l)) :=
  ⟨⟨2, streamAt { str2 with next := 1, lines := [line0 false] }, [], line0 false, by decide +kernel, by decide +kernel,
    (fun _ h => nomatch h), (fun _ h => nomatch h), by decide +kernel⟩,
    ⟨2, streamAt { str2 with next := 1, lines := [{ line0 true with acked := [0] }] }, { line0 true with acked := [0] }, [],
      by decide +kernel, by decide +kernel,
      (by intro y hy k hk; obtain rfl := List.mem_singleton.1 hy; simp [Line.ready, Line.parts, line0, cdiv] at hk ⊢; omega),
      by decide +kernel⟩,
    ⟨2, lineAt { str2 with next := 1, lines := [{ line0 false with fate := 3 }] } (answered 0 0), answered 0 0, [], [],
      { line0 false with fate := 3 }, 0, by decide +kernel⟩,
    ⟨2, lineAt { str2 with next := 1, lines := [line0 false] } (answered 0 0), answered 0 0, [], [], line0 false, 0,
      by decide +kernel⟩,
    ⟨2, lineAt { str2 with next := 1, lines := [line0 true] } (answered 0 2), answered 0 2, [], [], line0 true, 0,
      by decide +kernel⟩,
    ⟨2, lineAt { str2 with next := 1, lines := [line0 true] } (answered 0 4), answered 0 4, [], [], line0 true, 0,
      by decide +kernel⟩,
    ⟨2, lineAt { str2 with next := 1, lines := [{ line0 true with acked := [0], recSent := true }] } (answered 1 0),
      answered 1 0, [], [], { line0 true with acked := [0], recSent := true }, 1, by decide +kernel⟩,
    ⟨2, lineAt { str2 with next := 1, lines := [{ line0 true with acked := [0], recSent := true }], cfg0 := 2 } (answered 1 4),
      answered 1 4, [], [], { line0 true with acked := [0], recSent := true }, 1, by decide +kernel⟩,
    ⟨2, lineAt { str2 with next := 1, lines := [{ line0 true with acked := [0], recSent := true }] } (answered 1 4),
      answered 1 4, [], [], { line0 true with acked := [0], recSent := true }, 1, by decide +kernel⟩,
    ⟨0, 2, packF [(0, 1, 1), (3, 4, 7), (15, 2, 1), (24, 7, 5), (32, 16, 127)], odoStream, by decide +kernel⟩,
    ⟨0, 2, packF [(0, 1, 1), (3, 4, 7), (15, 2, 2), (24, 7, 5), (32, 16, 127)], odoStream, by decide +kernel⟩,
    ⟨0, 2, 5, streamAt str2, by decide +kernel, by decide +kernel, 0, by decide +kernel⟩,
    ⟨0, 2, 4, streamAt str2, by decide +kernel⟩,
    ⟨1, cmd 0x48 [2, 3] (streamAt { str2 with done := 3 }), 5, eCmd 0x48 2, by unfold Running; decide +kernel⟩,
    ⟨1, cmd 0x48 [2, 4] (streamAt { str2 with done := 3 }), 5, eCmd 0x48 2, by unfold Running; decide +kernel⟩⟩

theorem test_witness_PacketIntake :
    (∃ (src : IntakeSrc) (path : OutPath) (s : State) (s' : State) (p : Packet), Arrives s s' src path p ∧
      ¬ ForOther s path p ∧ ∃ r, (s'.early path p = some r ∨ (s'.early path p = none ∧ s'.late p = some r))) ∧
    (∃ (src : IntakeSrc) (path : OutPath) (s : State) (s' : State) (p : Packet), Arrives s s' src path p ∧
      ¬ ForOther s path p ∧ s'.early path p = none ∧ s'.late p = none ∧ Rising s.keel.ledger ∧ p.opc = 0) ∧
    (∃ (src : IntakeSrc) (path : OutPath) (s : State) (s' : State) (p : Packet), Arrives s s' src path p ∧
    let c := p.chan
    ¬ ForOther s path p ∧ s'.early path p = none ∧ s'.late p = none ∧ Rising s.keel.ledger ∧ p.opc ≠ 0 ∧
      p.seq = (s.chan c).next.toNat) ∧
    (∃ (src : IntakeSrc) (path : OutPath) (s : State) (s' : State) (p : Packet), Arrives s s' src path p ∧
    let c := p.chan
    ¬ ForOther s path p ∧ s'.early path p = none ∧ s'.late p = none ∧ Rising s.keel.ledger ∧ p.opc ≠ 0 ∧
      p.seq ≠ (s.chan c).next.toNat ∧ ∃ j, ∃ e, ∃ r, s.findSeq c p.seq = some (j, e) ∧ e.state = .complete ∧ e.reply = some r ∧
      p.seq < (s.chan c).replyNext ∧ p.rack < p.seq) ∧
    (∃ (src : IntakeSrc) (path : OutPath) (s : State) (s' : State) (p : Packet), Arrives s s' src path p ∧
    let c := p.chan
    ¬ ForOther s path p ∧ s'.early path p = none ∧ s'.late p = none ∧ Rising s.keel.ledger ∧ p.opc ≠ 0 ∧
      p.seq ≠ (s.chan c).next.toNat ∧ (∀ j e r, s.findSeq c p.seq = some (j, e) → e.state = .complete → e.reply = some r →
      (s.chan c).replyNext ≤ p.seq ∨ p.seq ≤ p.rack)) ∧
    (∃ (src : IntakeSrc) (path : OutPath) (s : State) (s' : State) (p : Packet), Arrives s s' src path p ∧ ForOther s path p ∧
      ∃ r, s'.early path p = some r) ∧
    (∃ (src : IntakeSrc) (path : OutPath) (s : State) (s' : State) (p : Packet), Arrives s s' src path p ∧
    let c := p.chan
    ForOther s path p ∧ s'.early path p = none ∧ (s.chan c).world = false) ∧
    (∃ (src : IntakeSrc) (path : OutPath) (s : State) (s' : State) (p : Packet), Arrives s s' src path p ∧
    let c := p.chan
    ForOther s path p ∧ s'.early path p = none ∧ (s.chan c).world = true ∧ (∀ v, tlook p.member s.ser.pel.routes ≠ some (v,
      true))) ∧
    (∃ (src : IntakeSrc) (path : OutPath) (s : State) (s' : State) (p : Packet), Arrives s s' src path p ∧
    let c := p.chan
    ForOther s path p ∧ ∃ v, s'.early path p = none ∧ (s.chan c).world = true ∧ tlook p.member s.ser.pel.routes = some (v,
      true)) ∧
    (∃ (c : Fin 64) (s : State) (a : Accepting), (s.keel.accepting.find? (fun a => decide (a.chan = c.val)) = some a) ∧
      ∃ (u : Nat), s.keel.mirror = 3 ∧ s.freeUnits (unitsOf a.pkt.plen) = some u ∧ freeIndex 0 s.keel.ledger < 131072) ∧
    (∃ (c : Fin 64) (s : State) (a : Accepting), (s.keel.accepting.find? (fun a => decide (a.chan = c.val)) = some a) ∧
      (s.keel.mirror ≠ 3 ∨ s.freeUnits (unitsOf a.pkt.plen) = none ∨ 131072 ≤ freeIndex 0 s.keel.ledger)) :=
  ⟨⟨.host true ((pkt 1 0 0 0 []).set 24 7), .host true, up, up, pkOf ((pkt 1 0 0 0 []).set 24 7),
    by unfold Arrives; decide +kernel, by unfold ForOther; decide +kernel, 1, by decide +kernel⟩,
    ⟨.host true (pkt 0 0 0 5 []), .host true, up, up, pkOf (pkt 0 0 0 5 []), by unfold Arrives ForOther; decide +kernel⟩,
    ⟨.host true (pkt 1 0 0 5 []), .host true, up, up, pkOf (pkt 1 0 0 5 []), by unfold Arrives ForOther; decide +kernel⟩,
    ⟨.host true (pkt 1 1 0 0 []), .host true, withLg [(5,
      doneRep 1 { status := 0 })] (chan1 { isOpen := true, next := 5, replyNext := 3 }), withLg [(5,
      doneRep 1 { status := 0 })] (chan1 { isOpen := true, next := 5, replyNext := 3 }), pkOf (pkt 1 1 0 0 []),
      by unfold Arrives; decide +kernel, by unfold ForOther; decide +kernel, by decide +kernel, by decide +kernel,
      by decide +kernel, by decide +kernel, by decide +kernel, 5, doneRep 1 { status := 0 }, { status := 0 },
      by decide +kernel⟩,
    ⟨.host true (pkt 1 2 0 0 []), .host true, withLg [(5,
      doneRep 1 { status := 0 })] (chan1 { isOpen := true, next := 5, replyNext := 3 }), withLg [(5,
      doneRep 1 { status := 0 })] (chan1 { isOpen := true, next := 5, replyNext := 3 }), pkOf (pkt 1 2 0 0 []),
      by unfold Arrives; decide +kernel, by unfold ForOther; decide +kernel, by decide +kernel, by decide +kernel,
      by decide +kernel, by decide +kernel, by decide +kernel, (fun _ _ _ h => nomatch h)⟩,
    ⟨.host true ((pktM 1 0 0 0 false).set 24 7), .host true, up, up, pkOf ((pktM 1 0 0 0 false).set 24 7),
      by unfold Arrives; decide +kernel, by unfold ForOther; decide +kernel, 1, by decide +kernel⟩,
    ⟨.host true (pktM 1 0 0 0 false), .host true, up, up, pkOf (pktM 1 0 0 0 false),
      by unfold Arrives ForOther; decide +kernel⟩,
    ⟨.host true (pktM 1 0 0 0 true), .host true, chan1 { isOpen := true, world := true },
      chan1 { isOpen := true, world := true }, pkOf (pktM 1 0 0 0 true), by unfold Arrives ForOther; decide +kernel⟩,
    ⟨.host true (pktM 1 0 0 0 true), .host true,
      chan1 { isOpen := true, world := true } { up with ser := { pel := { routes := [(5, (4, true))] } } },
      chan1 { isOpen := true, world := true } { up with ser := { pel := { routes := [(5, (4, true))] } } },
      pkOf (pktM 1 0 0 0 true), by unfold Arrives; decide +kernel, by unfold ForOther; decide +kernel, 4, by decide +kernel⟩,
    ⟨1, { up with keel := { up.keel with accepting := [{ pkt := pk0, chan := 1 }] } }, { pkt := pk0, chan := 1 },
      by decide +kernel, 0, by decide +kernel⟩,
    ⟨1, { up with keel := { up.keel with accepting := [{ pkt := pk0, chan := 1 }], mirror := 1 } }, { pkt := pk0, chan := 1 },
      by decide +kernel⟩⟩

theorem test_witness_StartsAndReplies :
    (∃ (c : Fin 64) (s : State) (i : Nat) (e : LgEntry), s.up = true ∧ s.keel.current = none ∧ s.nextStart c.val = some (i,
      e) ∧ s.entry i = some e ∧ e.state ≠ .complete ∧
    let queue := s.keel.replayQ.filter (· ≠ i)
    let count := if s.keel.replayQ.contains i then satInc s.keel.replayed else s.keel.replayed
    ∃ m, s.markFor i e = some m ∧ s.boot.warmCmds.contains i = false) ∧
    (∃ (c : Fin 64) (s : State) (i : Nat) (e : LgEntry), s.up = true ∧ s.keel.current = none ∧ s.nextStart c.val = some (i,
      e) ∧ s.entry i = some e ∧ e.state ≠ .complete ∧
    let queue := s.keel.replayQ.filter (· ≠ i)
    let count := if s.keel.replayQ.contains i then satInc s.keel.replayed else s.keel.replayed
    ∃ m, s.markFor i e = some m ∧ s.boot.warmCmds.contains i = true) ∧
    (∃ (c : Fin 64) (s : State) (i : Nat) (e : LgEntry), s.up = true ∧ s.keel.current = none ∧ s.nextStart c.val = some (i,
      e) ∧ s.entry i = some e ∧ e.state ≠ .complete ∧
    let queue := s.keel.replayQ.filter (· ≠ i)
    let count := if s.keel.replayQ.contains i then satInc s.keel.replayed else s.keel.replayed
    s.markFor i e = none ∧ s.startCheck i e = none ∧ e.opc ≠ 0x11 ∧ e.opc ≠ 0x12) ∧
    (∃ (c : Fin 64) (s : State) (i : Nat) (e : LgEntry), s.up = true ∧ s.keel.current = none ∧ s.nextStart c.val = some (i,
      e) ∧ s.entry i = some e ∧ e.state ≠ .complete ∧
    let queue := s.keel.replayQ.filter (· ≠ i)
    let count := if s.keel.replayQ.contains i then satInc s.keel.replayed else s.keel.replayed
    s.markFor i e = none ∧ s.startCheck i e = none ∧ (e.opc = 0x11 ∨ e.opc = 0x12)) ∧
    (∃ (c : Fin 64) (s : State) (i : Nat) (e : LgEntry), s.up = true ∧ s.keel.current = none ∧ s.nextStart c.val = some (i,
      e) ∧ s.entry i = some e ∧ e.state ≠ .complete ∧
    let queue := s.keel.replayQ.filter (· ≠ i)
    let count := if s.keel.replayQ.contains i then satInc s.keel.replayed else s.keel.replayed
    s.markFor i e = none ∧ ∃ st, s.startCheck i e = some st) ∧
    (∃ (c : Fin 64) (s : State), (s.keel.current.isSome ∨ s.nextStart c.val = none ∨ s.up = false)) ∧
    (∃ (s : State) (i : Nat) (e : LgEntry) (r : Reply), s.entry i = some e ∧ e.state = .complete) ∧
    (∃ (s : State) (i : Nat) (e : LgEntry) (r : Reply), s.entry i = some e ∧ e.state ≠ .complete ∧ ∃ j, j ≠ i) ∧
    (∃ (c : Fin 64) (s : State) (i : Nat) (e : LgEntry) (r : Reply),
    let x := s.chan c.val
    s.up = true ∧ s.lostPath (s.pathOf c.val) = false ∧ s.nextReply c.val = some (i, e) ∧ e.chan.toNat = c.val ∧
      e.state = .complete ∧ e.reply = some r) ∧
    (∃ (c : Fin 64) (s : State), (s.up = false ∨ s.lostPath (s.pathOf c.val) = true ∨ s.nextReply c.val = none ∨ ∃ i e,
      s.nextReply c.val = some (i, e) ∧ (e.state ≠ .complete ∨ e.reply = none))) ∧
    (∃ (s : State) (e : EventRec) (rest : List EventRec), s.keel.events = e :: rest ∧ s.up = true ∧
      s.lostPath s.eventPath = false) ∧
    (∃ (s : State) (e : EventRec) (rest : List EventRec), s.keel.events = e :: rest ∧ s.lostPath s.eventPath = true) :=
  ⟨⟨1, again5, 5, marked0, by decide +kernel, by decide +kernel, by decide +kernel, by decide +kernel, by decide +kernel,
    mark0, by decide +kernel⟩,
    ⟨1, { (again5) with boot := { up.boot with warmCmds := [5] } }, 5, marked0, by decide +kernel, by decide +kernel,
      by decide +kernel, by decide +kernel, by decide +kernel, mark0, by decide +kernel⟩,
    ⟨1, waits .running 1 [], 5, lgE 1 9 .accepted 0, by decide +kernel⟩,
    ⟨1, waits .armed 0x12 [BitVec.ofNat 64 (slotBase 1), 0, 0], 5, lgE 0x12 9 .accepted 24, by decide +kernel⟩,
    ⟨1, waits .running 1 [0], 5, lgE 1 9 .accepted 8, by decide +kernel, by decide +kernel, by decide +kernel,
      by decide +kernel, by decide +kernel, by decide +kernel, 0x12, by decide +kernel⟩,
    ⟨1, up, by decide +kernel⟩,
    ⟨withLg [(5, doneRep 9 { status := 0x11, det0 := 3 })] up, 5, doneRep 9 { status := 0x11, det0 := 3 }, { status := 0 },
      by decide +kernel⟩,
    ⟨withLg [(5, eTask)] up, 5, eTask, { status := 0 }, by decide +kernel, by decide +kernel, 6, by decide +kernel⟩,
    ⟨1, withLg [(5, doneRep 9 { status := 0x11, det0 := 3 })] (chan1 { isOpen := true, freedE := 70000, freedP := 3 }), 5,
      doneRep 9 { status := 0x11, det0 := 3 }, { status := 0x11, det0 := 3 }, by decide +kernel⟩,
    ⟨1, up, (.inr (.inr (.inl (by decide +kernel))))⟩,
    ⟨{ up with keel := { up.keel with events := [ev0] } }, ev0, [], by decide +kernel⟩,
    ⟨{ up with keel := { up.keel with events := [ev0], lostPaths := [.host0, .host1] } }, ev0, [], by decide +kernel⟩⟩

theorem test_witness_ChannelAndAccessCommands :
    (∃ (c : Fin 64) (s : State) (i : Nat) (e : LgEntry), Running s c.val 0x01 i e) ∧
    (∃ (c : Fin 64) (s : State) (i : Nat) (e : LgEntry), Running s c.val 0x02 i e ∧
    let ch := bits (s.pw i 0) 7 0
    let y := s.chan ch
    let on := bit (s.pw i 0) 8
    let w := bit (s.pw i 0) 9
    let path := BitVec.ofNat 2 (bits (s.pw i 0) 11 10)
    let qe := bits (s.pw i 1) 17 0
    let qp := bits (s.pw i 1) 51 32
    let next := bits (s.pw i 2) 47 0
    let bad : Prop := s.rsvd i [(0, 63, 12), (1, 31, 18), (1, 63, 52), (2, 63, 48)] = true ∨ 63 < ch ∨ path = 1 ∨ ch = c.val ∨
      (on = true ∧ s.quotaBad ch qe qp = true)
    bad) ∧
    (∃ (c : Fin 64) (s : State) (i : Nat) (e : LgEntry), Running s c.val 0x02 i e ∧
    let ch := bits (s.pw i 0) 7 0
    let y := s.chan ch
    let on := bit (s.pw i 0) 8
    let w := bit (s.pw i 0) 9
    let path := BitVec.ofNat 2 (bits (s.pw i 0) 11 10)
    let qe := bits (s.pw i 1) 17 0
    let qp := bits (s.pw i 1) 51 32
    let next := bits (s.pw i 2) 47 0
    let bad : Prop := s.rsvd i [(0, 63, 12), (1, 31, 18), (1, 63, 52), (2, 63, 48)] = true ∨ 63 < ch ∨ path = 1 ∨ ch = c.val ∨
      (on = true ∧ s.quotaBad ch qe qp = true)
    let same : Prop := y.isOpen = true ∧ on = true ∧ y.world = w ∧ y.path = path ∧ y.quotaE.toNat = qe ∧ y.quotaP.toNat = qp ∧
      y.next.toNat = next
    ¬ bad ∧ ¬ same ∧ y.isOpen = true ∧ s.chanBusy ch = true) ∧
    (∃ (c : Fin 64) (s : State) (i : Nat) (e : LgEntry), Running s c.val 0x02 i e ∧
    let ch := bits (s.pw i 0) 7 0
    let y := s.chan ch
    let on := bit (s.pw i 0) 8
    let w := bit (s.pw i 0) 9
    let path := BitVec.ofNat 2 (bits (s.pw i 0) 11 10)
    let qe := bits (s.pw i 1) 17 0
    let qp := bits (s.pw i 1) 51 32
    let next := bits (s.pw i 2) 47 0
    let bad : Prop := s.rsvd i [(0, 63, 12), (1, 31, 18), (1, 63, 52), (2, 63, 48)] = true ∨ 63 < ch ∨ path = 1 ∨ ch = c.val ∨
      (on = true ∧ s.quotaBad ch qe qp = true)
    let same : Prop := y.isOpen = true ∧ on = true ∧ y.world = w ∧ y.path = path ∧ y.quotaE.toNat = qe ∧ y.quotaP.toNat = qp ∧
      y.next.toNat = next
    ¬ bad ∧ (same ∨ y.isOpen = false ∨ s.chanBusy ch = false)) ∧
    (∃ (c : Fin 64) (ecc : List CodeWordError) (s : State) (i : Nat) (e : LgEntry), Running s c.val 0x03 i e ∧
    let a := bits (s.pw i 0) 39 0
    let n := bits (s.pw i 0) 52 40
    let bad : Prop := s.rsvd i [(0, 63, 53)] = true ∨ a % 8 ≠ 0 ∨ n < 8 ∨ 4096 < n ∨ n % 8 ≠ 0
    bad) ∧
    (∃ (c : Fin 64) (ecc : List CodeWordError) (s : State) (i : Nat) (e : LgEntry), Running s c.val 0x03 i e ∧
    let a := bits (s.pw i 0) 39 0
    let n := bits (s.pw i 0) 52 40
    let bad : Prop := s.rsvd i [(0, 63, 53)] = true ∨ a % 8 ≠ 0 ∨ n < 8 ∨ 4096 < n ∨ n % 8 ≠ 0
    ¬ bad ∧ s.memHeld a n = true) ∧
    (∃ (c : Fin 64) (ecc : List CodeWordError) (s : State) (i : Nat) (e : LgEntry), Running s c.val 0x03 i e ∧
    let a := bits (s.pw i 0) 39 0
    let n := bits (s.pw i 0) 52 40
    let regs : Prop := keelBase ≤ a ∧ a + n ≤ 0x10000000000
    let bad : Prop := s.rsvd i [(0, 63, 53)] = true ∨ a % 8 ≠ 0 ∨ n < 8 ∨ 4096 < n ∨ n % 8 ≠ 0
    ¬ bad ∧ s.memHeld a n = false ∧ regs) ∧
    (∃ (c : Fin 64) (ecc : List CodeWordError) (s : State) (i : Nat) (e : LgEntry), Running s c.val 0x03 i e ∧
    let a := bits (s.pw i 0) 39 0
    let n := bits (s.pw i 0) 52 40
    let regs : Prop := keelBase ≤ a ∧ a + n ≤ 0x10000000000
    let bad : Prop := s.rsvd i [(0, 63, 53)] = true ∨ a % 8 ≠ 0 ∨ n < 8 ∨ 4096 < n ∨ n % 8 ≠ 0
    ¬ bad ∧ s.memHeld a n = false ∧ ¬ regs ∧ readBar s e.world a n = 3) ∧
    (∃ (c : Fin 64) (ecc : List CodeWordError) (s : State) (i : Nat) (e : LgEntry), Running s c.val 0x03 i e ∧
    let a := bits (s.pw i 0) 39 0
    let n := bits (s.pw i 0) 52 40
    let regs : Prop := keelBase ≤ a ∧ a + n ≤ 0x10000000000
    let bad : Prop := s.rsvd i [(0, 63, 53)] = true ∨ a % 8 ≠ 0 ∨ n < 8 ∨ 4096 < n ∨ n % 8 ≠ 0
    ¬ bad ∧ s.memHeld a n = false ∧ ¬ regs ∧ readBar s e.world a n ≠ 3 ∧ readBar s e.world a n ≠ 0) ∧
    (∃ (c : Fin 64) (ecc : List CodeWordError) (s : State) (i : Nat) (e : LgEntry), Running s c.val 0x03 i e ∧
    let a := bits (s.pw i 0) 39 0
    let n := bits (s.pw i 0) 52 40
    let regs : Prop := keelBase ≤ a ∧ a + n ≤ 0x10000000000
    let bad : Prop := s.rsvd i [(0, 63, 53)] = true ∨ a % 8 ≠ 0 ∨ n < 8 ∨ 4096 < n ∨ n % 8 ≠ 0
    ¬ bad ∧ s.memHeld a n = false ∧ ¬ regs ∧ readBar s e.world a n = 0 ∧
    let u := s.begun.eccRange a n ecc
    (u.memRead a n).1 = 0) ∧
    (∃ (c : Fin 64) (ecc : List CodeWordError) (s : State) (i : Nat) (e : LgEntry), Running s c.val 0x03 i e ∧
    let a := bits (s.pw i 0) 39 0
    let n := bits (s.pw i 0) 52 40
    let regs : Prop := keelBase ≤ a ∧ a + n ≤ 0x10000000000
    let bad : Prop := s.rsvd i [(0, 63, 53)] = true ∨ a % 8 ≠ 0 ∨ n < 8 ∨ 4096 < n ∨ n % 8 ≠ 0
    ¬ bad ∧ s.memHeld a n = false ∧ ¬ regs ∧ readBar s e.world a n = 0 ∧
    let u := s.begun.eccRange a n ecc
    (u.memRead a n).1 = 1) ∧
    (∃ (c : Fin 64) (ecc : List CodeWordError) (s : State) (i : Nat) (e : LgEntry), Running s c.val 0x03 i e ∧
    let a := bits (s.pw i 0) 39 0
    let n := bits (s.pw i 0) 52 40
    let regs : Prop := keelBase ≤ a ∧ a + n ≤ 0x10000000000
    let bad : Prop := s.rsvd i [(0, 63, 53)] = true ∨ a % 8 ≠ 0 ∨ n < 8 ∨ 4096 < n ∨ n % 8 ≠ 0
    ¬ bad ∧ s.memHeld a n = false ∧ ¬ regs ∧ readBar s e.world a n = 0 ∧
    let u := s.begun.eccRange a n ecc
    1 < (u.memRead a n).1) ∧
    (∃ (c : Fin 64) (ecc : List CodeWordError) (s : State) (i : Nat) (e : LgEntry), Running s c.val 0x04 i e ∧
      s.mem.resps = [] ∧
    let a := bits (s.pw i 0) 39 0
    let data := (s.paramsOf i).drop 8
    let bad : Prop := s.rsvd i [(0, 63, 40)] = true ∨ a % 8 ≠ 0
    bad) ∧
    (∃ (c : Fin 64) (ecc : List CodeWordError) (s : State) (i : Nat) (e : LgEntry), Running s c.val 0x04 i e ∧
      s.mem.resps = [] ∧
    let a := bits (s.pw i 0) 39 0
    let data := (s.paramsOf i).drop 8
    let regs : Prop := keelBase ≤ a ∧ a + data.length ≤ 0x10000000000
    let bad : Prop := s.rsvd i [(0, 63, 40)] = true ∨ a % 8 ≠ 0
    ¬ bad ∧ regs) ∧
    (∃ (c : Fin 64) (ecc : List CodeWordError) (s : State) (i : Nat) (e : LgEntry), Running s c.val 0x04 i e ∧
      s.mem.resps = [] ∧
    let a := bits (s.pw i 0) 39 0
    let data := (s.paramsOf i).drop 8
    let regs : Prop := keelBase ≤ a ∧ a + data.length ≤ 0x10000000000
    let bad : Prop := s.rsvd i [(0, 63, 40)] = true ∨ a % 8 ≠ 0
    let k := s.memCheck e.world a data.length
    ¬ bad ∧ ¬ regs ∧ k = 3) ∧
    (∃ (c : Fin 64) (ecc : List CodeWordError) (s : State) (i : Nat) (e : LgEntry), Running s c.val 0x04 i e ∧
      s.mem.resps = [] ∧
    let a := bits (s.pw i 0) 39 0
    let data := (s.paramsOf i).drop 8
    let regs : Prop := keelBase ≤ a ∧ a + data.length ≤ 0x10000000000
    let bad : Prop := s.rsvd i [(0, 63, 40)] = true ∨ a % 8 ≠ 0
    let k := s.memCheck e.world a data.length
    ¬ bad ∧ ¬ regs ∧ k ≠ 3 ∧ k ≠ 0) ∧
    (∃ (c : Fin 64) (ecc : List CodeWordError) (s : State) (i : Nat) (e : LgEntry), Running s c.val 0x04 i e ∧
      s.mem.resps = [] ∧
    let a := bits (s.pw i 0) 39 0
    let data := (s.paramsOf i).drop 8
    let regs : Prop := keelBase ≤ a ∧ a + data.length ≤ 0x10000000000
    let bad : Prop := s.rsvd i [(0, 63, 40)] = true ∨ a % 8 ≠ 0
    let k := s.memCheck e.world a data.length
    ¬ bad ∧ ¬ regs ∧ k = 0 ∧ s.memHeld a data.length = true) ∧
    (∃ (c : Fin 64) (ecc : List CodeWordError) (s : State) (i : Nat) (e : LgEntry), Running s c.val 0x04 i e ∧
      s.mem.resps = [] ∧
    let a := bits (s.pw i 0) 39 0
    let data := (s.paramsOf i).drop 8
    let regs : Prop := keelBase ≤ a ∧ a + data.length ≤ 0x10000000000
    let bad : Prop := s.rsvd i [(0, 63, 40)] = true ∨ a % 8 ≠ 0
    let k := s.memCheck e.world a data.length
    ¬ bad ∧ ¬ regs ∧ k = 0 ∧ s.memHeld a data.length = false) :=
  ⟨⟨1, (cmd 1 []), 5, eCmd 1 0, by unfold Running; decide +kernel⟩,
    ⟨1, (cmd 2 [packF [(0, 8, 64), (8, 2, 3), (10, 2, 2)], 0, 9]), 5, eCmd 2 3, by unfold Running; decide +kernel⟩,
    ⟨1, (cmd 2 [packF [(0, 8, 2), (8, 2, 3), (10, 2, 2)], packF [(0, 18, 7), (32, 20, 8)],
      9] ({ up with keel := { up.keel with chans := [(2, { isOpen := true })], accepting := [{ pkt := pk0, chan := 2 }] } })),
      5, eCmd 2 3, by unfold Running; decide +kernel⟩,
    ⟨1, (cmd 2 [packF [(0, 8, 2), (8, 2, 3), (10, 2, 2)], packF [(0, 18, 7), (32, 20, 8)], 9]), 5, eCmd 2 3,
      by unfold Running; decide +kernel⟩,
    ⟨1, [], (cmd 3 [packF [(0, 40, 0x1001), (40, 13, 8)]]), 5, eCmd 3 1, by unfold Running; decide +kernel⟩,
    ⟨1, [], (cmd 3 [packF [(0, 40, 0x1000), (40, 13, 8)]] (memDef false { chans := [(4, { state := 2 })] })), 5, eCmd 3 1,
      by unfold Running; decide +kernel⟩,
    ⟨1, [], (cmd 3 [packF [(0, 40, 0xFC00020088), (40, 13, 8)]]), 5, eCmd 3 1, by unfold Running; decide +kernel⟩,
    ⟨1, [], (cmdW false 3 [packF [(0, 40, 0x1000), (40, 13, 8)]] (memDef true {})), 5, { eCmd 3 1 with world := false },
      by unfold Running; decide +kernel⟩,
    ⟨1, [], (cmd 3 [packF [(0, 40, 0x1000), (40, 13, 8)]]), 5, eCmd 3 1, by unfold Running; decide +kernel⟩,
    ⟨1, [], (cmd 3 [packF [(0, 40, 0x1000), (40, 13, 8)]] (memDef false {})), 5, eCmd 3 1, by unfold Running; decide +kernel⟩,
    ⟨1, [], (cmd 3 [packF [(0, 40, 0x1000), (40, 13, 8)]] (memDef false { bad := [memKey 4 0] })), 5, eCmd 3 1,
      by unfold Running; decide +kernel⟩,
    ⟨1, [], (cmd 3 [packF [(0, 40, 0x1000), (40, 13, 8)]] (memDef false { failed := [(1, 3)] })), 5, eCmd 3 1,
      by unfold Running; decide +kernel⟩,
    ⟨1, [], (cmd 4 [0x1001, 77]), 5, eCmd 4 2, by unfold Running; decide +kernel⟩,
    ⟨1, [], (cmd 4 [0xFC00020088, 77]), 5, eCmd 4 2, by unfold Running; decide +kernel⟩,
    ⟨1, [], (cmdW false 4 [0x1000, 77] (memDef true {})), 5, { eCmd 4 2 with world := false },
      by unfold Running; decide +kernel⟩,
    ⟨1, [], (cmd 4 [0x1000, 77]), 5, eCmd 4 2, by unfold Running; decide +kernel⟩,
    ⟨1, [], (cmd 4 [0x1000, 77] (memDef false { chans := [(4, { state := 2 })] })), 5, eCmd 4 2,
      by unfold Running; decide +kernel⟩,
    ⟨1, [], (cmd 4 [0x1000, 77] (memDef false {})), 5, eCmd 4 2, by unfold Running; decide +kernel⟩⟩

theorem test_witness_DeviceStates :
    (∃ (c : Fin 64) (s : State) (i : Nat) (e : LgEntry), Running s c.val 0x20 i e) ∧
    (∃ (c : Fin 64) (s : State) (i : Nat) (e : LgEntry), Running s c.val 0x21 i e) ∧
    (∃ (c : Fin 64) (s : State) (i : Nat) (e : LgEntry), Running s c.val 0x22 i e) ∧
    (∃ (c : Fin 64) (s : State) (i : Nat) (e : LgEntry), Running s c.val 0x23 i e) ∧
    (∃ (c : Fin 64) (s : State) (i : Nat) (e : LgEntry), Running s c.val 0x24 i e) ∧
    (∃ (s : State) (i : Nat) (before : List (BitVec 32)) (rest : List (Nat × List (BitVec 32))) (e : LgEntry),
      s.keel.quiescing = (i, before) :: rest ∧
    let runs : Prop := ∃ x ∈ s.keel.ledger, x.2.opc = 0x30 ∧ x.2.state = .started ∧ x.2.order ∈ before
    ¬ runs ∧ s.entry i = some e ∧ e.state ≠ .complete) ∧
    (∃ (s : State) (i : Nat) (before : List (BitVec 32)) (rest : List (Nat × List (BitVec 32))) (e : LgEntry),
      s.keel.quiescing = (i, before) :: rest ∧
    let runs : Prop := ∃ x ∈ s.keel.ledger, x.2.opc = 0x30 ∧ x.2.state = .started ∧ x.2.order ∈ before
    runs) ∧
    (∃ (s : State), s.keel.quiescing = []) :=
  ⟨⟨1, (cmd 0x20 []), 5, eCmd 0x20 0, by unfold Running; decide +kernel⟩,
    ⟨1, (cmd 0x21 []), 5, eCmd 0x21 0, by unfold Running; decide +kernel⟩,
    ⟨1, (cmd 0x22 []), 5, eCmd 0x22 0, by unfold Running; decide +kernel⟩,
    ⟨1, (cmd 0x23 []), 5, eCmd 0x23 0, by unfold Running; decide +kernel⟩,
    ⟨1, (cmd 0x24 []), 5, eCmd 0x24 0, by unfold Running; decide +kernel⟩,
    ⟨withLg [(5, eCmd 0x24 0)] { up with keel := { up.keel with quiescing := [(5, [0])] } }, 5, [0], [], eCmd 0x24 0,
      by decide +kernel⟩,
    ⟨withLg [(5, eCmd 0x24 0), (6, eTask)] { up with keel := { up.keel with quiescing := [(5, [0])] } }, 5, [0], [],
      eCmd 0x24 0, by decide +kernel⟩,
    ⟨up, by decide +kernel⟩⟩

theorem test_witness_TaskCommands :
    (∃ (c : Fin 64) (ecc : List CodeWordError) (s : State) (i : Nat) (e : LgEntry), Running s c.val 0x30 i e ∧
      s.retraining = true) ∧
    (∃ (c : Fin 64) (ecc : List CodeWordError) (s : State) (i : Nat) (e : LgEntry), Running s c.val 0x30 i e ∧
      s.retraining = false) ∧
    (∃ (c : Fin 64) (s : State) (i : Nat) (e : LgEntry), Running s c.val 0x31 i e ∧
    let bad : Prop := s.rsvd i [(0, 63, 8), (1, 63, 48)] = true ∨ 63 < bits (s.pw i 0) 7 0
    bad) ∧
    (∃ (c : Fin 64) (s : State) (i : Nat) (e : LgEntry), Running s c.val 0x31 i e ∧
    let bad : Prop := s.rsvd i [(0, 63, 8), (1, 63, 48)] = true ∨ 63 < bits (s.pw i 0) 7 0
    ¬ bad ∧ s.cancelTarget i = none) ∧
    (∃ (c : Fin 64) (s : State) (i : Nat) (e : LgEntry), Running s c.val 0x31 i e ∧
    let bad : Prop := s.rsvd i [(0, 63, 8), (1, 63, 48)] = true ∨ 63 < bits (s.pw i 0) 7 0
    ¬ bad ∧ ∃ j, ∃ k, s.cancelTarget i = some (j, k) ∧ k.state = .complete) ∧
    (∃ (c : Fin 64) (s : State) (i : Nat) (e : LgEntry), Running s c.val 0x31 i e ∧
    let bad : Prop := s.rsvd i [(0, 63, 8), (1, 63, 48)] = true ∨ 63 < bits (s.pw i 0) 7 0
    ¬ bad ∧ ∃ j, ∃ k, ∃ p, ∃ x, ∃ rest, s.cancelTarget i = some (j, k) ∧ k.state ≠ .complete ∧ j ≠ i ∧ s.runsEntry j = (p,
      x) :: rest ∧ x < 2) ∧
    (∃ (c : Fin 64) (s : State) (i : Nat) (e : LgEntry), Running s c.val 0x31 i e ∧
    let bad : Prop := s.rsvd i [(0, 63, 8), (1, 63, 48)] = true ∨ 63 < bits (s.pw i 0) 7 0
    ¬ bad ∧ ∃ j, ∃ k, s.cancelTarget i = some (j, k) ∧ k.state ≠ .complete ∧ j ≠ i ∧ s.runsEntry j = []) :=
  ⟨⟨1, [], (cmd 0x30 [] { up with mem := { chans := [(4, { state := 2 })] } }), 5, eCmd 0x30 0,
    by unfold Running; decide +kernel⟩,
    ⟨1, [], (cmd 0x30 kT.desc), 5, eCmd 0x30 38, by unfold Running; decide +kernel⟩,
    ⟨1, (cmd 0x31 [64, 4]), 5, eCmd 0x31 2, by unfold Running; decide +kernel⟩,
    ⟨1, (cmd 0x31 [1, 4]), 5, eCmd 0x31 2, by unfold Running; decide +kernel⟩,
    ⟨1, (also6 { lgE 0x30 4 .complete 0 with reply := some { status := 0 } } (cmd 0x31 [1, 4])), 5, eCmd 0x31 2,
      by unfold Running; decide +kernel, by decide +kernel, 6, { lgE 0x30 4 .complete 0 with reply := some { status := 0 } },
      by decide +kernel⟩,
    ⟨1, (also6 eTask (cmd 0x31 [1, 4] { up with tiles := [(3, { c0 := { task := some { kT with entry := 6 } } })] })), 5,
      eCmd 0x31 2, by unfold Running; decide +kernel, by decide +kernel, 6, { eTask with seq := 4 }, 3, 0, [],
      by decide +kernel⟩,
    ⟨1, (also6 eTask (cmd 0x31 [1, 4] { up with startQ := [(3, [{ kT with entry := 6 }, { kT with entry := 7 }])] })), 5,
      eCmd 0x31 2, by unfold Running; decide +kernel, by decide +kernel, 6, { eTask with seq := 4 }, by decide +kernel⟩⟩

theorem test_witness_MarkedCommands :
    (∃ (c : Fin 64) (s : State) (i : Nat) (e : LgEntry), ∃ x ∈ ([(.islFlagsClear c, 0x32, [(0, 47, 44), (0, 63, 56)]),
      (.islCtrSet c, 0x38, [(0, 63, 14), (1, 63, 48), (2, 63, 48)]), (.islOdoPreset c, 0x40, [(0, 63, 2), (1, 63, 48), (2, 63,
      48)]), (.islActArm c, 0x41, [(0, 63, 14)]), (.islActCancel c, 0x42, [(0, 63, 14)]), (.islIngRelease c, 0x48, [(0, 63, 5),
      (1, 63, 48)])] : List (Instr × Nat × List (Nat × Nat × Nat))), Running s c.val x.2.1 i e ∧ s.rsvd i x.2.2 = true) ∧
    (∃ (c : Fin 64) (s : State) (i : Nat) (e : LgEntry), Running s c.val 0x32 i e ∧ s.rsvd i [(0, 47, 44), (0, 63,
      56)] = false ∧ flagAt (bits (s.pw i 0) 39 0) = none) ∧
    (∃ (c : Fin 64) (s : State) (i : Nat) (e : LgEntry), Running s c.val 0x32 i e ∧ s.rsvd i [(0, 47, 44), (0, 63,
      56)] = false ∧ ∃ p, ∃ g, flagAt (bits (s.pw i 0) 39 0) = some (p, g)) ∧
    (∃ (c : Fin 64) (s : State) (i : Nat) (e : LgEntry), Running s c.val 0x38 i e ∧ s.rsvd i [(0, 63, 14), (1, 63, 48), (2, 63,
      48)] = false) ∧
    (∃ (c : Fin 64) (s : State) (i : Nat) (e : LgEntry), Running s c.val 0x40 i e ∧ s.rsvd i [(0, 63, 2), (1, 63, 48), (2, 63,
      48)] = false ∧
    let k := bits (s.pw i 0) 1 0
    let a := BitVec.ofNat 48 (bits (s.pw i 1) 47 0)
    let far (m : Nat) : Prop :=
      (1024 ≤ (a - (s.odo k).pos m).toNat ∧ (a - (s.odo k).pos m).toNat < 2 ^ 47) ∨
      (1024 ≤ ((s.odo k).pos m - a).toNat ∧ ((s.odo k).pos m - a).toNat < 2 ^ 47)
    (∀ m, m < 2 → s.live m k = true → far m)) ∧
    (∃ (c : Fin 64) (s : State) (i : Nat) (e : LgEntry), Running s c.val 0x40 i e ∧ s.rsvd i [(0, 63, 2), (1, 63, 48), (2, 63,
      48)] = false ∧
    let k := bits (s.pw i 0) 1 0
    let a := BitVec.ofNat 48 (bits (s.pw i 1) 47 0)
    let far (m : Nat) : Prop :=
      (1024 ≤ (a - (s.odo k).pos m).toNat ∧ (a - (s.odo k).pos m).toNat < 2 ^ 47) ∨
      (1024 ≤ ((s.odo k).pos m - a).toNat ∧ ((s.odo k).pos m - a).toNat < 2 ^ 47)
    (∃ m, m < 2 ∧ s.live m k = true ∧ ¬ far m)) ∧
    (∃ (c : Fin 64) (s : State) (i : Nat) (e : LgEntry), Running s c.val 0x41 i e ∧ s.rsvd i [(0, 63, 14)] = false ∧
    let k := bits (s.pw i 0) 13 0
    let x : ActEntry := {
      w0 := s.pw i 1, w1 := s.pw i 2 ||| packF [(24, 2, 1), (26, 1, b2n e.world)], mark := some (e.markOf 0x00) }
    e.world = false ∧ (s.act k).world = true) ∧
    (∃ (c : Fin 64) (s : State) (i : Nat) (e : LgEntry), Running s c.val 0x41 i e ∧ s.rsvd i [(0, 63, 14)] = false ∧
    let k := bits (s.pw i 0) 13 0
    let x : ActEntry := {
      w0 := s.pw i 1, w1 := s.pw i 2 ||| packF [(24, 2, 1), (26, 1, b2n e.world)], mark := some (e.markOf 0x00) }
    (e.world = true ∨ (s.act k).world = false) ∧ s.armBad { w0 := s.pw i 1, w1 := s.pw i 2 } = true) ∧
    (∃ (c : Fin 64) (s : State) (i : Nat) (e : LgEntry), Running s c.val 0x41 i e ∧ s.rsvd i [(0, 63, 14)] = false ∧
    let k := bits (s.pw i 0) 13 0
    let x : ActEntry := {
      w0 := s.pw i 1, w1 := s.pw i 2 ||| packF [(24, 2, 1), (26, 1, b2n e.world)], mark := some (e.markOf 0x00) }
    (e.world = true ∨ (s.act k).world = false) ∧ s.armBad { w0 := s.pw i 1, w1 := s.pw i 2 } = false ∧ (s.act k).st ≠ 0) ∧
    (∃ (c : Fin 64) (s : State) (i : Nat) (e : LgEntry), Running s c.val 0x41 i e ∧ s.rsvd i [(0, 63, 14)] = false ∧
    let k := bits (s.pw i 0) 13 0
    let x : ActEntry := {
      w0 := s.pw i 1, w1 := s.pw i 2 ||| packF [(24, 2, 1), (26, 1, b2n e.world)], mark := some (e.markOf 0x00) }
    let at_ := (s.odo x.ch).pos x.rim
    (e.world = true ∨ (s.act k).world = false) ∧ s.armBad { w0 := s.pw i 1, w1 := s.pw i 2 } = false ∧ (s.act k).st = 0 ∧
      ahead x.target at_ x.rev = true) ∧
    (∃ (c : Fin 64) (s : State) (i : Nat) (e : LgEntry), Running s c.val 0x41 i e ∧ s.rsvd i [(0, 63, 14)] = false ∧
    let k := bits (s.pw i 0) 13 0
    let x : ActEntry := {
      w0 := s.pw i 1, w1 := s.pw i 2 ||| packF [(24, 2, 1), (26, 1, b2n e.world)], mark := some (e.markOf 0x00) }
    let at_ := (s.odo x.ch).pos x.rim
    (e.world = true ∨ (s.act k).world = false) ∧ s.armBad { w0 := s.pw i 1, w1 := s.pw i 2 } = false ∧ (s.act k).st = 0 ∧
      ahead x.target at_ x.rev = false ∧ x.late = false) ∧
    (∃ (c : Fin 64) (s : State) (i : Nat) (e : LgEntry), Running s c.val 0x41 i e ∧ s.rsvd i [(0, 63, 14)] = false ∧
    let k := bits (s.pw i 0) 13 0
    let x : ActEntry := {
      w0 := s.pw i 1, w1 := s.pw i 2 ||| packF [(24, 2, 1), (26, 1, b2n e.world)], mark := some (e.markOf 0x00) }
    let at_ := (s.odo x.ch).pos x.rim
    (e.world = true ∨ (s.act k).world = false) ∧ s.armBad { w0 := s.pw i 1, w1 := s.pw i 2 } = false ∧ (s.act k).st = 0 ∧
      ahead x.target at_ x.rev = false ∧ x.late = true) ∧
    (∃ (c : Fin 64) (s : State) (i : Nat) (e : LgEntry), Running s c.val 0x42 i e ∧ s.rsvd i [(0, 63, 14)] = false ∧
    let k := bits (s.pw i 0) 13 0
    e.world = false ∧ (s.act k).world = true) ∧
    (∃ (c : Fin 64) (s : State) (i : Nat) (e : LgEntry), Running s c.val 0x42 i e ∧ s.rsvd i [(0, 63, 14)] = false ∧
    let k := bits (s.pw i 0) 13 0
    (e.world = true ∨ (s.act k).world = false) ∧ (s.act k).st ≠ 0) ∧
    (∃ (c : Fin 64) (s : State) (i : Nat) (e : LgEntry), Running s c.val 0x42 i e ∧ s.rsvd i [(0, 63, 14)] = false ∧
    let k := bits (s.pw i 0) 13 0
    (e.world = true ∨ (s.act k).world = false) ∧ (s.act k).st = 0) :=
  ⟨⟨1, (cmd 0x32 [packF [(56, 1, 1)]]), 5, eCmd 0x32 1, (.islFlagsClear 1, 0x32, [(0, 47, 44), (0, 63, 56)]),
    by decide +kernel, by unfold Running; decide +kernel⟩,
    ⟨1, (cmd 0x32 [0x1000]), 5, eCmd 0x32 1, by unfold Running; decide +kernel⟩,
    ⟨1, (cmd 0x32 [packF [(0, 40, flagA), (40, 4, 1)]] (ctx3 busy)), 5, eCmd 0x32 1, by unfold Running; decide +kernel,
      by decide +kernel, 3, .array, by decide +kernel⟩,
    ⟨1, (cmd 0x38 [packF [(0, 12, 9), (12, 2, 3)], 7,
      8] { up with ctrs := { ctrs := [(9, { value := 3 })], pool := [(9, 2), (10, 1)] } }), 5, eCmd 0x38 3,
      by unfold Running; decide +kernel⟩,
    ⟨1, (cmd 0x40 [1, 3000, 7] (odoAt {} [])), 5, eCmd 0x40 3, by unfold Running; decide +kernel⟩,
    ⟨1, (cmd 0x40 [1, 3, 7] (odoAt {} [])), 5, eCmd 0x40 3, by unfold Running; decide +kernel⟩,
    ⟨1, (cmdW false 0x41 [8, packF [(0, 48, 100), (48, 2, 1), (50, 2, 1), (56, 7, 12)], 0] (armAt {} [(8,
      { act0 1 with w1 := packF [(24, 2, 1), (26, 1, 1)] })])), 5, { eCmd 0x41 3 with world := false },
      by unfold Running; decide +kernel⟩,
    ⟨1, (cmd 0x41 [8, 0, 0]), 5, eCmd 0x41 3, by unfold Running; decide +kernel⟩,
    ⟨1, (cmd 0x41 [8, packF [(0, 48, 100), (48, 2, 1), (50, 2, 1), (56, 7, 12)], 0] (armAt {} [(8, act0 1)])), 5, eCmd 0x41 3,
      by unfold Running; decide +kernel⟩,
    ⟨1, (cmd 0x41 [8, packF [(0, 48, 100), (48, 2, 1), (50, 2, 1), (56, 7, 12)], 0] (armAt {} [])), 5, eCmd 0x41 3,
      by unfold Running; decide +kernel⟩,
    ⟨1, (cmd 0x41 [8, packF [(0, 48, 100), (48, 2, 1), (50, 2, 1), (56, 7, 12)], 0] (armAt { posW := 200 } [])), 5,
      eCmd 0x41 3, by unfold Running; decide +kernel⟩,
    ⟨1, (cmd 0x41 [8, packF [(0, 48, 100), (48, 2, 1), (50, 2, 1), (53, 1, 1), (56, 7, 12)], 0] (armAt { posW := 200 } [])), 5,
      eCmd 0x41 3, by unfold Running; decide +kernel⟩,
    ⟨1, (cmdW false 0x42 [8] (odoAt {} [(8, { act0 1 with w1 := packF [(24, 2, 1), (26, 1, 1)] })])), 5,
      { eCmd 0x42 1 with world := false }, by unfold Running; decide +kernel⟩,
    ⟨1, (cmd 0x42 [8] (odoAt {} [(8, act0 1)])), 5, eCmd 0x42 1, by unfold Running; decide +kernel⟩,
    ⟨1, (cmd 0x42 [8]), 5, eCmd 0x42 1, by unfold Running; decide +kernel⟩⟩

theorem test_witness_WorldSets :
    (∃ (c : Fin 64) (s : State) (i : Nat) (e : LgEntry), Running s c.val 0x50 i e ∧
    let kind := bits (s.pw i 0) 2 0
    let w := bit (s.pw i 0) 3
    let l := bits (s.pw i 0) 13 4
    let scope := bits (s.pw i 0) 15 14
    let bad : Prop := kind ≠ 1 ∨ s.rsvd i [(0, 63, 16)] = true ∨ 767 < l ∨ scope = 3
    kind ≠ 2 ∧ kind ≠ 3 ∧ bad) ∧
    (∃ (c : Fin 64) (s : State) (i : Nat) (e : LgEntry), Running s c.val 0x50 i e ∧
    let kind := bits (s.pw i 0) 2 0
    let w := bit (s.pw i 0) 3
    let l := bits (s.pw i 0) 13 4
    let scope := bits (s.pw i 0) 15 14
    let bad : Prop := kind ≠ 1 ∨ s.rsvd i [(0, 63, 16)] = true ∨ 767 < l ∨ scope = 3
    let differs : Prop := (scope ≠ 2 ∧ s.wtile l 0 ≠ w) ∨ (scope ≠ 1 ∧ s.wtile l 1 ≠ w)
    ¬ bad ∧ ¬ differs) ∧
    (∃ (c : Fin 64) (s : State) (i : Nat) (e : LgEntry), Running s c.val 0x50 i e ∧
    let kind := bits (s.pw i 0) 2 0
    let w := bit (s.pw i 0) 3
    let l := bits (s.pw i 0) 13 4
    let scope := bits (s.pw i 0) 15 14
    let bad : Prop := kind ≠ 1 ∨ s.rsvd i [(0, 63, 16)] = true ∨ 767 < l ∨ scope = 3
    let differs : Prop := (scope ≠ 2 ∧ s.wtile l 0 ≠ w) ∨ (scope ≠ 1 ∧ s.wtile l 1 ≠ w)
    ¬ bad ∧ differs ∧ s.scopeBusy l scope = true) ∧
    (∃ (c : Fin 64) (s : State) (i : Nat) (e : LgEntry), Running s c.val 0x50 i e ∧
    let kind := bits (s.pw i 0) 2 0
    let w := bit (s.pw i 0) 3
    let l := bits (s.pw i 0) 13 4
    let scope := bits (s.pw i 0) 15 14
    let bad : Prop := kind ≠ 1 ∨ s.rsvd i [(0, 63, 16)] = true ∨ 767 < l ∨ scope = 3
    let differs : Prop := (scope ≠ 2 ∧ s.wtile l 0 ≠ w) ∨ (scope ≠ 1 ∧ s.wtile l 1 ≠ w)
    ¬ bad ∧ differs ∧ s.scopeBusy l scope = false) ∧
    (∃ (c : Fin 64) (s : State) (i : Nat) (e : LgEntry), Running s c.val 0x50 i e ∧ bits (s.pw i 0) 2 0 = 2 ∧
    let b := bits (s.pw i 0) 13 4
    let bad : Prop := s.rsvd i [(0, 63, 14)] = true ∨ 15 < b
    bad) ∧
    (∃ (c : Fin 64) (s : State) (i : Nat) (e : LgEntry), Running s c.val 0x50 i e ∧ bits (s.pw i 0) 2 0 = 2 ∧
    let w := bit (s.pw i 0) 3
    let b := bits (s.pw i 0) 13 4
    let bad : Prop := s.rsvd i [(0, 63, 14)] = true ∨ 15 < b
    ¬ bad ∧ s.wcbank b = w) ∧
    (∃ (c : Fin 64) (s : State) (i : Nat) (e : LgEntry), Running s c.val 0x50 i e ∧ bits (s.pw i 0) 2 0 = 2 ∧
    let w := bit (s.pw i 0) 3
    let b := bits (s.pw i 0) 13 4
    let bad : Prop := s.rsvd i [(0, 63, 14)] = true ∨ 15 < b
    ¬ bad ∧ s.wcbank b ≠ w) ∧
    (∃ (c : Fin 64) (s : State) (i : Nat) (e : LgEntry), Running s c.val 0x50 i e ∧ bits (s.pw i 0) 2 0 = 3 ∧
    let g := bits (s.pw i 0) 13 4
    let bad : Prop := s.rsvd i [(0, 63, 14)] = true ∨ 11 < g
    bad) ∧
    (∃ (c : Fin 64) (s : State) (i : Nat) (e : LgEntry), Running s c.val 0x50 i e ∧ bits (s.pw i 0) 2 0 = 3 ∧
    let w := bit (s.pw i 0) 3
    let g := bits (s.pw i 0) 13 4
    let bad : Prop := s.rsvd i [(0, 63, 14)] = true ∨ 11 < g
    ¬ bad ∧ s.wlane g = w) ∧
    (∃ (c : Fin 64) (s : State) (i : Nat) (e : LgEntry), Running s c.val 0x50 i e ∧ bits (s.pw i 0) 2 0 = 3 ∧
    let w := bit (s.pw i 0) 3
    let g := bits (s.pw i 0) 13 4
    let bad : Prop := s.rsvd i [(0, 63, 14)] = true ∨ 11 < g
    let used : Prop := ∃ j, j < 8 ∧ (s.lane (portLane g j)).en = true
    ¬ bad ∧ s.wlane g ≠ w ∧ used) ∧
    (∃ (c : Fin 64) (s : State) (i : Nat) (e : LgEntry), Running s c.val 0x50 i e ∧ bits (s.pw i 0) 2 0 = 3 ∧
    let w := bit (s.pw i 0) 3
    let g := bits (s.pw i 0) 13 4
    let bad : Prop := s.rsvd i [(0, 63, 14)] = true ∨ 11 < g
    let used : Prop := ∃ j, j < 8 ∧ (s.lane (portLane g j)).en = true
    ¬ bad ∧ s.wlane g ≠ w ∧ ¬ used) :=
  ⟨⟨1, (cmd 0x50 [packF [(0, 3, 1), (3, 1, 0), (4, 10, 3), (14, 2, 3), (20, 1, 0)]]), 5, eCmd 0x50 1,
    by unfold Running; decide +kernel⟩,
    ⟨1, (cmd 0x50 [packF [(0, 3, 1), (3, 1, 1), (4, 10, 3), (14, 2, 0), (20, 1, 0)]] (ctx3 {})), 5, eCmd 0x50 1,
      by unfold Running; decide +kernel⟩,
    ⟨1, (cmd 0x50 [packF [(0, 3, 1), (3, 1, 0), (4, 10, 3), (14, 2, 0), (20, 1, 0)]] (ctx3 busy)), 5, eCmd 0x50 1,
      by unfold Running; decide +kernel⟩,
    ⟨1, (cmd 0x50 [packF [(0, 3, 1), (3, 1, 0), (4, 10, 3), (14, 2, 0), (20, 1, 0)]] (ctx3 {})), 5, eCmd 0x50 1,
      by unfold Running; decide +kernel⟩,
    ⟨1, (cmd 0x50 [packF [(0, 3, 2), (3, 1, 0), (4, 10, 16), (14, 2, 0), (20, 1, 0)]]), 5, eCmd 0x50 1,
      by unfold Running; decide +kernel⟩,
    ⟨1, (cmd 0x50 [packF [(0, 3, 2), (3, 1, 1), (4, 10, 0), (14, 2, 0), (20, 1, 0)]]), 5, eCmd 0x50 1,
      by unfold Running; decide +kernel⟩,
    ⟨1, (cmd 0x50 [packF [(0, 3, 2), (3, 1, 0), (4, 10, 0), (14, 2, 0), (20, 1,
      0)]] { up with ctrs := { ctrs := [(9, { value := 3 }), (300, { value := 4 })], pool := [(9, 2), (300, 1)] } }), 5,
      eCmd 0x50 1, by unfold Running; decide +kernel⟩,
    ⟨1, (cmd 0x50 [packF [(0, 3, 3), (3, 1, 0), (4, 10, 12), (14, 2, 0), (20, 1, 0)]]), 5, eCmd 0x50 1,
      by unfold Running; decide +kernel⟩,
    ⟨1, (cmd 0x50 [packF [(0, 3, 3), (3, 1, 1), (4, 10, 2), (14, 2, 0), (20, 1, 0)]]), 5, eCmd 0x50 1,
      by unfold Running; decide +kernel⟩,
    ⟨1, (cmd 0x50 [packF [(0, 3, 3), (3, 1, 0), (4, 10, 0), (14, 2, 0), (20, 1, 0)]] (laneAt (laneUp 0 2))), 5, eCmd 0x50 1,
      by unfold Running; decide +kernel⟩,
    ⟨1, (cmd 0x50 [packF [(0, 3, 3), (3, 1, 0), (4, 10, 2), (14, 2, 0), (20, 1, 0)]]), 5, eCmd 0x50 1,
      by unfold Running; decide +kernel⟩⟩

theorem test_witness_AttestationAndFuses :
    (∃ (c : Fin 64) (ecc : List CodeWordError) (s : State) (i : Nat) (e : LgEntry), Running s c.val 0x51 i e ∧
      s.mem.resps = [] ∧
    let a := bits (s.pw i 0) 39 0
    let idx := 256 * s.sec.epoch.toNat + s.sec.attNext.toNat
    let none_ : Prop := s.sec.epv = false ∨ 256 ≤ s.sec.attNext.toNat
    let k := s.memCheck e.world a 5248
    let rep := s.begun.report e.world idx [s.pw i 1, s.pw i 2, s.pw i 3, s.pw i 4]
    let s' := s.begun.modSec (fun x => { x with attNext := x.attNext + 1 })
    none_) ∧
    (∃ (c : Fin 64) (ecc : List CodeWordError) (s : State) (i : Nat) (e : LgEntry), Running s c.val 0x51 i e ∧
      s.mem.resps = [] ∧
    let a := bits (s.pw i 0) 39 0
    let idx := 256 * s.sec.epoch.toNat + s.sec.attNext.toNat
    let none_ : Prop := s.sec.epv = false ∨ 256 ≤ s.sec.attNext.toNat
    let k := s.memCheck e.world a 5248
    let rep := s.begun.report e.world idx [s.pw i 1, s.pw i 2, s.pw i 3, s.pw i 4]
    let s' := s.begun.modSec (fun x => { x with attNext := x.attNext + 1 })
    ¬ none_ ∧ k = 3) ∧
    (∃ (c : Fin 64) (ecc : List CodeWordError) (s : State) (i : Nat) (e : LgEntry), Running s c.val 0x51 i e ∧
      s.mem.resps = [] ∧
    let a := bits (s.pw i 0) 39 0
    let idx := 256 * s.sec.epoch.toNat + s.sec.attNext.toNat
    let none_ : Prop := s.sec.epv = false ∨ 256 ≤ s.sec.attNext.toNat
    let k := s.memCheck e.world a 5248
    let bad : Prop := s.rsvd i [(0, 63, 40)] = true ∨ a % 64 ≠ 0 ∨ k ≠ 0
    let rep := s.begun.report e.world idx [s.pw i 1, s.pw i 2, s.pw i 3, s.pw i 4]
    let s' := s.begun.modSec (fun x => { x with attNext := x.attNext + 1 })
    ¬ none_ ∧ k ≠ 3 ∧ bad) ∧
    (∃ (c : Fin 64) (ecc : List CodeWordError) (s : State) (i : Nat) (e : LgEntry), Running s c.val 0x51 i e ∧
      s.mem.resps = [] ∧
    let a := bits (s.pw i 0) 39 0
    let idx := 256 * s.sec.epoch.toNat + s.sec.attNext.toNat
    let none_ : Prop := s.sec.epv = false ∨ 256 ≤ s.sec.attNext.toNat
    let k := s.memCheck e.world a 5248
    let bad : Prop := s.rsvd i [(0, 63, 40)] = true ∨ a % 64 ≠ 0 ∨ k ≠ 0
    let rep := s.begun.report e.world idx [s.pw i 1, s.pw i 2, s.pw i 3, s.pw i 4]
    let s' := s.begun.modSec (fun x => { x with attNext := x.attNext + 1 })
    ¬ none_ ∧ ¬ bad ∧ s.sec.attReady = false) ∧
    (∃ (c : Fin 64) (ecc : List CodeWordError) (s : State) (i : Nat) (e : LgEntry), Running s c.val 0x51 i e ∧
      s.mem.resps = [] ∧
    let a := bits (s.pw i 0) 39 0
    let idx := 256 * s.sec.epoch.toNat + s.sec.attNext.toNat
    let none_ : Prop := s.sec.epv = false ∨ 256 ≤ s.sec.attNext.toNat
    let k := s.memCheck e.world a 5248
    let bad : Prop := s.rsvd i [(0, 63, 40)] = true ∨ a % 64 ≠ 0 ∨ k ≠ 0
    let rep := s.begun.report e.world idx [s.pw i 1, s.pw i 2, s.pw i 3, s.pw i 4]
    let s' := s.begun.modSec (fun x => { x with attNext := x.attNext + 1 })
    ¬ none_ ∧ ¬ bad ∧ s.sec.attReady = true ∧ s.memHeld a 5248 = true) ∧
    (∃ (c : Fin 64) (ecc : List CodeWordError) (s : State) (i : Nat) (e : LgEntry), Running s c.val 0x51 i e ∧
      s.mem.resps = [] ∧
    let a := bits (s.pw i 0) 39 0
    let idx := 256 * s.sec.epoch.toNat + s.sec.attNext.toNat
    let none_ : Prop := s.sec.epv = false ∨ 256 ≤ s.sec.attNext.toNat
    let k := s.memCheck e.world a 5248
    let bad : Prop := s.rsvd i [(0, 63, 40)] = true ∨ a % 64 ≠ 0 ∨ k ≠ 0
    let rep := s.begun.report e.world idx [s.pw i 1, s.pw i 2, s.pw i 3, s.pw i 4]
    let s' := s.begun.modSec (fun x => { x with attNext := x.attNext + 1 })
    ¬ none_ ∧ ¬ bad ∧ s.sec.attReady = true ∧ s.memHeld a 5248 = false) ∧
    (∃ (ecc : List CodeWordError) (s : State), s.up = true ∧ s.sec.epv = true ∧ s.sec.attReady = false ∧
      (s.retraining = false ∨ s.sec.attWait = [])) ∧
    (∃ (ecc : List CodeWordError) (s : State), s.mem.resps = [] ∧ (s.up = false ∨ s.sec.epv = false ∨ s.sec.attReady = true ∨
      (s.retraining = true ∧ s.sec.attWait ≠ []))) ∧
    (∃ (chk : Word32) (blown : Bool) (s : State), s.up = true ∧
    let ok : Prop := s.keel.dstate = .safe ∧ s.sec.owner = false ∧ crc32c s.sec.staged = chk ∧ s.sec.blowBarred = false
    ok) ∧
    (∃ (chk : Word32) (blown : Bool) (s : State), s.up = true ∧
    let ok : Prop := s.keel.dstate = .safe ∧ s.sec.owner = false ∧ crc32c s.sec.staged = chk ∧ s.sec.blowBarred = false
    ¬ ok) ∧
    (∃ (chk : Word32) (blown : Bool) (s : State), s.up = true ∧
    let ok : Prop := chk = 0 ∧ s.keel.dstate = .safe ∧ s.sec.owner = true ∧ (s.slot 0).signer ≠ some false ∧
      s.sec.blowBarred = false
    ok) ∧
    (∃ (chk : Word32) (blown : Bool) (s : State), s.up = true ∧
    let ok : Prop := chk = 0 ∧ s.keel.dstate = .safe ∧ s.sec.owner = true ∧ (s.slot 0).signer ≠ some false ∧
      s.sec.blowBarred = false
    ¬ ok) :=
  ⟨⟨1, [], (cmd 0x51 [0x1000, 1, 2, 3, 4] { (memDef false {}) with sec := {  } }), 5, eCmd 0x51 5,
    by unfold Running; decide +kernel⟩,
    ⟨1, [], (cmdW false 0x51 [0x1000, 1, 2, 3, 4] { (memDef true {}) with sec := { epv := true, epoch := 3 } }), 5,
      { eCmd 0x51 5 with world := false }, by unfold Running; decide +kernel⟩,
    ⟨1, [], (cmd 0x51 [0x1001, 1, 2, 3, 4] { (memDef false {}) with sec := { epv := true, epoch := 3 } }), 5, eCmd 0x51 5,
      by unfold Running; decide +kernel⟩,
    ⟨1, [], (cmd 0x51 [0x1000, 1, 2, 3, 4] { (memDef false {}) with sec := { epv := true, epoch := 3 } }), 5, eCmd 0x51 5,
      by unfold Running; decide +kernel⟩,
    ⟨1, [], (cmd 0x51 [0x1000, 1, 2, 3,
      4] { (memDef false { chans := [(4, { state := 2 })] }) with sec := { epv := true, epoch := 3, attReady := true } }), 5,
      eCmd 0x51 5, by unfold Running; decide +kernel⟩,
    ⟨1, [], (cmd 0x51 [0x1000, 1, 2, 3, 4] { (memDef false {}) with sec := { epv := true, epoch := 3, attReady := true } }), 5,
      eCmd 0x51 5, by unfold Running; decide +kernel⟩,
    ⟨[], { up with sec := { epv := true } }, by decide +kernel⟩,
    ⟨[], up, by decide +kernel⟩,
    ⟨crc32c ({ up with keel := { up.keel with dstate := .safe }, sec := { stage := [(0, 5)],  } }).sec.staged, true,
      { up with keel := { up.keel with dstate := .safe }, sec := { stage := [(0, 5)],  } }, by decide +kernel⟩,
    ⟨crc32c ({ up with keel := { up.keel with dstate := .safe }, sec := { stage := [(0, 5)],  } }).sec.staged ^^^ 1, true,
      { up with keel := { up.keel with dstate := .safe }, sec := { stage := [(0, 5)],  } }, by decide +kernel⟩,
    ⟨0, true, { up with keel := { up.keel with dstate := .safe }, sec := { stage := [(0, 5)], owner := true } },
      by decide +kernel⟩,
    ⟨0, true, { up with keel := { up.keel with dstate := .safe }, sec := { stage := [(0, 5)],  } }, by decide +kernel⟩⟩

theorem test_witness_PathsAndSerialPort :
    (∃ (p : PathId) (s : State), s.boot.phase ≠ .held) ∧
    (∃ (p : PathId) (s : State), s.boot.phase = .held) ∧
    (∃ (p : PathId) (s : State), p ∈ s.keel.lostPaths ∧ (p = .ssp → s.tim.refclk = true) ∧ s.up = false) ∧
    (∃ (p : PathId) (s : State), (p ∉ s.keel.lostPaths ∨ (p = .ssp ∧ s.tim.refclk = false))) ∧
    (∃ (p : PathId) (s : State), p ∈ s.keel.lostPaths ∧ (p = .ssp → s.tim.refclk = true) ∧ s.up = true) ∧
    (∃ (bytes : List Byte) (s : State), s.sspUsable = true ∧ ∃ p, s.sspReady = true ∧ packetOfBytes bytes = some p) ∧
    (∃ (bytes : List Byte) (s : State), s.sspUsable = true ∧ s.sspReady = true ∧ packetOfBytes bytes = none) ∧
    (∃ (bytes : List Byte) (s : State), s.sspUsable = true ∧ s.sspReady = false) ∧
    (∃ (n : Nat) (s : State), s.sspUsable = true ∧ ∃ p, ∃ rest, s.ssp.held = p :: rest) ∧
    (∃ (n : Nat) (s : State), s.sspUsable = true ∧ s.ssp.held = []) ∧
    (∃ (bytes : List Byte) (n : Nat) (s : State), s.sspUsable = false) ∧
    (∃ (s : State), s.ssp.active = true ∧ (s.ssp.reading = true ∨ s.ssp.complete = true ∨ s.ssp.rx = [])) ∧
    (∃ (s : State), s.ssp.active = true ∧ s.ssp.reading = false ∧ s.ssp.complete = false ∧ s.ssp.rx ≠ []) ∧
    (∃ (s : State), s.ssp.active = false) :=
  ⟨⟨.ssp, lostAt, by decide +kernel⟩,
    ⟨.ssp, State.reset, by decide +kernel⟩,
    ⟨.ssp, { (lostAt) with boot := { phase := .training } }, by decide +kernel⟩,
    ⟨.host0, lostAt, by decide +kernel⟩,
    ⟨.host1, lostAt, by decide +kernel⟩,
    ⟨pkt 1 0 0 0 [], { up with tim := { refclk := true } }, by decide +kernel, pk0, by decide +kernel⟩,
    ⟨[1], { up with tim := { refclk := true } }, by decide +kernel⟩,
    ⟨[1], { ({ up with tim := { refclk := true } }) with keel := { up.keel with arrived := [(2, pk0)] } }, by decide +kernel⟩,
    ⟨34,
      { ({ up with tim := { refclk := true } }) with ssp := { held := [{ w0 := 1, w1 := 2, w2 := 3, w3 := 4, data := [5] }] } },
      by decide +kernel, { w0 := 1, w1 := 2, w2 := 3, w3 := 4, data := [5] }, [], by decide +kernel⟩,
    ⟨34, { up with tim := { refclk := true } }, by decide +kernel⟩,
    ⟨[1], 34, { up with tim := { refclk := false } }, by decide +kernel⟩,
    ⟨{ up with ssp := { active := true, complete := true, rx := [1] } }, by decide +kernel⟩,
    ⟨{ up with ssp := { active := true, rx := [1] } }, by decide +kernel⟩,
    ⟨up, by decide +kernel⟩⟩

theorem test_witness_PartResets :
    (∃ (c : Fin 64) (s : State) (i : Nat) (e : LgEntry), ∃ x ∈ ([(.islResetTile c, 2, 191), (.islResetFieldDie c, 3, 15),
      (.islResetLane c, 5, 95), (.islResetSpoke c, 6, 33), (.islResetRegion c, 7, 127)] : List (Instr × Nat × Nat)),
      Running s c.val 0x28 i e ∧ bits (s.pw i 0) 2 0 = x.2.1 ∧ (s.rsvd i [(0, 7, 3), (0, 63, 16)] = true ∨
      x.2.2 < bits (s.pw i 0) 15 8)) ∧
    (∃ (c : Fin 64) (s : State) (i : Nat) (e : LgEntry), Running s c.val 0x28 i e ∧ bits (s.pw i 0) 2 0 = 4 ∧
      s.mem.resps = [] ∧ (s.rsvd i [(0, 7, 3), (0, 63, 16)] = true ∨ 1 < bits (s.pw i 0) 15 8)) ∧
    (∃ (c : Fin 64) (s : State) (i : Nat) (e : LgEntry), Running s c.val 0x28 i e ∧ (bits (s.pw i 0) 2 0 = 0 ∨
      (bits (s.pw i 0) 2 0 = 1 ∧ s.rsvd i [(0, 63, 3)] = true))) ∧
    (∃ (c : Fin 64) (s : State) (i : Nat) (e : LgEntry), Running s c.val 0x28 i e ∧ bits (s.pw i 0) 2 0 = 1 ∧ s.rsvd i [(0, 63,
      3)] = false ∧ s.boot.phase = .ready) ∧
    (∃ (c : Fin 64) (s : State) (i : Nat) (e : LgEntry), Running s c.val 0x28 i e ∧ bits (s.pw i 0) 2 0 = 1 ∧ s.rsvd i [(0, 63,
      3)] = false ∧ s.boot.phase = .warm) ∧
    (∃ (c : Fin 64) (s : State) (i : Nat) (n : Nat) (e : LgEntry), ResetOf s c.val i 2 n e ∧ n ≤ 191) ∧
    (∃ (s : State) (p : Nat) (c : Nat) (k : Task), c < 2 ∧ (s.ctx p c).task = some k ∧
    let x := s.ctx p c
    x.ending = none ∧ x.cancelAsked = false ∧ ∃ l, l ≠ k.logical) ∧
    (∃ (s : State) (p : Nat) (c : Nat) (k : Task), c < 2 ∧ (s.ctx p c).task = some k ∧
    let x := s.ctx p c
    (x.ending.isSome ∨ x.cancelAsked = true) ∧ ∃ e, s.entry k.entry = some e ∧ e.state ≠ .complete) ∧
    (∃ (c : Fin 64) (s : State) (i : Nat) (n : Nat) (e : LgEntry), ResetOf s c.val i 3 n e ∧ n ≤ 15 ∧ (s.dieState n).toNat < 2) ∧
    (∃ (c : Fin 64) (s : State) (i : Nat) (n : Nat) (e : LgEntry), ResetOf s c.val i 3 n e ∧ n ≤ 15 ∧ 2 ≤ (s.dieState n).toNat) ∧
    (∃ (c : Fin 64) (s : State) (i : Nat) (m : Nat) (e : LgEntry), ResetOf s c.val i 4 m e ∧ m ≤ 1) ∧
    (∃ (c : Fin 64) (s : State) (i : Nat) (l : Nat) (e : LgEntry), ResetOf s c.val i 5 l e ∧ l ≤ 95) ∧
    (∃ (c : Fin 64) (s : State) (i : Nat) (k : Nat) (e : LgEntry), ResetOf s c.val i 6 k e ∧ k ≤ 33) ∧
    (∃ (c : Fin 64) (s : State) (i : Nat) (r : Nat) (e : LgEntry), ResetOf s c.val i 7 r e ∧ r ≤ 127 ∧
      (s.region r).isOpen = true) ∧
    (∃ (c : Fin 64) (s : State) (i : Nat) (r : Nat) (e : LgEntry), ResetOf s c.val i 7 r e ∧ r ≤ 127 ∧
      (s.region r).isOpen = false ∧ (s.region r).closing ≠ some .load) ∧
    (∃ (c : Fin 64) (s : State) (i : Nat) (r : Nat) (e : LgEntry), ResetOf s c.val i 7 r e ∧ r ≤ 127 ∧ ∃ j,
      (s.region r).isOpen = false ∧ (s.region r).closing = some .load ∧ s.ldr.job = some j ∧ j.at_ = r) ∧
    (∃ (u : ResetUnit) (wires : List (SpokeDir × WireTest)) (s : State), s.mem.resps = [] ∧ s.resetting u = false) ∧
    (∃ (u : ResetUnit) (s : State) (i : Nat) (e : LgEntry),
      s.flt.resets = [{ kind := (unitCode u).1, target := (unitCode u).2, entry := some i }] ∧ s.entry i = some e ∧
      e.state ≠ .complete ∧ SpokesSound s ∧ s.mem.resps = [] ∧ (∀ r, u = .region r → (s.region r.val).closing = none)) ∧
    (∃ (k : Fin 34) (wires : List (SpokeDir × WireTest)) (s : State) (i : Nat) (e : LgEntry),
      s.flt.resets = [{ kind := 6, target := k.val, entry := some i }] ∧ s.entry i = some e ∧ e.state ≠ .complete ∧
      s.mem.resps = [] ∧ (s.side (2 * k.val)).state = 1 ∧ (∀ n, n < 16 → ∃ j ∈ spokesOf n, j ≠ k.val ∧
      (s.side (2 * j)).state ≠ 2)) ∧
    (∃ (u : ResetUnit) (stuck : List (Fin 4)) (s : State) (i : Nat) (e : LgEntry),
      s.flt.resets = [{ kind := (unitCode u).1, target := (unitCode u).2, entry := some i }] ∧ s.entry i = some e ∧
      e.state ≠ .complete ∧ SpokesSound s ∧ s.flt.swapped = [] ∧ (∀ p c k, (s.ctx p c).task = some k → k.entry ≠ i)) :=
  ⟨⟨1, (resetCmd 2 192), 5, eCmd 0x28 1, (.islResetTile 1, 2, 191), by decide +kernel, by unfold Running; decide +kernel⟩,
    ⟨1, (resetCmd 4 2), 5, eCmd 0x28 1, by unfold Running; decide +kernel⟩,
    ⟨1, (cmd 0x28 [0]), 5, eCmd 0x28 1, by unfold Running; decide +kernel⟩,
    ⟨1, (cmd 0x28 [1] (ctx3 busy)), 5, eCmd 0x28 1, by unfold Running; decide +kernel⟩,
    ⟨1, (cmd 0x28 [1] { up with boot := { phase := .warm } }), 5, eCmd 0x28 1, by unfold Running; decide +kernel⟩,
    ⟨1, (resetCmd 2 0 (ctx3 busy)), 5, 0, eCmd 0x28 1, by unfold ResetOf Running; decide +kernel⟩,
    ⟨ctx3 busy, 3, 0, kT, by decide +kernel, by decide +kernel, by decide +kernel, by decide +kernel, 4, by decide +kernel⟩,
    ⟨withLg [(5, eTask)] (ctx3 { busy with cancelAsked := true }), 3, 0, kT, by decide +kernel, by decide +kernel,
      by decide +kernel, eTask, by decide +kernel⟩,
    ⟨1, (resetCmd 3 0 (region5 open5)), 5, 0, eCmd 0x28 1, by unfold ResetOf Running; decide +kernel⟩,
    ⟨1, (resetCmd 3 0 ({ up with flt := { dies := [(0, { state := 2 })] } })), 5, 0, eCmd 0x28 1,
      by unfold ResetOf Running; decide +kernel⟩,
    ⟨1, (resetCmd 4 0 (odoAt { posW := 5 } [])), 5, 0, eCmd 0x28 1, by unfold ResetOf Running; decide +kernel⟩,
    ⟨1, (resetCmd 5 3 (laneAt (laneUp 0 2))), 5, 3, eCmd 0x28 1, by unfold ResetOf Running; decide +kernel⟩,
    ⟨1, (resetCmd 6 2 (up)), 5, 2, eCmd 0x28 1, by unfold ResetOf Running; decide +kernel⟩,
    ⟨1, (resetCmd 7 5 (region5 open5)), 5, 5, eCmd 0x28 1, by unfold ResetOf Running; decide +kernel⟩,
    ⟨1, (resetCmd 7 5 (region5 { state := 2, closing := some .weevil })), 5, 5, eCmd 0x28 1,
      by unfold ResetOf Running; decide +kernel⟩,
    ⟨1, (resetCmd 7 5 (loading5 6)), 5, 5, eCmd 0x28 1, by unfold ResetOf Running; decide +kernel, by decide +kernel, load5 6,
      by decide +kernel⟩,
    ⟨.die 0, [], up, by decide +kernel⟩,
    ⟨.die 0, resetting5 (.die 0) { up with flt := { dies := [(0, { state := 1 })] } }, 5, eCmd 0x28 1,
      by unfold SpokesSound; decide +kernel⟩,
    ⟨2, [], spokeReset, 5, eCmd 0x28 1, by decide +kernel⟩,
    ⟨.die 0, [], resetting5 (.die 0) { up with flt := { dies := [(0, { state := 1 })] } }, 5, eCmd 0x28 1, by decide +kernel,
      by decide +kernel, by decide +kernel, by unfold SpokesSound; decide +kernel, by decide +kernel,
      (fun p c k h => by cases c <;> cases h)⟩⟩

theorem test_witness_RecoveryMachinery :
    (∃ (s : State) (r : Retirement) (rest : List Retirement), s.flt.retire = r :: rest ∧
    let idle : Prop := s.up = true ∧ s.placing = false ∧ (s.ctx r.ptile 0).task = none ∧ (s.ctx r.ptile 1).task = none
    idle ∧ ∃ k, ∃ ks, s.spares (r.ptile / 52) = k :: ks) ∧
    (∃ (s : State) (r : Retirement) (rest : List Retirement), s.flt.retire = r :: rest ∧
    let idle : Prop := s.up = true ∧ s.placing = false ∧ (s.ctx r.ptile 0).task = none ∧ (s.ctx r.ptile 1).task = none
    idle ∧ s.spares (r.ptile / 52) = []) ∧
    (∃ (s : State) (r : Retirement) (rest : List Retirement), s.flt.retire = r :: rest ∧
    let idle : Prop := s.up = true ∧ s.placing = false ∧ (s.ctx r.ptile 0).task = none ∧ (s.ctx r.ptile 1).task = none
    ¬ idle) ∧
    (∃ (s : State), s.flt.retire = []) ∧
    (∃ (h : Fin 19) (s : State) (j : SwapJob) (rest : List SwapJob), s.flt.swaps = j :: rest ∧ h.val ∉ s.flt.swapped ∧
      h.val ∈ s.holders ∧ Still s ∧
    let last : Prop := ∀ x ∈ s.holders, x ≠ h.val → x ∈ s.flt.swapped
    ¬ last) ∧
    (∃ (h : Fin 19) (s : State) (j : SwapJob) (rest : List SwapJob), s.flt.swaps = j :: rest ∧ h.val ∉ s.flt.swapped ∧
      h.val ∈ s.holders ∧ Still s ∧
    let last : Prop := ∀ x ∈ s.holders, x ≠ h.val → x ∈ s.flt.swapped
    last) ∧
    (∃ (h : Fin 19) (s : State), s.mem.resps = [] ∧ (s.flt.swaps = [] ∨ h.val ∈ s.flt.swapped ∨ h.val ∉ s.holders)) ∧
    (∃ (h : Fin 19) (d : Fin 19) (s : State), s.mem.resps = [] ∧ (h.val, d.val) ∈ s.flt.holds ∧
      s.underWay h.val d.val = false ∧ Still s) ∧
    (∃ (h : Fin 19) (d : Fin 19) (s : State), s.mem.resps = [] ∧ ((h.val, d.val) ∉ s.flt.holds ∨
      s.underWay h.val d.val = true)) ∧
    (∃ (n : Fin 16) (router : Bool) (s : State), s.up = true ∧ (s.dieState n.val).toNat < 2 ∧ s.flt.swaps = [] ∧
      s.flt.swapped = []) ∧
    (∃ (n : Fin 16) (router : Bool) (s : State), (s.up = false ∨ 2 ≤ (s.dieState n.val).toNat)) ∧
    (∃ (cause : FailoverCause) (bad : List (Nat × BitVec 3)) (s : State), s.up = true ∧ s.flt.standby = 0) ∧
    (∃ (cause : FailoverCause) (bad : List (Nat × BitVec 3)) (s : State), (s.up = false ∨ s.flt.standby ≠ 0)) ∧
    (∃ (s : State), Rising s.keel.ledger) ∧
    (∃ (s : State), s.up = true ∧ s.flt.standby = 0) ∧
    (∃ (pass : Bool) (s : State), s.flt.standby = 1 ∧ s.boot.phase ≠ .held) ∧
    (∃ (pass : Bool) (s : State), (s.flt.standby ≠ 1 ∨ s.boot.phase = .held)) :=
  ⟨⟨retiring [(50, { state := .spare })], { ptile := 3, code := 5 }, [], by decide +kernel, by decide +kernel, 50, [],
    by decide +kernel⟩,
    ⟨retiring [], { ptile := 3, code := 5 }, [], by decide +kernel⟩,
    ⟨{ (retiring []) with tiles := [(3, { c0 := busy })] }, { ptile := 3, code := 5 }, [], by decide +kernel⟩,
    ⟨up, by decide +kernel⟩,
    ⟨4, { up with flt := { up.flt with swaps := [swapTo .routing] } }, swapTo .routing, [], by unfold Still; decide +kernel⟩,
    ⟨18, { up with flt := { up.flt with swaps := [swapTo .routing], swapped := List.range 18 } }, swapTo .routing, [],
      by unfold Still; decide +kernel⟩,
    ⟨4, up, by decide +kernel⟩,
    ⟨4, 7, { up with flt := { up.flt with holds := [(4, 7), (4, 8)] } }, by unfold Still; decide +kernel⟩,
    ⟨4, 7, up, by decide +kernel⟩,
    ⟨2, true, { up with flt := { up.flt with routes := { tile := [(3, 3), (100, 5)] } } }, by decide +kernel⟩,
    ⟨2, true, { up with flt := { up.flt with dies := [(2, { state := 2 })] } }, by decide +kernel⟩,
    ⟨.memory, [], { withLg [(5, eTask)] (ctx3 busy) with flt := { up.flt with standby := 0 } }, by decide +kernel⟩,
    ⟨.memory, [], up, by decide +kernel⟩,
    ⟨withLg [(5, eTask)] (ctx3 busy), by decide +kernel⟩,
    ⟨{ withLg [(5, eTask)] (ctx3 busy) with flt := { up.flt with standby := 0 } }, by decide +kernel⟩,
    ⟨true, up, by decide +kernel⟩,
    ⟨true, { withLg [(5, eTask)] (ctx3 busy) with flt := { up.flt with standby := 0 } }, by decide +kernel⟩⟩

theorem test_witness_ResetsAndStartUp :
    (∃ (s : State), s.tim.vddf < 480) ∧
    (∃ (s : State), 480 ≤ s.tim.vddf) ∧
    (∃ (env : BootEnv) (s : State), s.boot.phase = .held ∧ s.tim.supplyHold = false) ∧
    (∃ (env : BootEnv) (s : State), (s.boot.phase ≠ .held ∨ s.tim.supplyHold = true)) ∧
    (∃ (s : State), s.boot.phase = .training ∧ (∀ ch, ch < 80 → ch ∈ s.boot.trained) ∧ SpokesSound s ∧ s.flt.swaps = []) ∧
    (∃ (s : State), (s.boot.phase ≠ .training ∨ (∃ ch, ch < 80 ∧ ch ∉ s.boot.trained))) ∧
    (∃ (s : State), s.boot.phase = .placed ∧ s.boot.warmAsked = false) ∧
    (∃ (s : State), s.boot.phase = .placed ∧ s.boot.warmAsked = true) ∧
    (∃ (s : State), s.boot.phase ≠ .placed) ∧
    (∃ (s : State), s.boot.phase = .ready) ∧
    (∃ (s : State), (s.boot.phase = .placed ∨ s.boot.phase = .training)) ∧
    (∃ (s : State), (s.boot.phase = .warm ∨ s.boot.phase = .held)) ∧
    (∃ (bad : List (Nat × BitVec 3)) (s : State), s.boot.phase = .warm ∧ SpokesSound s) ∧
    (∃ (bad : List (Nat × BitVec 3)) (wires : List (SpokeDir × WireTest)) (s : State), s.boot.phase ≠ .warm ∧ s.mem.resps = []) :=
  ⟨⟨{ up with tim := { vddf := 479 } }, by decide +kernel⟩,
    ⟨{ up with tim := { vddf := 480 } }, by decide +kernel⟩,
    ⟨{ leadselHigh := true, memrate := 3, blows := [true], tileFails := [], wires := [] }, State.reset, by decide +kernel⟩,
    ⟨{ leadselHigh := true, memrate := 3, blows := [true], tileFails := [], wires := [] }, up, by decide +kernel⟩,
    ⟨{ State.reset with boot := { phase := .training, trained := List.range 80 } }, by unfold SpokesSound; decide +kernel⟩,
    ⟨{ State.reset with boot := { phase := .training } }, by decide +kernel⟩,
    ⟨{ State.reset with boot := { phase := .placed } }, by decide +kernel⟩,
    ⟨{ State.reset with boot := { phase := .placed, warmAsked := true } }, by decide +kernel⟩,
    ⟨up, by decide +kernel⟩,
    ⟨ctx3 busy, by decide +kernel⟩,
    ⟨{ State.reset with boot := { phase := .placed } }, by decide +kernel⟩,
    ⟨{ up with boot := { phase := .warm } }, by decide +kernel⟩,
    ⟨[], { up with boot := { phase := .warm } }, by unfold SpokesSound; decide +kernel⟩,
    ⟨[], [], up, by decide +kernel⟩⟩

theorem test_witness_RegisterWrites :
    (∃ (v : Word) (s : State), s.up = false) ∧
    (∃ (v : Word) (s : State) (a : BitVec 40), (a.toNat < 0xFC00000000 ∨ a.toNat % 8 ≠ 0 ∨ 0xFC41000000 ≤ a.toNat)) ∧
    (∃ (v : Word) (s : State), s.up = true) :=
  ⟨⟨0x12345, State.reset, by decide +kernel⟩,
    ⟨0x12345, up, 0x1000, by decide +kernel⟩,
    ⟨0x12345, up, by decide +kernel⟩⟩

theorem test_witness_StepKeepsInvariant :
    ∃ (s : State) (t : State), BlockInv s ∧ step s = .next t :=
  ⟨{ up with pending := [.refclkLost] }, exec1 .refclkLost up, by unfold BlockInv; decide +kernel, rfl⟩

theorem test_witness_FusesNeverRevert :
    (∃ (c : Instr) (s : State) (t : State), exec c s = .next t ∧ (∀ env, c ≠ .coldResetRelease env)) ∧
    (∃ (c : Instr) (s : State) (t : State), exec c s = .next t ∧ s.sec.owner = true) ∧
    (∃ (c : Instr) (s : State) (t : State), exec c s = .next t ∧ s.sec.voff = true) :=
  ⟨⟨.refclkLost, up, exec1 .refclkLost up, rfl, (fun _ h => nomatch h)⟩,
    ⟨.refclkLost, { up with sec := { owner := true } }, exec1 .refclkLost { up with sec := { owner := true } }, rfl,
      by decide +kernel⟩,
    ⟨.refclkLost, { up with sec := { voff := true } }, exec1 .refclkLost { up with sec := { voff := true } }, rfl,
      by decide +kernel⟩⟩

theorem test_witness_DeviceStateChanges :
    ∃ (c : Instr) (s : State) (t : State), exec c s = .next t ∧ t.keel.dstate ≠ s.keel.dstate :=
  ⟨.islArm 1, cmd 0x20 [], exec1 (.islArm 1) (cmd 0x20 []), rfl, by decide +kernel⟩

end Sys2Proof.Tests
end

section
/-! What lasts through every command: the fuses of the device and what part it is (R5, R417, R419, R421). -/
set_option autoImplicit false
namespace Sys2Proof.Machine

/-! ## Commands that keep all that `Kept` names -/

/-- The commands that `Kept` does not cover: those that bring the device into another state of R387 by themselves, the cold
resets, and the release from one, at which the epoch may advance (R421). -/
def beyondKept : Instr → Bool
  | .islArm _ | .islRun _ | .islFreewheelEnter _ | .islFreewheelLeave _ | .islQuiesce _ | .coldReset
  | .supplyMonitorColdReset | .coldResetRelease _ | .warmResetRelease .. => true
  | _ => false

theorem Kept.ofNext {s u t : State} (h : (.next u : Host.Outcome State Fault Refusal) = .next t) (k : Kept s u) : Kept s t := by
  cases h; exact k

/-- Every other command keeps what its operation and the deliveries after it keep. -/
theorem exec_kept {c : Instr} {s t : State} (h : exec c s = .next t) (hc : beyondKept c = false) : Kept s t := by
  cases c with
  | spokeTokenReceived => exact .ofNext h (spokeTokenReceived_kept ..)
  | acknowledgeTransition => exact .ofNext h ((acknowledgeTransition_kept ..).trans (deliver_kept _))
  | creditReturn => exact .ofNext h ((creditReturn_kept ..).trans (deliver_kept _))
  | stallDetected => exact .ofNext h (stallDetected_kept ..)
  | wireTestComplete => exact .ofNext h (((wireTestComplete_kept ..).trans (deliver_kept _)).trans (checkDies_kept _))
  | handshakeRequest => exact .ofNext h (handshakeRequest_kept ..)
  | handshakeAcknowledge => exact .ofNext h (handshakeAcknowledge_kept ..)
  | paceWindowClose => exact .ofNext h (paceWindowClose_kept ..)
  | clrmin => exact .ofNext h (.whenUp (.refl _) fun _ => clrmin_kept ..)
  | refclkLost => exact .ofNext h (refclkLost_kept ..)
  | refclkReturn => exact .ofNext h (refclkReturn_kept ..)
  | vddfChange mv =>
    simp only [exec, execVddfChange] at h
    split at h
    · cases h
    · exact .ofNext h (vddfSet_kept ..)
  | conversion => exact .ofNext h (conversion_kept ..)
  | flagWordRead => exact .ofNext h (flagWordRead_kept ..)
  | load => exact .ofNext h (load_kept ..)
  | loadBeat => exact .ofNext h (loadBeat_kept ..)
  | planeComplete => exact .ofNext h (planeComplete_kept ..)
  | stream => exact .ofNext h (stream_kept ..)
  | rowIssue => exact .ofNext h (rowIssue_kept ..)
  | outputVectorWritten => exact .ofNext h (outputVectorWritten_kept ..)
  | drain => exact .ofNext h (drain_kept ..)
  | mvp => exact .ofNext h (mvp_kept ..)
  | fence => exact .ofNext h (fence_kept ..)
  | fenceComplete => exact .ofNext h (fenceComplete_kept ..)
  | arrayNop => exact .ofNext h (arrayNop_kept ..)
  | stall => exact .ofNext h (stall_kept ..)
  | tvuProgramStart => exact .ofNext h (tvuProgramStart_kept ..)
  | nop => exact .ofNext h (tvuNop_kept ..)
  | tend => exact .ofNext h (tvuEnd_kept ..)
  | br => exact .ofNext h (tvuBr_kept ..)
  | bloop => exact .ofNext h (tvuBloop_kept ..)
  | rep => exact .ofNext h (tvuRep_kept ..)
  | rete => exact .ofNext h (tvuRete_kept ..)
  | even => exact .ofNext h (tvuEven_kept ..)
  | waitv => exact .ofNext h (tvuWaitv_kept ..)
  | waitvComplete => exact .ofNext h (waitvComplete_kept ..)
  | rrel => exact .ofNext h (tvuRrel_kept ..)
  | frd => exact .ofNext h (tvuFrd_kept ..)
  | fclr => exact .ofNext h (tvuFclr_kept ..)
  | rot => exact .ofNext h (tvuRot_kept ..)
  | setl => exact .ofNext h (tvuSetl_kept ..)
  | seth => exact .ofNext h (tvuSeth_kept ..)
  | saddi => exact .ofNext h (tvuSaddi_kept ..)
  | smov => exact .ofNext h (tvuSmov_kept ..)
  | vld => exact .ofNext h (tvuVld_kept ..)
  | vst => exact .ofNext h (tvuVst_kept ..)
  | vstsh => exact .ofNext h (tvuVstsh_kept ..)
  | vadd => exact .ofNext h (tvuVadd_kept ..)
  | vsub => exact .ofNext h (tvuVsub_kept ..)
  | vmul => exact .ofNext h (tvuVmul_kept ..)
  | vmad => exact .ofNext h (tvuVmad_kept ..)
  | vmax => exact .ofNext h (tvuVmax_kept ..)
  | vmin => exact .ofNext h (tvuVmin_kept ..)
  | vcmp => exact .ofNext h (tvuVcmp_kept ..)
  | vsel => exact .ofNext h (tvuVsel_kept ..)
  | vcvt => exact .ofNext h (tvuVcvt_kept ..)
  | vshr => exact .ofNext h (tvuVshr_kept ..)
  | vshl => exact .ofNext h (tvuVshl_kept ..)
  | vexp => exact .ofNext h (tvuVexp_kept ..)
  | vrcp => exact .ofNext h (tvuVrcp_kept ..)
  | vrsq => exact .ofNext h (tvuVrsq_kept ..)
  | vtanh => exact .ofNext h (tvuVtanh_kept ..)
  | vrsum => exact .ofNext h (tvuVrsum_kept ..)
  | vrmax => exact .ofNext h (tvuVrmax_kept ..)
  | vbin2 => exact .ofNext h (tvuVbin2_kept ..)
  | vslide => exact .ofNext h (tvuVslide_kept ..)
  | vbcst => exact .ofNext h (tvuVbcst_kept ..)
  | vsplat => exact .ofNext h (tvuVsplat_kept ..)
  | cancellationNotice => exact .ofNext h (cancellationNotice_kept ..)
  | faultNotice => exact .ofNext h (faultNotice_kept ..)
  | pacelineEvent => exact .ofNext h (pacelineEvent_kept ..)
  | taskStart => exact .ofNext h (taskStart_kept ..)
  | seqArrayEntry => exact .ofNext h (seqArrayEntry_kept ..)
  | seqTvuEntry => exact .ofNext h (seqTvuEntry_kept ..)
  | xfer => exact .ofNext h (xfer_kept ..)
  | loop => exact .ofNext h (loop_kept ..)
  | wait => exact .ofNext h (wait_kept ..)
  | waitSatisfied => exact .ofNext h (waitSatisfied_kept ..)
  | seqEnd => exact .ofNext h (seqEnd_kept ..)
  | taskComplete => exact .ofNext h (taskComplete_kept ..)
  | read => exact .ofNext h (read_kept ..)
  | write => exact .ofNext h (write_kept ..)
  | remote => exact .ofNext h (remote_kept ..)
  | paceOrigin => exact .ofNext h (paceOrigin_kept ..)
  | paceForward => exact .ofNext h (paceForward_kept ..)
  | peer => exact .ofNext h (peer_kept ..)
  | ctake => exact .ofNext h (ctake_kept ..)
  | grant => exact .ofNext h (grant_kept ..)
  | pring => exact .ofNext h (pring_kept ..)
  | descriptorFetch => exact .ofNext h (descriptorFetch_kept ..)
  | requestResponse => exact .ofNext h (requestResponse_kept ..)
  | timeout => exact .ofNext h (timeout_kept ..)
  | cancellation => exact .ofNext h (cancellation_kept ..)
  | cancellationAck => exact .ofNext h (cancellationAck_kept ..)
  | grantReceived => exact .ofNext h (grantReceived_kept ..)
  | remoteTokenReceived => exact .ofNext h (remoteTokenReceived_kept ..)
  | pacelineBlockStored => exact .ofNext h (pacelineBlockStored_kept ..)
  | blockRelease => exact .ofNext h (blockRelease_kept ..)
  | counterTake => exact .ofNext h (counterTake_kept ..)
  | clockGeneratorEnable => exact .ofNext h (clockGeneratorEnable_kept ..)
  | blockMemoryAccess => exact .ofNext h (blockMemoryAccess_kept ..)
  | bind => exact .ofNext h (bind_kept ..)
  | queueDataWord => exact .ofNext h (queueDataWord_kept ..)
  | queueGrant => exact .ofNext h (queueGrant_kept ..)
  | queueTokenSend => exact .ofNext h (queueTokenSend_kept ..)
  | regionPortRequest => exact .ofNext h (regionPortRequest_kept ..)
  | regionPortInboundToken => exact .ofNext h (regionPortInboundToken_kept ..)
  | regionCloseComplete => exact .ofNext h (regionCloseComplete_kept ..)
  | gpiocfgWrite => exact .ofNext h (.whenUp (.refl _) fun _ => gpiocfgWrite_kept ..)
  | ioOutputChange => exact .ofNext h (ioOutputChange_kept ..)
  | ioInputChange => exact .ofNext h (ioInputChange_kept ..)
  | ioChannelToken => exact .ofNext h (ioChannelToken_kept ..)
  | islStoreWrite => exact .ofNext h ((islStoreWrite_kept ..).trans (deliver_kept _))
  | islImageLoad => exact .ofNext h (islImageLoad_kept ..)
  | islRegionLoad => exact .ofNext h (islRegionLoad_kept ..)
  | weevilRead => exact .ofNext h (weevilRead_kept ..)
  | weevilCheck => exact .ofNext h (weevilCheck_kept ..)
  | wvctlWrite => exact .ofNext h (.whenUp (.refl _) fun _ => wvctlWrite_kept ..)
  | memoryRequest => exact .ofNext h ((memoryRequest_kept ..).trans (deliver_kept _))
  | commandSlot => exact .ofNext h ((commandSlot_kept ..).trans (deliver_kept _))
  | mirrorCopy => exact .ofNext h ((mirrorCopy_kept ..).trans (deliver_kept _))
  | refreshDue => exact .ofNext h (refreshDue_kept ..)
  | commandTimeout => exact .ofNext h ((commandTimeout_kept ..).trans (deliver_kept _))
  | mrtWrite => exact .ofNext h (.whenUp (.refl _) fun _ => mrtWrite_kept ..)
  | releaseFillComplete => exact .ofNext h (releaseFillComplete_kept ..)
  | rtportWrite => exact .ofNext h (.whenUp (.refl _) fun _ => rtportWrite_kept ..)
  | islMemTrain => exact .ofNext h (islMemTrain_kept ..)
  | trainingComplete => exact .ofNext h ((trainingComplete_kept ..).trans (deliver_kept _))
  | lncfgWrite => exact .ofNext h (.whenUp (.refl _) fun _ => lncfgWrite_kept ..)
  | laneAcquireTimeout => exact .ofNext h (laneAcquireTimeout_kept ..)
  | laneReceive => exact .ofNext h (laneReceive_kept ..)
  | laneTransmitToken => exact .ofNext h (laneTransmitToken_kept ..)
  | marker => exact .ofNext h (marker_kept ..)
  | link => exact .ofNext h (link_kept ..)
  | resendTimeout => exact .ofNext h (resendTimeout_kept ..)
  | peerWriteFrame => exact .ofNext h (peerWriteFrame_kept ..)
  | peerAcknowledgeFrame => exact .ofNext h (peerAcknowledgeFrame_kept ..)
  | peerRefusalFrame => exact .ofNext h (peerRefusalFrame_kept ..)
  | commandFrame => exact .ofNext h (commandFrame_kept ..)
  | replyFrame => exact .ofNext h (replyFrame_kept ..)
  | linkInit => exact .ofNext h (linkInit_kept ..)
  | acknowledgeTimeout => exact .ofNext h (acknowledgeTimeout_kept ..)
  | countStep => exact .ofNext h (countStep_kept ..)
  | positionComparison => exact .ofNext h (positionComparison_kept ..)
  | odocfgWrite => exact .ofNext h (.whenUp (.refl _) fun _ => odocfgWrite_kept ..)
  | ingressToken => exact .ofNext h ((ingressToken_kept ..).trans (deliver_kept _))
  | linePartWritten => exact .ofNext h ((linePartWritten_kept ..).trans (deliver_kept _))
  | ingcfgWrite => exact .ofNext h (.whenUp (.refl _) fun _ => ingcfgWrite_kept ..)
  | islIngRelease => exact .ofNext h (islIngRelease_kept ..)
  | packetIntake => exact .ofNext h (packetIntake_kept ..)
  | islAck => exact .ofNext h (islAck_kept ..)
  | acceptance => exact .ofNext h (acceptance_kept ..)
  | commandStart => exact .ofNext h (commandStart_kept ..)
  | replySend => exact .ofNext h (replySend_kept ..)
  | eventRecordSend => exact .ofNext h (eventRecordSend_kept ..)
  | islNop => exact .ofNext h (islNop_kept ..)
  | islChannelSet => exact .ofNext h (islChannelSet_kept ..)
  | islRead => exact .ofNext h (islRead_kept ..)
  | islWrite => exact .ofNext h ((islWrite_kept ..).trans (deliver_kept _))
  | islRegionClose => exact .ofNext h (islRegionClose_kept ..)
  | quiesceDrainEnd => exact .ofNext h (quiesceDrainEnd_kept ..)
  | islResetWarm => exact .ofNext h (islResetWarm_kept ..)
  | islResetTile => exact .ofNext h (islResetTile_kept ..)
  | islResetFieldDie => exact .ofNext h (islResetFieldDie_kept ..)
  | islResetRim => exact .ofNext h ((islResetRim_kept ..).trans (deliver_kept _))
  | islResetLane => exact .ofNext h (islResetLane_kept ..)
  | islResetSpoke => exact .ofNext h (islResetSpoke_kept ..)
  | islResetRegion => exact .ofNext h (islResetRegion_kept ..)
  | partResetComplete => exact .ofNext h ((partResetComplete_kept ..).trans (deliver_kept _))
  | partResetTimeout => exact .ofNext h (partResetTimeout_kept ..)
  | islTaskIssue => exact .ofNext h (islTaskIssue_kept ..)
  | islTaskCancel => exact .ofNext h (islTaskCancel_kept ..)
  | islFlagsClear => exact .ofNext h (islFlagsClear_kept ..)
  | islCtrSet => exact .ofNext h (islCtrSet_kept ..)
  | islOdoPreset => exact .ofNext h (islOdoPreset_kept ..)
  | islActArm => exact .ofNext h (islActArm_kept ..)
  | islActCancel => exact .ofNext h (islActCancel_kept ..)
  | islWorldSetTile => exact .ofNext h (islWorldSetTile_kept ..)
  | islWorldSetCounterBank => exact .ofNext h (islWorldSetCounterBank_kept ..)
  | islWorldSetLaneGroup => exact .ofNext h (islWorldSetLaneGroup_kept ..)
  | islAttest => exact .ofNext h ((islAttest_kept ..).trans (deliver_kept _))
  | pathLoss => exact .ofNext h (pathLoss_kept ..)
  | pathRestart => exact .ofNext h (pathRestart_kept ..)
  | fuseBlowOwnerRoot => exact .ofNext h (.whenUp (.refl _) fun _ => fuseBlowOwnerRoot_kept ..)
  | fuseDisableVendorRoot => exact .ofNext h (.whenUp (.refl _) fun _ => fuseDisableVendorRoot_kept ..)
  | spareSubstitution => exact .ofNext h (spareSubstitution_kept ..)
  | routeTableSwap => exact .ofNext h ((routeTableSwap_kept ..).trans (deliver_kept _))
  | ejectionReport => exact .ofNext h ((ejectionReport_kept ..).trans (deliver_kept _))
  | dieControlTimeout => exact .ofNext h (dieControlTimeout_kept ..)
  | tandemWatchdog => exact .ofNext h (tandemWatchdog_kept ..)
  | tandemFailover => exact .ofNext h (tandemFailover_kept ..)
  | tilePlacement => exact .ofNext h (tilePlacement_kept ..)
  | sealedEntry => exact .ofNext h (sealedEntry_kept ..)
  | attstatReady => exact .ofNext h ((attstatReady_kept ..).trans (deliver_kept _))
  | warmReset => exact .ofNext h (warmReset_kept ..)
  | laneGroupReenable => exact .ofNext h (laneGroupReenable_kept ..)
  | sspWrite => exact .ofNext h (sspWrite_kept ..)
  | sspRead => exact .ofNext h (sspRead_kept ..)
  | sspCsRise => exact .ofNext h (sspCsRise_kept ..)
  | registerWrite => exact .ofNext h (registerWrite_kept ..)
  | cdrLockChange => exact .ofNext h (cdrLockChange_kept ..)
  | transmitUnderrun => exact .ofNext h (transmitUnderrun_kept ..)
  | standbySelfTest => exact .ofNext h (standbySelfTest_kept ..)
  | supplyMonitorColdReset | islArm | islRun | islFreewheelEnter | islFreewheelLeave
  | islQuiesce | coldReset | coldResetRelease | warmResetRelease => cases hc

/-! ## The fuses and the part -/

/-- Which part the device is, its epoch, its owner root and its disabled vendor root last from `s` to `t`. -/
structure FusesKept (s t : State) : Prop where
  parts : t.hPart = s.hPart ∧ t.xPart = s.xPart
  sec : SecKept s.sec t.sec

theorem Kept.fuses {s t : State} (h : Kept s t) : FusesKept s t := ⟨h.parts, h.sec⟩
theorem FusesKept.refl (s : State) : FusesKept s s := (Kept.refl s).fuses

theorem FusesKept.trans {s t u : State} (h : FusesKept s t) (g : FusesKept t u) : FusesKept s u :=
  ⟨⟨g.parts.1.trans h.parts.1, g.parts.2.trans h.parts.2⟩, h.sec.trans g.sec⟩

theorem enter_fusesKept (s : State) (d : DevState) (m : Mark) : FusesKept s (s.enter d m) := ⟨⟨rfl, rfl⟩, .refl _⟩

theorem FusesKept.islRun {s : State} {c o : Nat} {f : Nat → LgEntry → State → State}
    (hf : ∀ i e u, FusesKept u (f i e u)) : FusesKept s (s.islRun c o f) := by
  rcases islRun_cases s c o f with ⟨i, e, -, -, -, -, hr⟩ | ⟨hr, -⟩
  · have started : FusesKept s { s with keel := { s.keel with current := none } } := ⟨⟨rfl, rfl⟩, .refl _⟩
    rw [hr]; exact started.trans (hf i e _)
  · rw [hr]; exact .refl s

/-- A command that enters a device state and replies at once. -/
theorem enterCommand_fusesKept (s : State) (c o : Nat) (d : DevState) :
    FusesKept s (s.islRun c o fun i e s => (s.enter d (e.markOf stOK)).done i stOK) :=
  .islRun fun _ _ u => (enter_fusesKept u _ _).trans (done_kept ..).fuses

theorem islQuiesce_fusesKept (c : Nat) (s : State) : FusesKept s (islQuiesce c s) :=
  .islRun fun _ _ _ => ⟨⟨rfl, rfl⟩, .refl _⟩

theorem cold_fusesKept (s : State) (hold : Bool) : FusesKept s (s.cold hold) := ⟨⟨rfl, rfl⟩, .same rfl rfl rfl rfl⟩

theorem supplyMonitorColdReset_fusesKept (s : State) : FusesKept s (supplyMonitorColdReset s) := by
  unfold supplyMonitorColdReset
  split
  · exact cold_fusesKept s true
  · exact .refl s

theorem warmResetRelease_fusesKept (bad : List (Nat × BitVec 3)) (wires : List (SpokeDir × WireTest)) (s : State) :
    FusesKept s (warmResetRelease bad wires s) := by
  unfold warmResetRelease
  split
  · exact .refl s
  · dsimp only
    have tested := (Kept.foldl (fun s ch => s.outOfSref ch) (List.range 80) (.refl s) fun u ch => outOfSref_kept u ch).trans
      ((Kept.foldl (fun s i => s.retest wires i) (List.range 34) (.refl _) fun u i => retest_kept u wires i).trans
        (checkDies_kept _))
    have freewheel (u : State) : FusesKept u (if u.keel.dstate = .running then u.setDstate .freewheel else u) := by
      split
      · exact ⟨⟨rfl, rfl⟩, .refl _⟩
      · exact .refl u
    refine (tested.fuses.trans (freewheel _)).trans (Kept.fuses ?_)
    refine Kept.foldl _ _ ?_ (fun u st => streamGo_kept u st)
    exact (((modFlt_kept ..).trans (rebuild_kept ..)).upd (.refl _) (.refl _) id)

/-- A command other than the release from cold reset leaves every fuse that is blown. -/
theorem exec_fusesKept {c : Instr} {s t : State} (h : exec c s = .next t) (hc : ∀ env, c ≠ .coldResetRelease env) :
    FusesKept s t := by
  by_cases hk : beyondKept c = false
  · exact (exec_kept h hk).fuses
  · cases c with
    | islArm | islRun | islFreewheelEnter | islFreewheelLeave => cases h; exact enterCommand_fusesKept ..
    | islQuiesce => cases h; exact islQuiesce_fusesKept ..
    | coldReset => cases h; exact cold_fusesKept ..
    | supplyMonitorColdReset => cases h; exact supplyMonitorColdReset_fusesKept s
    | warmResetRelease => cases h; exact (warmResetRelease_fusesKept ..).trans (deliver_kept _).fuses
    | coldResetRelease env => exact absurd rfl (hc env)
    | _ => exact absurd rfl hk

/-! ## The epoch at a release from cold reset (R421) -/

/-- The epoch bit that an advance confirms is one that was not blown, of the 4,096 that there are. -/
theorem epochAdvance_some {used : Nat} {blows : List Bool} {b : Nat} (h : epochAdvance used blows = some b) :
    used ≤ b ∧ b < 4096 := by
  obtain ⟨k, hk, rfl⟩ := Option.map_eq_some_iff.mp h
  have := List.find?_some hk
  simp only [Bool.and_eq_true, decide_eq_true_eq] at this
  omega

/-- The release from cold reset leaves the part and the roots, and blows epoch bits only upwards. -/
theorem coldResetRelease_fuses (env : BootEnv) (s : State) :
    let t := coldResetRelease env s
    (t.hPart = s.hPart ∧ t.xPart = s.xPart) ∧ s.sec.epUsed.toNat ≤ t.sec.epUsed.toNat ∧ t.sec.owner = s.sec.owner ∧
      t.sec.ownerRoot = s.sec.ownerRoot ∧ t.sec.voff = s.sec.voff := by
  unfold coldResetRelease
  dsimp only
  split
  · exact ⟨⟨rfl, rfl⟩, Nat.le_refl _, rfl, rfl, rfl⟩
  · refine ⟨⟨rfl, rfl⟩, ?_, rfl, rfl, rfl⟩
    cases he : epochAdvance s.sec.epUsed.toNat env.blows with
    | none => exact Nat.le_refl _
    | some b =>
      have ⟨hb, hlt⟩ := epochAdvance_some he
      change _ ≤ (BitVec.ofNat 13 (b + 1)).toNat
      rw [BitVec.toNat_ofNat]
      omega

end Sys2Proof.Machine

open Sys2Proof Sys2Proof.Machine

/-- Settles O59: the release from cold reset alone advances the epoch; every other command keeps each fuse. -/
theorem fusesNeverRevert : Obligations.FusesNeverRevert := by
  unfold Obligations.FusesNeverRevert
  intro c s t h
  by_cases hc : ∃ env, c = .coldResetRelease env
  · obtain ⟨env, rfl⟩ := hc
    cases h
    obtain ⟨⟨hp, xp⟩, ep, ow, root, vo⟩ := coldResetRelease_fuses env s
    exact ⟨hp, xp, ep, fun hne => absurd rfl (hne env), fun ho => ⟨ow.trans ho, root⟩, fun hv => vo.trans hv⟩
  · have ⟨⟨hp, xp⟩, sec⟩ := exec_fusesKept h fun env e => hc ⟨env, e⟩
    exact ⟨hp, xp, Nat.le_of_eq (congrArg _ sec.epUsed.symm), fun _ => sec.epUsed, sec.owner, sec.voff⟩

end

section
/-! What ends with the training of a channel besides the training: the answers that wait are handed over. -/
set_option autoImplicit false
namespace Sys2Proof.Machine

/-- A device in start-up whose memory holds an answer for region 0 that has not been handed over yet. -/
def answerWaiting : State :=
  { State.reset with
    boot := { phase := .training }
    mem := { resps := [{ src := .region 0 0, write := false, status := 0, data := [] }] } }

end Sys2Proof.Machine

open Sys2Proof Sys2Proof.Machine

/-- Refutes O34: when the training of a channel ends, the answers of the memory that wait for regions and ports are handed over in
the same step (`State.deliver`), while the statement has nothing of the memory change but its channels. In `answerWaiting`
channel 0 trains, and the answer for region 0 is gone from the queue of answers. -/
theorem not_refreshAndTraining : ¬ Obligations.RefreshAndTraining := by
  unfold Obligations.RefreshAndTraining
  intro h
  obtain ⟨-, -, -, startUp, -⟩ := h
  obtain ⟨t, ht, -, -, frame⟩ := (startUp 0 0 true [] answerWaiting rfl rfl rfl).1 rfl rfl
  cases ht
  have kept := congrArg (fun t => t.mem.resps.length) frame
  exact absurd kept (by decide)

end

section
/-! Register writes (R9): which address is which word, and what a secure write of the word does. -/
set_option autoImplicit false
namespace Sys2Proof.Machine

/-! ## When a write has an effect -/

theorem whenUp_up {s : State} (h : s.up = true) (f : State → State) : s.whenUp f = f s := if_pos h
theorem whenUp_down {s : State} (h : s.up = false) (f : State → State) : s.whenUp f = s := if_neg (by simp [h])

theorem writeReg_nonsecure (s : State) (a : Nat) (v : Word) : s.writeReg false a v = s := rfl

theorem writeReg_outside {a : Nat} (h : a < 0xFC00000000 ∨ a % 8 ≠ 0 ∨ 0xFC41000000 ≤ a) (s : State) (w : World)
    (v : Word) : s.writeReg w a v = s := by
  unfold State.writeReg
  by_cases h8 : a % 8 = 0
  · have keel : ¬ (0xFC00000000 ≤ a ∧ a < 0xFC00140000) := by omega
    have dies : ¬ (0xFC40000000 ≤ a ∧ a < 0xFC41000000) := by omega
    simp [keel, dies]
  · simp [h8]

/-- A write that changes nothing while the block is up changes nothing. -/
theorem exec_registerWrite_ignored {s : State} {w : World} {a : BitVec 40} {v : Word} (h : s.writeReg w a.toNat v = s) :
    exec (.registerWrite w a v) s = .next s := by
  rcases whenUp_cases s (fun s => s.writeReg w a.toNat v) with ⟨-, e⟩ | ⟨-, e⟩
  · exact congrArg _ (e.trans h)
  · exact congrArg _ e

theorem exec_registerWrite_up {s : State} (h : s.up = true) (a : BitVec 40) (v : Word) :
    exec (.registerWrite true a v) s = .next (s.writeReg true a.toNat v) := congrArg _ (whenUp_up h _)

/-- A word of the keel-visible structures, by its offset. -/
theorem writeReg_keel {o : Nat} (ho : o < 0x140000) (h8 : o % 8 = 0) (s : State) (v : Word) :
    s.writeReg true (0xFC00000000 + o) v = s.keelWrite o v := by
  unfold State.writeReg
  have aligned : (0xFC00000000 + o) % 8 = 0 := by omega
  have inside : 0xFC00000000 + o < 0xFC00140000 := by omega
  simp [aligned, inside]

theorem exec_registerWrite_keel {s : State} (h : s.up = true) {a : BitVec 40} {o : Nat} (ha : a.toNat = 0xFC00000000 + o)
    (ho : o < 0x140000) (h8 : o % 8 = 0) (v : Word) :
    exec (.registerWrite true a v) s = .next (s.keelWrite o v) := by
  rw [exec_registerWrite_up h, ha, writeReg_keel ho h8]

/-! ## Words of the keel-visible structures -/

section
variable (s : State) (v : Word)

theorem keelWrite_pacectl : s.keelWrite 0x20088 v = s.pacectlWrite v := rfl

theorem keelWrite_gpiocfg {m p : Nat} (hm : m < 2) (hp : p < 128) :
    s.keelWrite (0x50000 + (0x400 * m + 8 * p)) v = gpiocfgWrite true m p v s := by
  have block : (0x50000 + (0x400 * m + 8 * p)) / 0x10000 = 5 := by omega
  have offset : (0x50000 + (0x400 * m + 8 * p)) % 0x10000 = 0x400 * m + 8 * p := by omega
  have rim : (0x400 * m + 8 * p) / 0x400 = m := by omega
  have pin : (0x400 * m + 8 * p) % 0x400 / 8 = p := by omega
  simp only [State.keelWrite, block, offset, rim, pin]
  exact if_pos (by omega)

theorem keelWrite_ffland {m l : Nat} (hm : m < 2) (hl : l < 16) : s.keelWrite (0x50800 + 8 * (16 * m + l)) v =
    { s with fab := { s.fab with
      ffland := tput (16 * m + l) (fflandMerge m (tget 0 s.fab.ffland (16 * m + l)) v) s.fab.ffland } } := by
  have block : (0x50800 + 8 * (16 * m + l)) / 0x10000 = 5 := by omega
  have offset : (0x50800 + 8 * (16 * m + l)) % 0x10000 = 0x800 + 8 * (16 * m + l) := by omega
  have probeLand : (0x800 + 8 * (16 * m + l) - 0x800) / 8 = 16 * m + l := by omega
  have rim : (16 * m + l) / 16 = m := by omega
  simp only [State.keelWrite, block, offset, probeLand, rim]
  rw [if_neg (by omega), if_pos (by omega)]

theorem keelWrite_mrt {m e : Nat} (hm : m < 2) (he : e < 256) :
    s.keelWrite (0x70000 + (0x800 * m + 8 * e)) v = mrtWrite true m e v s := by
  have block : (0x70000 + (0x800 * m + 8 * e)) / 0x10000 = 7 := by omega
  have offset : (0x70000 + (0x800 * m + 8 * e)) % 0x10000 = 0x800 * m + 8 * e := by omega
  have entry : (0x800 * m + 8 * e) / 8 = 256 * m + e := by omega
  simp only [State.keelWrite, block, offset, entry]
  exact if_pos (by omega)

theorem keelWrite_mctl {m : Nat} (hm : m < 2) : s.keelWrite (0x71400 + 8 * m) v = s.mctlWrite m v := by
  have block : (0x71400 + 8 * m) / 0x10000 = 7 := by omega
  have offset : (0x71400 + 8 * m) % 0x10000 = 0x1400 + 8 * m := by omega
  have rim : (0x1400 + 8 * m - 0x1400) / 8 = m := by omega
  simp only [State.keelWrite, block, offset, rim]
  rw [if_neg (by omega), if_pos (by simp only [Bool.or_eq_true, decide_eq_true_eq]; omega)]

theorem mctl_mctlWrite (m : Nat) :
    tget ({} : Mctl) (s.mctlWrite m v).mem.mctl m = (tget ({} : Mctl) s.mem.mctl m).merge v := by
  simp [State.mctlWrite, State.setMem]

theorem mctl_mctlWrite_ne {m k : Nat} (h : k ≠ m) :
    tget ({} : Mctl) (s.mctlWrite m v).mem.mctl k = tget ({} : Mctl) s.mem.mctl k := by
  simp [State.mctlWrite, State.setMem, tget_tmod_ne h]

theorem keelWrite_rtport {m p : Nat} (hm : m < 2) (hp : p < 16) :
    s.keelWrite (0x71800 + (0x80 * m + 8 * p)) v = rtportWrite true m p v s := by
  have block : (0x71800 + (0x80 * m + 8 * p)) / 0x10000 = 7 := by omega
  have offset : (0x71800 + (0x80 * m + 8 * p)) % 0x10000 = 0x1800 + (0x80 * m + 8 * p) := by omega
  have rim : (0x1800 + (0x80 * m + 8 * p) - 0x1800) / 128 = m := by omega
  have port : (0x1800 + (0x80 * m + 8 * p) - 0x1800) / 8 % 16 = p := by omega
  simp only [State.keelWrite, block, offset, rim, port]
  rw [if_neg (by omega), if_neg (by simp only [Bool.or_eq_true, decide_eq_true_eq]; omega),
    if_pos (by simp only [Bool.and_eq_true, decide_eq_true_eq]; omega)]

theorem keelWrite_lncfg {m l : Nat} (hm : m < 2) (hl : l < 48) :
    s.keelWrite (0x80000 + (0x180 * m + 8 * l)) v = lncfgWrite true m l v s := by
  have block : (0x80000 + (0x180 * m + 8 * l)) / 0x10000 = 8 := by omega
  have offset : (0x80000 + (0x180 * m + 8 * l)) % 0x10000 = 0x180 * m + 8 * l := by omega
  have lane : (0x180 * m + 8 * l) / 8 = 48 * m + l := by omega
  simp only [State.keelWrite, block, offset, lane]
  exact if_pos (by omega)

theorem keelWrite_odocfg {c : Nat} (hc : c < 4) : s.keelWrite (0x90000 + 8 * c) v = odocfgWrite true c v s := by
  have block : (0x90000 + 8 * c) / 0x10000 = 9 := by omega
  have offset : (0x90000 + 8 * c) % 0x10000 = 8 * c := by omega
  have chan : 8 * c / 8 = c := by omega
  simp only [State.keelWrite, block, offset, chan]
  exact if_pos (by omega)

theorem keelWrite_ownstage {w : Nat} (hw : w < 8) :
    s.keelWrite (0xC0200 + 8 * w) v = s.modSec (fun x => { x with stage := tput w v x.stage }) := by
  have block : (0xC0200 + 8 * w) / 0x10000 = 0xC := by omega
  have offset : (0xC0200 + 8 * w) % 0x10000 = 0x200 + 8 * w := by omega
  have word : (0x200 + 8 * w - 0x200) / 8 = w := by omega
  simp only [State.keelWrite, block, offset, word]
  exact if_pos (by simp only [Bool.and_eq_true, decide_eq_true_eq]; omega)

theorem keelWrite_tlim : s.keelWrite 0xD4088 v =
    { s with flt := { s.flt with tlim := if bits v 3 0 = 0 then s.flt.tlim else BitVec.ofNat 4 (bits v 3 0) } } := by
  by_cases h : bits v 3 0 = 0 <;> simp [State.keelWrite, h]

theorem keelWrite_ingcfg {m p k : Nat} (hm : m < 2) (hp : p < 16) (hk : k < 3) :
    s.keelWrite (0xE0000 + (0x400 * m + (0x40 * p + 8 * k))) v = ingcfgWrite true m p k v s := by
  have block : (0xE0000 + (0x400 * m + (0x40 * p + 8 * k))) / 0x10000 = 0xE := by omega
  have offset : (0xE0000 + (0x400 * m + (0x40 * p + 8 * k))) % 0x10000 = 0x400 * m + (0x40 * p + 8 * k) := by omega
  have rim : (0x400 * m + (0x40 * p + 8 * k)) / 0x400 = m := by omega
  have port : (0x400 * m + (0x40 * p + 8 * k)) % 0x400 / 64 = p := by omega
  have word : (0x400 * m + (0x40 * p + 8 * k)) % 64 / 8 = k := by omega
  simp only [State.keelWrite, block, offset, rim, port, word]
  exact if_pos (by omega)

theorem keelWrite_evpath :
    s.keelWrite 0xF1010 v = { s with keel := { s.keel with evPath := BitVec.ofNat 2 (bits v 1 0) } } := rfl

/-! ## Words of the field dies -/

/-- A word of a field die's windows, by the die and the offset. -/
theorem writeReg_die {n o : Nat} (hn : n < 16) (ho : o < 0x100000) (h8 : o % 8 = 0) :
    s.writeReg true (0xFC40000000 + (0x100000 * n + o)) v =
      if 0x88000 ≤ o ∧ o < 0x88080 then
        let i := 16 * n + (o - 0x88000) / 8
        { s with fab := { s.fab with ffsel := tput i (ffselMerge (tget 0 s.fab.ffsel i) v) s.fab.ffsel } }
      else if o = 0x89000 then wvctlWrite true n v s
      else s := by
  generalize ha : 0xFC40000000 + (0x100000 * n + o) = a
  have aligned : a % 8 = 0 := by omega
  have keel : ¬ a < 0xFC00140000 := by omega
  have low : 0xFC40000000 ≤ a := by omega
  have high : a < 0xFC41000000 := by omega
  have die : (a - 0xFC40000000) / 0x100000 = n := by omega
  have offset : a % 0x100000 = o := by omega
  simp [State.writeReg, aligned, keel, low, high, die, offset]

theorem writeReg_ffsel {n p : Nat} (hn : n < 16) (hp : p < 16) :
    s.writeReg true (0xFC40000000 + (0x100000 * n + (0x88000 + 8 * p))) v = { s with fab := { s.fab with
      ffsel := tput (16 * n + p) (ffselMerge (tget 0 s.fab.ffsel (16 * n + p)) v) s.fab.ffsel } } := by
  have probe : (0x88000 + 8 * p - 0x88000) / 8 = p := by omega
  rw [writeReg_die s v hn (by omega) (by omega), if_pos (by omega), probe]

theorem writeReg_wvctl {n : Nat} (hn : n < 16) :
    s.writeReg true (0xFC40000000 + (0x100000 * n + 0x89000)) v = wvctlWrite true n v s :=
  writeReg_die s v hn (by decide) (by decide)

end

/-! ## `FFSEL` -/

/-- Fields that make up bits [25:0] of a word, packed, are those bits. -/
theorem packF_ffsel (v : Word) :
    packF [(0, 2, bits v 1 0), (2, 3, bits v 4 2), (5, 18, bits v 22 5), (23, 3, bits v 25 23)] =
      packF [(0, 26, bits v 25 0)] := by
  unfold packF bits
  refine congrArg (BitVec.ofNat 64) ?_
  rw [List.foldl_cons, List.foldl_cons, List.foldl_cons, List.foldl_cons, List.foldl_nil, List.foldl_cons, List.foldl_nil]
  dsimp only
  omega

/-- A disabled probe, or one of a cell that exists, takes its fields as written (R248). -/
theorem ffselMerge_taken (old v : Word) (h : bits v 1 0 = 0 ∨ (bits v 1 0 = 1 ∧ bits v 22 5 < 150000 ∧ bits v 25 23 < 4)) :
    ffselMerge old v = packF [(0, 26, bits v 25 0)] := by
  rw [← packF_ffsel]
  rcases h with h | ⟨h, hc, ho⟩
  · simp [ffselMerge, h]
  · simp [ffselMerge, h, Nat.not_le.mpr hc, Nat.not_le.mpr ho]

/-! ## Writes as answers, and as the command of their word -/

/-- What a write of a word of the keel-visible structures answers, from what `keelWrite` gives. -/
theorem answers_keelWrite {s t : State} (h : s.up = true) {a : BitVec 40} {o : Nat} {v : Word} {P : State → Prop}
    (ha : a.toNat = 0xFC00000000 + o) (ho : o < 0x140000) (h8 : o % 8 = 0) (hw : s.keelWrite o v = t) (hP : P t) :
    Answers (.registerWrite true a v) s P :=
  ⟨t, (exec_registerWrite_keel h ha ho h8 v).trans (congrArg _ hw), hP⟩

theorem exec_registerWrite_die {s t : State} (h : s.up = true) {a : BitVec 40} {b : Nat} {v : Word} (ha : a.toNat = b)
    (hw : s.writeReg true b v = t) : exec (.registerWrite true a v) s = .next t := by
  rw [exec_registerWrite_up h, ha, hw]

/-- A word with a command of its own is written as by that command. -/
theorem exec_registerWrite_as {s : State} (h : s.up = true) {a : BitVec 40} {o : Nat} {v : Word} {f : State → State} {i : Instr}
    (ha : a.toNat = 0xFC00000000 + o) (ho : o < 0x140000) (h8 : o % 8 = 0) (hw : s.keelWrite o v = f s)
    (hi : exec i s = .next (s.whenUp f)) : exec (.registerWrite true a v) s = exec i s := by
  rw [hi, whenUp_up h, exec_registerWrite_keel h ha ho h8, hw]

end Sys2Proof.Machine

open Sys2Proof Sys2Proof.Machine

/-- Settles O56: each address is that of its word, the write of a word sets its fields (`keelWrite_tlim`, `ffselMerge_taken` and
their like), and what the secure world may not reach, or reaches while the block is down, stays. -/
theorem registerWrites : Obligations.RegisterWrites := by
  unfold Obligations.RegisterWrites
  intro v s
  refine ⟨fun a => exec_registerWrite_ignored (writeReg_nonsecure ..),
    fun down w a => congrArg _ (whenUp_down down _),
    fun a outside => exec_registerWrite_ignored (writeReg_outside (by omega) ..), fun up => ?_⟩
  refine ⟨answers_keelWrite up rfl (by decide) (by decide) (keelWrite_pacectl s v) rfl,
    answers_keelWrite up rfl (by decide) (by decide) (keelWrite_tlim s v) rfl,
    answers_keelWrite up rfl (by decide) (by decide) (keelWrite_evpath s v) rfl,
    fun m => ?mctl, fun w => ?ownstage, fun m l => ?ffland, fun n p => ?ffsel, fun m e => ?mrt, fun m p => ?rtport,
    fun m p k => ?ingcfg, fun m p => ?gpiocfg, fun m l => ?lncfg, fun c => ?odocfg, fun n => ?wvctl⟩
  case mctl =>
    have other : 1 - m.val ≠ m.val := by omega
    exact answers_keelWrite up (by bv_omega) (by omega) (by omega) (keelWrite_mctl s v m.2)
      ⟨rfl, mctl_mctlWrite s v m.val, mctl_mctlWrite_ne s v other⟩
  case ownstage =>
    exact answers_keelWrite up (by bv_omega) (by omega) (by omega) (keelWrite_ownstage s v w.2)
      ⟨rfl, tget_tput .., fun k hk => tget_tput_ne hk ..⟩
  case ffland =>
    exact answers_keelWrite up (by bv_omega) (by omega) (by omega) (keelWrite_ffland s v m.2 l.2)
      ⟨rfl, fun k hk => tget_tput_ne hk .., tget_tput ..⟩
  case ffsel =>
    exact ⟨_, exec_registerWrite_die up (by bv_omega) (writeReg_ffsel s v n.2 p.2), rfl,
      fun k hk => tget_tput_ne hk .., tget_tput .., fun taken => (tget_tput ..).trans (ffselMerge_taken _ _ taken)⟩
  case mrt => exact exec_registerWrite_as up (by bv_omega) (by omega) (by omega) (keelWrite_mrt s v m.2 e.2) rfl
  case rtport => exact exec_registerWrite_as up (by bv_omega) (by omega) (by omega) (keelWrite_rtport s v m.2 p.2) rfl
  case ingcfg => exact exec_registerWrite_as up (by bv_omega) (by omega) (by omega) (keelWrite_ingcfg s v m.2 p.2 k.2) rfl
  case gpiocfg => exact exec_registerWrite_as up (by bv_omega) (by omega) (by omega) (keelWrite_gpiocfg s v m.2 p.2) rfl
  case lncfg => exact exec_registerWrite_as up (by bv_omega) (by omega) (by omega) (keelWrite_lncfg s v m.2 l.2) rfl
  case odocfg => exact exec_registerWrite_as up (by bv_omega) (by omega) (by omega) (keelWrite_odocfg s v c.2) rfl
  case wvctl =>
    exact (exec_registerWrite_die up (by bv_omega) (writeReg_wvctl s v n.2)).trans (congrArg _ (whenUp_up up _).symm)

end

section
/-! The flag words (R82 to R92): what an event, a read and a clear do to a word, and that a command touches no other word. -/
set_option autoImplicit false
namespace Sys2Proof.Machine

/-- A command answers as `P` says when what its operation gives, `u`, is a state `t` of which `P` holds. -/
theorem answers_of_eq {i : Instr} {s t u : State} {P : State → Prop} (he : exec i s = .next u) (hu : u = t) (hP : P t) :
    Answers i s P := ⟨t, he.trans (congrArg _ hu), hP⟩

/-! ## The flag words of a tile -/

@[simp] theorem flag_setFlag (t : Tile) (e : Engine) (w : FlagWord) : (t.setFlag e w).flag e = w := by cases e <;> rfl

theorem flag_setFlag_ne {e f : Engine} (h : f ≠ e) (t : Tile) (w : FlagWord) : (t.setFlag e w).flag f = t.flag f := by
  cases e <;> cases f <;> simp_all [Tile.flag, Tile.setFlag]

/-! ## Reads (R83, R92) -/

/-- What a read of a flag word leaves. The returned word is a variable here: the kernel would otherwise compute it wherever it
compares the state after the read with the state before. -/
theorem marked_flag_word (s : State) (v : Word) (p : Nat) (e : Engine) :
    let t := ({ s with readData := v } : State).modTile p (fun t => t.setFlag e (t.flag e).read)
    t.readData = v ∧ (t.tile p).flag e = { (s.tile p).flag e with readMark := true } ∧
    (∀ f, f ≠ e → (t.tile p).flag f = (s.tile p).flag f) ∧ t = { s with readData := t.readData, tiles := t.tiles } ∧
    ∀ q, q ≠ p → t.tile q = s.tile q := by
  refine ⟨rfl, ?_, fun f hf => ?_, rfl, fun q hq => tile_modTile_ne hq ..⟩
  · rw [tile_modTile, flag_setFlag]; rfl
  · rw [tile_modTile, flag_setFlag_ne hf]; rfl

theorem flagWordRead_allowed {s : State} {p : Nat} {e : Engine} {w : World} (h : w = true ∨ s.engineWorld p e = false) :
    flagWordRead p e w s = ({ s with readData := ((s.tile p).flag e).toWord } : State).modTile p
      (fun t => t.setFlag e (t.flag e).read) := by
  unfold flagWordRead
  rw [if_neg]
  rcases h with h | h <;> simp [h]

theorem flagWordRead_barred {s : State} {p : Nat} {e : Engine} (h : s.engineWorld p e = true) :
    flagWordRead p e false s = { s with readData := 0 } := by simp [flagWordRead, h]

/-! ## Events (R84, R89) -/

theorem event_of_no_flag {f : Fl} (h : f.any = false) (w : FlagWord) (at_ : EvAt) : w.event f at_ = w := by
  simp [FlagWord.event, h]

theorem any_of_inv {f : Fl} (h : f.inv = true) : f.any = true := by simp [Fl.any, h]

/-- What an event does to the flags, GEN and the read mark, whatever becomes of the capture. -/
theorem event_flags {f : Fl} (h : f.any = true) (w : FlagWord) (at_ : EvAt) :
    let v := w.event f at_
    v.ovf = (w.ovf || f.ovf) ∧ v.unf = (w.unf || f.unf) ∧ v.inx = (w.inx || f.inx) ∧ v.inv = (w.inv || f.inv) ∧
    v.gen = (if w.raises f = true ∨ w.readMark = true then w.gen + 1 else w.gen) ∧
    (w.raises f = true ∨ w.readMark = true → v.readMark = false) := by
  by_cases hi : f.inv = true
  · by_cases hc : w.cValid = true <;> simp +contextual [FlagWord.event, h, hi, hc]
  · simp +contextual [FlagWord.event, h, hi]

/-- The capture of an earlier invalid event stays, and notes that more came. -/
theorem event_capture_kept {w : FlagWord} (hc : w.cValid = true) (f : Fl) (at_ : EvAt) :
    let v := w.event f at_
    v.cTask = w.cTask ∧ v.cGen = w.cGen ∧ v.cCause = w.cCause ∧ (f.inv = true → v.cMore = true) := by
  by_cases hi : f.inv = true
  · simp [FlagWord.event, any_of_inv hi, hi, hc]
  · simp only [FlagWord.event, hi, Bool.not_false, if_true]
    split <;> simp

/-- The first invalid event is captured. -/
theorem event_capture_first {w : FlagWord} {f : Fl} (hc : w.cValid = false) (hi : f.inv = true) (at_ : EvAt) :
    let v := w.event f at_
    v.cValid = true ∧ v.cMore = false ∧ v.cTask = at_.task ∧ v.cCause = f.cause := by
  simp [FlagWord.event, any_of_inv hi, hi, hc]

/-! ## Generation clears (R85, R89) -/

theorem clear_refused {w : FlagWord} {gen : BitVec 8} (h : gen ≠ w.gen) (mask : BitVec 4) :
    w.clear mask gen = (false, { w with readMark := true }) := if_neg h

/-- A clear with the present GEN is accepted; it is a read, leaves GEN, and clears the named flags, the capture with INV. -/
theorem clear_accepted (w : FlagWord) (mask : BitVec 4) :
    let v := (w.clear mask w.gen).2
    (w.clear mask w.gen).1 = true ∧ v.readMark = true ∧ v.gen = w.gen ∧ v.ovf = (w.ovf && !bit mask 0) ∧
    v.unf = (w.unf && !bit mask 1) ∧ v.inx = (w.inx && !bit mask 2) ∧ v.inv = (w.inv && !bit mask 3) ∧
    v.cValid = (w.cValid && !bit mask 3) := by
  by_cases hm : bit mask 3 = true <;> simp [FlagWord.clear, hm]

end Sys2Proof.Machine

open Sys2Proof Sys2Proof.Machine

/-- Settles O6: a read goes through `flagWordRead_allowed` or `flagWordRead_barred`, and the laws of an event and of a clear are
those of the word alone. -/
theorem flagWords : Obligations.FlagWords := by
  unfold Obligations.FlagWords
  refine ⟨⟨fun p e w s allowed => ?read, fun p e s secure => ?barred⟩, fun w f at_ => ?event, fun w mask gen => ?clear⟩
  case read => exact answers_of_eq rfl (flagWordRead_allowed allowed) (marked_flag_word ..)
  case barred => exact answers_of_eq rfl (flagWordRead_barred secure) rfl
  case event =>
    exact ⟨fun quiet => event_of_no_flag quiet w at_, fun any => event_flags any w at_,
      fun captured => event_capture_kept captured f at_, fun free inv => event_capture_first free inv at_⟩
  case clear =>
    by_cases h : gen = w.gen
    · subst h
      obtain ⟨ok, read, same, flags⟩ := clear_accepted w mask
      exact ⟨iff_of_true ok rfl, read, same, fun ne => absurd rfl ne, fun _ => flags⟩
    · rw [clear_refused h]
      exact ⟨iff_of_false Bool.false_ne_true h, rfl, rfl, fun _ => rfl, fun e => absurd e h⟩

end

section
/-! The sequencer of a context and the end of its task (R166 to R176, R199). -/
set_option autoImplicit false
namespace Sys2Proof.Machine

/-! ## Steps of the sequencer -/

theorem onlyCtx_modCtx (s : State) (p c : Nat) (f : CtxSt → CtxSt) : OnlyCtx p c s (s.modCtx p c f) :=
  ⟨⟨rfl, fun _ hq => modCtx_tile_ne hq ..⟩, by rw [modCtx_tile, state_ctx_modCtx]; rfl⟩

/-- A command that changes one context answers with that context as changed. -/
theorem answers_modCtx {i : Instr} {s u : State} {p c : Nat} {f : CtxSt → CtxSt} {y : CtxSt} (he : exec i s = .next u)
    (hu : u = s.modCtx p c f) (hy : f (s.ctx p c) = y) : Answers i s (fun t => OnlyCtx p c s t ∧ t.ctx p c = y) :=
  answers_of_eq he hu ⟨onlyCtx_modCtx .., (state_ctx_modCtx ..).trans hy⟩

/-- An entry of its row's kind is taken. -/
theorem takeEntry_standsAt {s : State} {p c kind : Nat} {k : Task} {e : List Word} (h : StandsAt s p c kind k e)
    (f : Task → List Word → State → State) : s.takeEntry p c kind .none f = f k e s := by
  obtain ⟨at_, isKind⟩ := h
  simp [State.takeEntry, at_, isKind]

/-- A TVU entry appends its start and moves on. -/
theorem seqTvuEntry_standsAt {s : State} {p c : Nat} {k : Task} {e : List Word} (h : StandsAt s p c 1 k e) :
    let t := seqTvuEntry p c .none s
    OnlyTile p s t ∧ (t.tile p).starts = (s.tile p).starts ++ [(c, sqArg e)] ∧
      t.ctx p c = { s.ctx p c with pos := (s.ctx p c).pos + 1 } := by
  simp only [seqTvuEntry, takeEntry_standsAt h]
  refine ⟨⟨rfl, fun q hq => tile_modTile_ne hq ..⟩, ?_, ?_⟩
  · rw [tile_modTile]; unfold Tile.modCtx Tile.setCtx; split <;> rfl
  · rw [State.ctx, tile_modTile, ctx_modCtx]; rfl

/-- A transfer whose group is held is offered. -/
theorem xfer_standsAt {s : State} {p c : Nat} {k : Task} {e : List Word} (h : StandsAt s p c 2 k e)
    (held : (s.ctx p c).groups.any (fun g => decide (g.1 = sqArg e / 64)) = true) :
    xfer p c .none s = s.modCtx p c (fun x => { x with offerX := some (sqArg e) }) := by
  refine (takeEntry_standsAt h _).trans (if_pos ?_)
  rw [state_ctx_modCtx, held, Bool.true_or]

/-! ## The reply of a task (R87, R396) -/

theorem status_of_running {x : CtxSt} (hl : x.lost = false) (he : x.ending = none) :
    x.status = if x.raised.ovf = true ∨ x.raised.unf = true ∨ x.raised.inv = true then 0x40 else 0x00 := by
  simp [CtxSt.status, hl, he, stNUMERIC, stOK, or_assoc]

theorem status_of_cancelled {x : CtxSt} (hl : x.lost = false) (he : x.ending = some .cancel) : x.status = 0x32 := by
  simp [CtxSt.status, hl, he, stCANCELLED]

theorem complete_open {s : State} {i : Nat} {e : LgEntry} (he : s.entry i = some e) (open_ : e.state ≠ .complete) (r : Reply) :
    s.complete i r = s.lgPut i { e with state := .complete, reply := some r } := by
  simp [State.complete, he, open_]

theorem forgetAcc_keel (s : State) (p c : Nat) : (s.forgetAcc p c).keel = s.keel := by
  unfold State.forgetAcc; split <;> rfl

theorem forgetAcc_tile_ne {p q : Nat} (h : q ≠ p) (s : State) (c : Nat) : (s.forgetAcc p c).tile q = s.tile q := by
  unfold State.forgetAcc
  split
  · rw [bump_tile, tile_modTile_ne h]
  · rfl

/-- The end of a task: its context is idle, its entry complete, no other tile changes. -/
theorem finishTask_replies {s : State} {p c : Nat} {k : Task} {e : LgEntry} (ht : (s.ctx p c).task = some k)
    (he : s.entry k.entry = some e) (open_ : e.state ≠ .complete) :
    let t := s.finishTask p c
    (t.ctx p c).task = none ∧ (∀ q, q ≠ p → t.tile q = s.tile q) ∧
    ∃ e', t.entry k.entry = some e' ∧ e'.state = .complete ∧
      e'.reply = some { status := (s.ctx p c).status, det0 := (s.ctx p c).det0 p, det1 := k.tag.setWidth 64 } := by
  simp only [State.finishTask, ht, complete_open he open_]
  refine ⟨?_, fun q hq => ?_, ?_⟩
  · rw [state_ctx_modCtx]; rfl
  · rw [modCtx_tile_ne hq, forgetAcc_tile_ne hq]; rfl
  · have kept : ∀ u : State, ((u.forgetAcc p c).modCtx p c CtxSt.idle).entry k.entry = u.entry k.entry := fun u => by
      simp only [State.entry, modCtx_keel, forgetAcc_keel]
    exact ⟨_, (kept _).trans (entry_lgPut ..), rfl, rfl⟩

theorem ending_of_active {x : CtxSt} (h : x.active = true) : x.ending = none := by
  simp only [CtxSt.active, Bool.and_eq_true, Option.isNone_iff_eq_none] at h
  exact h.2

theorem active_of_finished {t : Tile} {c : Nat} (h : t.finished c = true) : (t.ctx c).active = true := by
  simp only [Tile.finished, Bool.and_eq_true, and_assoc] at h
  exact h.1

/-! ## How a task begins to end (R199) -/

theorem poolReturn_tiles (s : State) (k v : Nat) : (s.poolReturn k v).tiles = s.tiles := by
  unfold State.poolReturn
  split
  · rfl
  · rw [emit_tiles]

theorem returnVal_tiles (s : State) (w : World) (k v : Nat) : (s.returnVal w k v).tiles = s.tiles := by
  unfold State.returnVal
  split
  · exact poolReturn_tiles ..
  · rfl

theorem foldl_tiles {α : Type} {f : State → α → State} (hf : ∀ u x, (f u x).tiles = u.tiles) (l : List α) (s : State) :
    (l.foldl f s).tiles = s.tiles := by
  induction l generalizing s with
  | nil => rfl
  | cons x l ih => exact (ih _).trans (hf ..)

theorem tile_modCtx_congr {s u : State} (h : u.tiles = s.tiles) (p c : Nat) (f : CtxSt → CtxSt) (q : Nat) :
    (u.modCtx p c f).tile q = (s.modCtx p c f).tile q := by
  simp only [State.modCtx, State.modTile, State.setTile, State.tile, h]

/-- The return of a context's values changes the tiles only in that the context then holds none. -/
theorem returnValues_tile (s : State) (p c q : Nat) : (s.returnValues p c).tile q = (s.modCtx p c (fun x => { x with
    xr := x.xr.map (fun r => (r.1, { r.2 with live := none })) })).tile q := by
  refine tile_modCtx_congr (foldl_tiles (fun u r => ?_) ..) ..
  split
  · exact returnVal_tiles ..
  · rfl

theorem ctx_with_starts (t : Tile) (l : List (Nat × Nat)) (c : Nat) : ({ t with starts := l } : Tile).ctx c = t.ctx c := by
  unfold Tile.ctx; split <;> rfl

/-- A task that begins to end does so for the reason given, and offers nothing more. -/
theorem beginEnd_ctx {s : State} {p c : Nat} (h : (s.ctx p c).ending = none) (why : EndWhy) :
    let x := (s.beginEnd p c why).ctx p c
    x.ending = some why ∧ x.cancelAsked = (s.ctx p c).cancelAsked ∧ x.offer = none ∧ x.offerX = none := by
  have ending : ((s.tile p).ctx c).ending = none := h
  simp only [State.beginEnd, State.ctx, tile_modTile, ctx_modCtx, ctx_with_starts, returnValues_tile, modCtx_tile, ending,
    and_self]

theorem beginEnd_tile_ne {p q : Nat} (h : q ≠ p) (s : State) (c : Nat) (why : EndWhy) : (s.beginEnd p c why).tile q = s.tile q := by
  rw [State.beginEnd, tile_modTile_ne h, returnValues_tile, modCtx_tile_ne h]

/-! ## Cancellation (R199, R396) -/

theorem cancellation_asked {s : State} {p c : Nat} (asked : (s.ctx p c).cancelAsked = true) (active : (s.ctx p c).active = true) :
    cancellation p c s = (s.modCtx p c (fun x => { x with cancelAsked := false })).beginEnd p c .cancel := by
  simp [cancellation, asked, active]

/-- A task of which nothing is in progress any more is answered. -/
theorem cancellationAck_quiet {s : State} {p c : Nat} {k : Task} {w : EndWhy} (task : (s.ctx p c).task = some k)
    (ending : (s.ctx p c).ending = some w) (xfers : (s.ctx p c).xfers = []) (owed : (s.ctx p c).owed = 0)
    (flight : (s.ctx p c).flight = []) (tvu : (s.tile p).tvuDone c = true) : cancellationAck p c s = s.finishTask p c := by
  simp only [State.ctx] at task ending xfers owed flight
  simp [cancellationAck, task, ending, xfers, owed, flight, tvu]

end Sys2Proof.Machine

open Sys2Proof Sys2Proof.Machine

/-- Settles O20: an entry of its kind is taken as its row says (`takeEntry_standsAt`), and a task that ends replies with the
status of its context (`finishTask_replies`). -/
theorem sequencersAndEnds : Obligations.SequencersAndEnds := by
  unfold Obligations.SequencersAndEnds
  refine ⟨fun p c s k e => ⟨fun at_ i offers => ?offered, fun at_ empty => ?clipped, fun at_ => ?tvu, fun at_ held => ?xfer,
    fun at_ more => ?again, fun at_ last => ?leave, fun at_ holds => ?pass, fun at_ waits => ?wait,
    fun active waiting holds => ?satisfied, fun at_ => ?atEnd⟩, fun p c s k e done task kept entry open_ => ?complete,
    fun p c s asked active => ?cancel, fun p c s k e task ending kept xfers owed flight tvu entry open_ => ?ack⟩
  case offered => exact answers_modCtx rfl (takeEntry_standsAt at_ _) (by simp only [offers])
  case clipped => exact answers_modCtx rfl (takeEntry_standsAt at_ _) (by simp only [empty])
  case tvu => exact answers_of_eq rfl rfl (seqTvuEntry_standsAt at_)
  case xfer => exact answers_modCtx rfl (xfer_standsAt at_ held) rfl
  case again => exact answers_modCtx rfl (takeEntry_standsAt at_ _) (if_pos more)
  case leave => exact answers_modCtx rfl (takeEntry_standsAt at_ _) (if_neg (Nat.not_lt.mpr last))
  case pass => exact answers_modCtx rfl ((takeEntry_standsAt at_ _).trans (if_pos holds)) rfl
  case wait => exact answers_modCtx rfl ((takeEntry_standsAt at_ _).trans (if_neg (by simp [waits]))) rfl
  case satisfied =>
    have on : ((s.tile p.val).ctx c.val).active = true ∧ ((s.tile p.val).ctx c.val).waiting = true := ⟨active, waiting⟩
    exact answers_modCtx rfl (if_pos (by rw [on.1, on.2]; exact holds)) rfl
  case atEnd => exact answers_modCtx rfl (takeEntry_standsAt at_ _) rfl
  case complete =>
    obtain ⟨idle, others, e', replied, complete, reply⟩ := finishTask_replies task entry open_
    refine answers_of_eq rfl (if_pos done) ⟨idle, others, e', replied, complete, _, reply, rfl, ?_⟩
    exact status_of_running kept (ending_of_active (active_of_finished done))
  case cancel =>
    obtain ⟨ending, notAsked, offer, offerX⟩ := beginEnd_ctx (s := s.modCtx p.val c.val (fun x => { x with cancelAsked := false }))
      (by rw [state_ctx_modCtx]; exact ending_of_active active) .cancel
    exact answers_of_eq rfl (cancellation_asked asked active) ⟨ending, notAsked.trans (by rw [state_ctx_modCtx]), offer, offerX,
      fun q hq => (beginEnd_tile_ne hq ..).trans (modCtx_tile_ne hq ..)⟩
  case ack =>
    obtain ⟨idle, -, e', replied, complete, reply⟩ := finishTask_replies task entry open_
    refine answers_of_eq rfl (cancellationAck_quiet task ending xfers owed flight tvu)
      ⟨idle, e', replied, complete, _, reply, status_of_cancelled kept ending, rfl⟩
end

section
/-! The marked commands (R85, R215, R344, R348 to R352, R394, R403): what each does to the thing that it names, and its reply. -/
set_option autoImplicit false
namespace Sys2Proof.Machine

/-! ## The effect and the reply of a started command -/

section
variable {s : State} {c o i : Nat} {e : LgEntry}

/-- The started command has its effect on the state without it. -/
theorem islRun_running (h : Running s c o i e) (f : Nat → LgEntry → State → State) : s.islRun c o f = f i e s.begun := by
  obtain ⟨current, entry, chan, opc, -⟩ := h
  simp [State.islRun, current, entry, chan, opc, State.begun]

/-- A command whose reserved words are clear goes on to its effect (R394). -/
theorem islRun_named {fs : List (Nat × Nat × Nat)} (h : Running s c o i e) (named : s.rsvd i fs = false)
    (g : Nat → LgEntry → State → State) :
    s.islRun c o (fun i e s => if s.rsvd i fs then s.done i stPARAM else g i e s) = g i e s.begun :=
  (islRun_running h _).trans (if_neg (ne_true_of_eq_false named))

/-- A command that ends with its reply, when the keel has not changed otherwise: of what its effect gives, only the keel is then
another, and that only in the ledger. -/
theorem answers_complete {n : Instr} {u v : State} {r : Reply} {P : State → Prop} (h : Running s c o i e)
    (he : exec n s = .next v) (hv : v = u.complete i r) (hk : u.keel = s.begun.keel)
    (hP : ∀ k, let t : State := { u with keel := k }; Replied s t i r → OnlyLedger s t → P t) : Answers n s P := by
  obtain ⟨-, entry, -, -, open_⟩ := h
  have entry' : u.entry i = some e := by rw [State.entry, hk]; exact entry
  have others : ∀ j, u.entry j = s.entry j := fun j => by rw [State.entry, hk]; rfl
  refine answers_of_eq he (hv.trans (complete_open entry' open_ r)) (hP _ ⟨?_, fun j hj => ?_, ?_⟩ ?_)
  · exact ⟨_, entry_lgPut .., rfl, rfl⟩
  · exact (entry_lgPut_ne hj ..).trans (others j)
  · exact congrArg Keel.current hk
  · simp only [OnlyLedger, hk]; rfl

/-- The reply of a command whose operation gives a state and a status. -/
theorem answered {r q : State × BitVec 8} (h : r = q) : r.1.done i r.2 = q.1.complete i { status := q.2 } := by rw [h]; rfl

theorem refuses_of_eq {n : Instr} {v : State} {st : BitVec 8} (h : Running s c o i e) (he : exec n s = .next v)
    (hv : v = s.begun.complete i { status := st }) : Refuses n s i st :=
  answers_complete h he hv rfl fun _ replied ledger => ⟨replied, ledger, rfl⟩

end

@[simp] theorem begun_pw (s : State) (i k : Nat) : s.begun.pw i k = s.pw i k := rfl
@[simp] theorem begun_tile (s : State) (p : Nat) : s.begun.tile p = s.tile p := rfl

/-! ## Flag words (R85) -/

theorem islFlagsClear_no_word {s : State} {c i : Nat} {e : LgEntry} (h : Running s c 0x32 i e)
    (named : s.rsvd i [(0, 47, 44), (0, 63, 56)] = false) (w : flagAt (bits (s.pw i 0) 39 0) = none) :
    islFlagsClear c s = s.begun.complete i { status := 0x12 } := by
  refine (islRun_named h named _).trans ?_
  simp only [begun_pw, w]
  rfl

/-- The clear of the flag word that the command names, with its mark there. -/
theorem islFlagsClear_word {s : State} {c i p : Nat} {e : LgEntry} {g : Engine} (h : Running s c 0x32 i e)
    (named : s.rsvd i [(0, 47, 44), (0, 63, 56)] = false) (w : flagAt (bits (s.pw i 0) 39 0) = some (p, g)) :
    let r := ((s.tile p).flag g).clear (BitVec.ofNat 4 (bits (s.pw i 0) 43 40)) (BitVec.ofNat 8 (bits (s.pw i 0) 55 48))
    let st : BitVec 8 := if r.1 then 0x00 else 0x41
    islFlagsClear c s = (s.begun.modTile p (fun t => t.setFlag g { r.2 with mark := some (e.markOf st r.2.toWord) })).complete i
      { status := st, det0 := r.2.toWord } := by
  refine (islRun_named h named _).trans ?_
  simp only [begun_pw, begun_tile, w]
  rfl

/-! ## Odometer channels (R344) -/

@[simp] theorem odo_modOdo (s : State) (c : Nat) (f : OdoCh → OdoCh) : (s.modOdo c f).odo c = f (s.odo c) := by
  simp [State.odo, State.modOdo]
theorem odo_modOdo_ne {c d : Nat} (h : d ≠ c) (s : State) (f : OdoCh → OdoCh) : (s.modOdo c f).odo d = s.odo d := by
  simp [State.odo, State.modOdo, tget_tmod_ne h]

/-- A position lies 1,024 counts or more ahead of another, forward or in reverse (R344). -/
def FarFrom (a p : BitVec 48) : Prop :=
  (1024 ≤ (a - p).toNat ∧ (a - p).toNat < 2 ^ 47) ∨ (1024 ≤ (p - a).toNat ∧ (p - a).toNat < 2 ^ 47)

/-- Changes of one channel, one after the other, are one change of that channel. -/
theorem foldl_modOdo {α : Type} (g : α → OdoCh → OdoCh) (c : Nat) (l : List α) (s : State) :
    ∃ odo, l.foldl (fun s m => s.modOdo c (g m)) s = { s with web := { s.web with odo := odo } } ∧
      tget {} odo c = l.foldl (fun o m => g m o) (s.odo c) ∧ ∀ j, j ≠ c → tget {} odo j = s.odo j := by
  induction l generalizing s with
  | nil => exact ⟨_, rfl, rfl, fun _ _ => rfl⟩
  | cons m l ih =>
    obtain ⟨odo, eq, own, others⟩ := ih (s.modOdo c (g m))
    exact ⟨odo, eq, own.trans (by rw [odo_modOdo]; rfl), fun j hj => (others j hj).trans (odo_modOdo_ne hj ..)⟩

/-- A preset is armed on each rim on which the channel is live, when it lies far from the position of each. -/
theorem preset_far {s : State} {c : Nat} {a : BitVec 48} (far : ∀ m, m < 2 → s.live m c = true → FarFrom a ((s.odo c).pos m))
    (v : BitVec 48) (mark : Mark) :
    ∃ odo, s.preset c a v mark = ({ s with web := { s.web with odo := odo } }, 0x00) ∧ tget {} odo c = { s.odo c with
        preW := if s.live 0 c then some (a, v) else (s.odo c).preW
        preE := if s.live 1 c then some (a, v) else (s.odo c).preE
        markW := if s.live 0 c then some mark else (s.odo c).markW
        markE := if s.live 1 c then some mark else (s.odo c).markE } ∧
      ∀ j, j ≠ c → tget {} odo j = s.odo j := by
  obtain ⟨odo, eq, own, others⟩ := foldl_modOdo (fun m o =>
    let o := o.setPre m (some (a, v))
    if m = 0 then { o with markW := some mark } else { o with markE := some mark }) c
    ((List.range 2).filter (fun m => s.live m c)) s
  refine ⟨odo, (if_pos (List.all_eq_true.mpr fun m hm => ?_)).trans (congrArg (·, _) eq), own.trans ?_, others⟩
  · obtain ⟨hr, live⟩ := List.mem_filter.mp hm
    simpa [FarFrom] using far m (List.mem_range.mp hr) live
  · cases h0 : s.live 0 c <;> cases h1 : s.live 1 c <;> simp [List.range_succ, h0, h1, OdoCh.setPre]

theorem preset_near {s : State} {c m : Nat} {a : BitVec 48} (hm : m < 2) (live : s.live m c = true)
    (near : ¬ FarFrom a ((s.odo c).pos m)) (v : BitVec 48) (mark : Mark) : s.preset c a v mark = (s, 0x12) := by
  refine if_neg fun all => near ?_
  have far := List.all_eq_true.mp all m (List.mem_filter.mpr ⟨List.mem_range.mpr hm, live⟩)
  simpa [FarFrom] using far

/-! ## Action entries (R347 to R352) -/

@[simp] theorem act_modAct (s : State) (k : Nat) (f : ActEntry → ActEntry) : (s.modAct k f).act k = f (s.act k) := by
  simp [State.act, State.modAct]
theorem act_modAct_ne {k j : Nat} (h : j ≠ k) (s : State) (f : ActEntry → ActEntry) : (s.modAct k f).act j = s.act j := by
  simp [State.act, State.modAct, tget_tmod_ne h]

/-- A new state of an entry leaves what lies above its field. -/
theorem setSt_div (x : ActEntry) (n : Nat) : (x.setSt n).w1.toNat / 2 ^ 26 = x.w1.toNat / 2 ^ 26 := by
  have lt := x.w1.isLt
  simp only [ActEntry.setSt, setBits, bits, BitVec.toNat_ofNat]
  omega

theorem world_setSt (x : ActEntry) (n : Nat) : (x.setSt n).world = x.world := by
  simp only [ActEntry.world, bit, BitVec.getLsbD, Nat.testBit_eq_decide_div_mod_eq, setSt_div]

theorem tag_setSt (x : ActEntry) (n : Nat) : (x.setSt n).tag = x.tag := by
  have above (w : Nat) : w / 2 ^ 32 = w / 2 ^ 26 / 2 ^ 6 := by omega
  simp only [ActEntry.tag, bits, above, setSt_div]

/-- The word that `setSt` writes, as a variable: the kernel would otherwise compute it wherever it compares entries. -/
theorem setSt_eq (x : ActEntry) (n : Nat) : ∃ v, x.setSt n = { x with w1 := v } := ⟨_, rfl⟩

theorem w0_setSt (x : ActEntry) (n : Nat) : (x.setSt n).w0 = x.w0 := by
  obtain ⟨v, h⟩ := setSt_eq x n
  rw [h]

theorem ch_setSt (x : ActEntry) (n : Nat) : (x.setSt n).ch = x.ch := by simp only [ActEntry.ch, w0_setSt]
theorem rim_setSt (x : ActEntry) (n : Nat) : (x.setSt n).rim = x.rim := by simp only [ActEntry.rim, w0_setSt]

/-- The record of an entry whose state has changed, as one of the entry before: it changes the keel alone. -/
theorem actRecord_setSt {s u : State} {k n : Nat} {x : ActEntry} (hk : u.keel = s.keel) (ho : u.web.odo = s.web.odo)
    (hx : u.act k = x.setSt n) (outcome : Nat) :
    u.actRecord k outcome = { u with keel := (s.actRec k outcome x ((s.odo x.ch).pos x.rim)).keel } := by
  have rec_ : (u.actRecord k outcome).keel = (s.actRec k outcome x ((s.odo x.ch).pos x.rim)).keel := by
    simp only [State.actRecord, State.actRec, State.odo, hx, ho, ch_setSt, rim_setSt, world_setSt, tag_setSt, State.emit, hk]
    split <;> rfl
  rw [← rec_]
  exact emit_only_keel ..

/-- The state with entry `k` as `x`. -/
def State.putAct (s : State) (k : Nat) (x : ActEntry) : State := s.modAct k (fun _ => x)

@[simp] theorem act_putAct (s : State) (k : Nat) (x : ActEntry) : (s.putAct k x).act k = x := act_modAct ..
theorem act_putAct_ne {k j : Nat} (h : j ≠ k) (s : State) (x : ActEntry) : (s.putAct k x).act j = s.act j := act_modAct_ne h ..
@[simp] theorem odo_putAct (s : State) (k : Nat) (x : ActEntry) (c : Nat) : (s.putAct k x).odo c = s.odo c := rfl

/-- A pin after an entry of operation `op` has fired there. -/
def Pin.fired (op : Nat) (p : Pin) : Pin := { p with latch := firedLatch op p.latch }

theorem fire_pulse {s : State} {k : Nat} (h : (s.act k).op = 2) (outcome : Nat) :
    s.fire k outcome = (s.modAct k (fun a => a.setSt 2)).actRecord k outcome := by simp only [State.fire, if_pos h]

theorem fire_latch {s : State} {k : Nat} (h : (s.act k).op ≠ 2) (outcome : Nat) :
    s.fire k outcome = ((s.modPin (128 * (s.act k).rim + (s.act k).pin) (Pin.fired (s.act k).op)).modAct k
      (fun a => a.setSt 0)).actRecord k outcome := by
  have fired : Pin.fired (s.act k).op = fun p => { p with
      latch := if (s.act k).op = 0 then true else if (s.act k).op = 1 then false else !p.latch } := by
    funext p; simp only [Pin.fired, firedLatch, if_neg h]
  simp only [State.fire, if_neg h, fired]

/-! ## The judgement of an entry that is armed (R349) -/

section
variable {s : State} {k : Nat} {x : ActEntry}

theorem judge_ahead (h : ahead x.target ((s.odo x.ch).pos x.rim) x.rev = true) : (s.putAct k x).judge k = s.putAct k x := by
  simp [State.judge, h]

/-- A passed entry without LATE is missed. -/
theorem judge_missed (h : ahead x.target ((s.odo x.ch).pos x.rim) x.rev = false) (late : x.late = false) :
    ∃ acts, (s.putAct k x).judge k = { s with
        web := { s.web with acts := acts }, keel := (s.actRec k 2 x ((s.odo x.ch).pos x.rim)).keel } ∧
      tget {} acts k = x.setSt 0 ∧ ∀ j, j ≠ k → tget {} acts j = s.act j := by
  have eq : (s.putAct k x).judge k = ((s.putAct k x).modAct k (fun a => a.setSt 0)).actRecord k 2 := by
    simp [State.judge, h, late]
  have entry : ((s.putAct k x).modAct k (fun a => a.setSt 0)).act k = x.setSt 0 := by rw [act_modAct, act_putAct]
  refine ⟨((s.putAct k x).modAct k (fun a => a.setSt 0)).web.acts, ?_, entry,
    fun j hj => (act_modAct_ne hj ..).trans (act_putAct_ne hj ..)⟩
  rw [eq, actRecord_setSt (s := s) (u := (s.putAct k x).modAct k _) rfl rfl entry]
  rfl

/-- A passed entry with LATE fires: a pulse begins, or the latch of its pin is as its operation leaves it. -/
theorem judge_late (h : ahead x.target ((s.odo x.ch).pos x.rim) x.rev = false) (late : x.late = true) :
    let pin := 128 * x.rim + x.pin
    ∃ acts pins, (s.putAct k x).judge k = { s with
        web := { s.web with acts := acts }, fab := { s.fab with pins := pins }
        keel := (s.actRec k 1 x ((s.odo x.ch).pos x.rim)).keel } ∧
      tget {} acts k = x.setSt (if x.op = 2 then 2 else 0) ∧ (∀ j, j ≠ k → tget {} acts j = s.act j) ∧
      tget {} pins pin = { s.pin pin with latch := firedLatch x.op (s.pin pin).latch } ∧
      ∀ j, j ≠ pin → tget {} pins j = s.pin j := by
  have eq : (s.putAct k x).judge k = (s.putAct k x).fire k 1 := by simp [State.judge, h, late]
  have entry (n : Nat) : ((s.putAct k x).modAct k (fun a => a.setSt n)).act k = x.setSt n := by rw [act_modAct, act_putAct]
  have others (n j : Nat) (hj : j ≠ k) : ((s.putAct k x).modAct k (fun a => a.setSt n)).act j = s.act j :=
    (act_modAct_ne hj ..).trans (act_putAct_ne hj ..)
  by_cases pulse : x.op = 2
  · refine ⟨((s.putAct k x).modAct k (fun a => a.setSt 2)).web.acts, s.fab.pins, ?_, by rw [if_pos pulse]; exact entry 2,
      others 2, by rw [pulse]; rfl, fun _ _ => rfl⟩
    rw [eq, fire_pulse (by rw [act_putAct, pulse]),
      actRecord_setSt (s := s) (u := (s.putAct k x).modAct k _) rfl rfl (entry 2)]
    rfl
  · refine ⟨((s.putAct k x).modAct k (fun a => a.setSt 0)).web.acts, (s.modPin _ (Pin.fired x.op)).fab.pins, ?_,
      by rw [if_neg pulse]; exact entry 0, others 0, pin_modPin .., fun j hj => pin_modPin_ne hj ..⟩
    rw [eq, fire_latch (by rw [act_putAct]; exact pulse), act_putAct,
      actRecord_setSt (s := s) (u := ((s.putAct k x).modPin _ _).modAct k _) rfl rfl (entry 0)]
    rfl

end

/-! ## Arming and cancelling an entry (R348, R352) -/

/-- The command's world may touch the entry (R348). -/
theorem not_barred {w v : World} (h : w = true ∨ v = false) : ¬ (!w && v) = true := by rcases h with h | h <;> simp [h]

section
variable {s : State} {k : Nat} {w : World}

theorem arm_barred (hw : w = false) (hv : (s.act k).world = true) (w0 w1 : Word) (mark : Mark) :
    s.arm k w0 w1 w mark = (s, 0x13) := if_pos (by rw [hw, hv]; rfl)

theorem arm_bad (free : w = true ∨ (s.act k).world = false) {w0 w1 : Word} (bad : s.armBad { w0 := w0, w1 := w1 } = true)
    (mark : Mark) : s.arm k w0 w1 w mark = (s, 0x12) := (if_neg (not_barred free)).trans (if_pos bad)

theorem arm_busy (free : w = true ∨ (s.act k).world = false) {w0 w1 : Word} (ok : s.armBad { w0 := w0, w1 := w1 } = false)
    (busy : (s.act k).st ≠ 0) (mark : Mark) : s.arm k w0 w1 w mark = (s, 0x11) :=
  (if_neg (not_barred free)).trans ((if_neg (ne_true_of_eq_false ok)).trans (if_pos busy))

/-- An idle entry is armed with the words of the command and judged. -/
theorem arm_idle (free : w = true ∨ (s.act k).world = false) {w0 w1 : Word} (ok : s.armBad { w0 := w0, w1 := w1 } = false)
    (idle : (s.act k).st = 0) {mark : Mark} {x : ActEntry}
    (hx : x = { w0 := w0, w1 := w1 ||| packF [(24, 2, 1), (26, 1, b2n w)], mark := some mark }) :
    s.arm k w0 w1 w mark = ((s.putAct k x).judge k, 0x00) := by
  subst hx
  exact (if_neg (not_barred free)).trans ((if_neg (ne_true_of_eq_false ok)).trans (if_neg (not_not_intro idle)))

theorem unarm_barred (hw : w = false) (hv : (s.act k).world = true) (mark : Mark) : s.unarm k w mark = (s, 0x13) :=
  if_pos (by rw [hw, hv]; rfl)

theorem unarm_idle (free : w = true ∨ (s.act k).world = false) (idle : (s.act k).st = 0) (mark : Mark) :
    s.unarm k w mark = (s, 0x11) := (if_neg (not_barred free)).trans (if_pos idle)

theorem unarm_armed (free : w = true ∨ (s.act k).world = false) (armed : (s.act k).st ≠ 0) (mark : Mark) :
    ∃ acts, s.unarm k w mark = ({ s with web := { s.web with acts := acts } }, 0x00) ∧
      tget {} acts k = { (s.act k).setSt 0 with mark := some mark } ∧ ∀ j, j ≠ k → tget {} acts j = s.act j :=
  ⟨_, (if_neg (not_barred free)).trans (if_neg armed), tget_tmod .., fun _ hj => tget_tmod_ne hj ..⟩

end

end Sys2Proof.Machine

open Sys2Proof Sys2Proof.Machine

/-- Settles O49: a started command has its effect on the state without it (`islRun_named`), the keel differs then by its reply alone
(`answers_complete`), and an armed entry is judged at once (`judge_missed`, `judge_late`). -/
theorem markedCommands : Obligations.MarkedCommands := by
  unfold Obligations.MarkedCommands
  refine ⟨fun c s i e x hx running rsvd => ?reserved, fun c s i e running named => ⟨fun none => ?noWord, fun p g word => ?flags⟩,
    fun c s i e running named => ?counter, fun c s i e running named => ⟨fun far => ?preset, fun ⟨m, hm, live, near⟩ => ?near⟩,
    fun c s i e running named => ?arm,
    fun c s i e running named => ⟨fun w v => ?cancelWorld, fun free => ⟨fun armed => ?cancelled, fun idle => ?cancelState⟩⟩⟩
  case reserved =>
    simp only [List.mem_cons, List.not_mem_nil, or_false] at hx
    rcases hx with rfl | rfl | rfl | rfl | rfl | rfl <;>
      exact refuses_of_eq running rfl ((islRun_running running _).trans (if_pos rsvd))
  case noWord => exact refuses_of_eq running rfl (islFlagsClear_no_word running named none)
  case flags =>
    exact answers_complete running rfl (islFlagsClear_word running named word) rfl fun k replied ledger =>
      ⟨replied, tget_tput .., fun q hq => tget_tput_ne hq .., ledger, rfl⟩
  case counter =>
    exact answers_complete running rfl (islRun_named running named _) rfl fun k replied ledger =>
      ⟨replied, tget_tput .., fun j hj => tget_tput_ne hj .., rfl, ledger, rfl⟩
  case preset =>
    obtain ⟨odo, preset, armed, others⟩ :=
      preset_far (s := s.begun) far (BitVec.ofNat 48 (bits (s.pw i 2) 47 0)) (e.markOf 0x00)
    exact answers_complete running rfl ((islRun_named running named _).trans (answered preset)) rfl
      fun k replied ledger => ⟨replied, armed, others, ledger, rfl⟩
  case near =>
    exact refuses_of_eq running rfl ((islRun_named running named _).trans
      (answered (preset_near (s := s.begun) hm live near _ _)))
  case arm =>
    intro k x at_ pin OnlyAct
    have hx : x = { w0 := s.pw i 1, w1 := s.pw i 2 ||| packF [(24, 2, 1), (26, 1, b2n e.world)]
                    mark := some (e.markOf 0x00) } := rfl
    clear_value x
    have effect {q : State × BitVec 8} (h : s.begun.arm k (s.pw i 1) (s.pw i 2) e.world (e.markOf stOK) = q) :
        islActArm c.val s = q.1.complete i { status := q.2 } := (islRun_named running named _).trans (answered h)
    refine ⟨fun w v => refuses_of_eq running rfl (effect (arm_barred (s := s.begun) w v ..)), fun free =>
      ⟨fun bad => refuses_of_eq running rfl (effect (arm_bad (s := s.begun) free bad _)),
        fun ok busy => refuses_of_eq running rfl (effect (arm_busy (s := s.begun) free ok busy _)),
        fun ok idle => ⟨fun ahead => ?armed, fun passed notLate => ?missed, fun passed late => ?late⟩⟩⟩
    case armed =>
      have arm := (arm_idle (s := s.begun) free ok idle hx).trans (congrArg (·, _) (judge_ahead ahead))
      exact answers_complete running rfl (effect arm) rfl fun k' replied ledger =>
        ⟨replied, act_putAct s.begun k x, rfl, ⟨fun j hj => act_putAct_ne hj s.begun x, rfl⟩, ledger⟩
    case missed =>
      obtain ⟨acts, judged, entry, others⟩ := judge_missed (s := s.begun) (k := k) passed notLate
      have arm := (arm_idle (s := s.begun) free ok idle hx).trans (congrArg (·, _) judged)
      exact answers_of_eq rfl (effect arm) ⟨_, rfl, entry, rfl, ⟨others, rfl⟩, rfl⟩
    case late =>
      obtain ⟨acts, pins, judged, entry, others, pin, otherPins⟩ := judge_late (s := s.begun) (k := k) passed late
      have arm := (arm_idle (s := s.begun) free ok idle hx).trans (congrArg (·, _) judged)
      exact answers_of_eq rfl (effect arm) ⟨_, rfl, entry, ⟨others, rfl⟩, rfl, pin, otherPins⟩
  case cancelWorld =>
    exact refuses_of_eq running rfl ((islRun_named running named _).trans (answered (unarm_barred (s := s.begun) w v _)))
  case cancelled =>
    obtain ⟨acts, unarm, entry, others⟩ := unarm_armed (s := s.begun) free armed (e.markOf stOK)
    exact answers_complete running rfl ((islRun_named running named _).trans (answered unarm)) rfl
      fun k replied ledger => ⟨replied, entry, others, ledger, rfl⟩
  case cancelState =>
    exact refuses_of_eq running rfl ((islRun_named running named _).trans (answered (unarm_idle (s := s.begun) free idle _)))
end

section
/-! The vector rows of the TVU (R136 to R139): what every one of them writes and leaves, said once for all. -/
set_option autoImplicit false
namespace Sys2Proof.Machine

/-! ## The issue of a row -/

/-- A row whose word issues leaves the tile that its instruction gives. -/
theorem tvuIssue_ok {s : State} {p opc : Nat} {g : Prog} {w : Word32} {f : Nat → Word32 → Tile → TvuOut} {t : Tile}
    (h : Issues s p g w) (ho : tiOpc w = opc) (hf : f g.ctx w (s.tile p) = .ok t) :
    tvuIssue p .none opc f s = (s.setTile p t).bump := by
  obtain ⟨prog, word, waitv, slots, -, events, pc, isOpc, legal⟩ := h
  rw [tvuIssue_runs prog word waitv slots events pc isOpc legal ho, hf]

/-- Outside delay slots and repeats the program goes on to the next word. -/
theorem advance_of_plain {t : Tile} {g : Prog} (hp : t.prog = some g) (hs : g.slots = 0) (hr : g.rep = none) :
    t.advance = { t with prog := some { g with pc := g.pc + 1 } } := by simp [Tile.advance, hp, hs, hr]

/-! ## What the events of a row leave -/

/-- Only flag words and contexts have changed from `t` to `u`. -/
def FlagsOnly (t u : Tile) : Prop :=
  ∃ c0 c1 fArr fH1 fMvp, u = { t with c0 := c0, c1 := c1, fArr := fArr, fH1 := fH1, fMvp := fMvp }

theorem FlagsOnly.refl (t : Tile) : FlagsOnly t t := ⟨_, _, _, _, _, rfl⟩

theorem raise_flagsOnly (t : Tile) (e : Engine) (c : Nat) (es : List (Fl × EvAt)) : FlagsOnly t (t.raise e c es) := by
  unfold Tile.raise Tile.modCtx Tile.setCtx
  cases e <;> split <;> exact ⟨_, _, _, _, _, rfl⟩

/-! ## Vector registers (R131) -/

theorem vphys_injective (t : Tile) {n m : Nat} (hn : n < 32) (hm : m < 32) (h : t.vphys n = t.vphys m) : n = m := by
  unfold Tile.vphys at h
  split at h <;> split at h <;> omega

theorem tiVD_lt (w : Word32) : tiVD w < 32 := Nat.mod_lt _ (by decide)

theorem getD_map_range {α : Type} {n j : Nat} (h : j < n) (f : Nat → α) (d : α) : ((List.range n).map f).getD j d = f j := by
  simp [h]

/-! ## The rows -/

section
variable {i : Instr} {s : State} {p opc : Nat} {g : Prog} {w : Word32}

/-- A row that leaves a tile which differs from `t` in its flags alone, and goes on. -/
theorem answers_row {F : Nat → Word32 → Tile → TvuOut} {t u : Tile} {P : State → Prop} (h : Issues s p g w) (ho : tiOpc w = opc)
    (he : exec i s = .next (tvuIssue p .none opc F s)) (hF : F g.ctx w (s.tile p) = .ok u.advance) (hu : FlagsOnly t u)
    (hp : t.prog = (s.tile p).prog)
    (hP : ∀ y c0 c1 fArr fH1 fMvp, OnlyTile p s y → y.tile p = { t with
      c0 := c0, c1 := c1, fArr := fArr, fH1 := fH1, fMvp := fMvp, prog := some { g with pc := g.pc + 1 } } → P y) :
    Answers i s P := by
  obtain ⟨c0, c1, fArr, fH1, fMvp, rfl⟩ := hu
  have ⟨prog, _, _, slots, rep, _⟩ := h
  refine answers_of_eq he (tvuIssue_ok h ho hF) (hP _ c0 c1 fArr fH1 fMvp ⟨rfl, fun q hq => tile_setTile_ne hq ..⟩ ?_)
  exact (tile_setTile ..).trans (advance_of_plain (hp.trans prog) slots rep)

/-- A row that writes `lanes` to VD. -/
theorem answers_vector {F : Nat → Word32 → Tile → TvuOut} {lanes : List Word32} {u : Tile} {f : Nat → Word32} (h : Issues s p g w)
    (ho : tiOpc w = opc) (he : exec i s = .next (tvuIssue p .none opc F s)) (hF : F g.ctx w (s.tile p) = .ok u.advance)
    (hu : FlagsOnly ((s.tile p).setVreg (tiVD w) (tiT w) lanes) u)
    (hl : ∀ j, j < 64 → lanes.getD j 0 = if (s.tile p).laneOn w j then f j else ((s.tile p).vreg (tiVD w)).getD j 0) :
    Answers i s (VectorResult p g w f s) := by
  refine answers_row h ho he hF hu rfl fun y c0 c1 fArr fH1 fMvp only tile => ?_
  rw [VectorResult, GoesOn, tile]
  have own : ((s.tile p).setVreg (tiVD w) (tiT w) lanes).vreg (tiVD w) = lanes := tget_tput ..
  refine ⟨only, rfl, tget_tput .., fun j hj => (congrArg (List.getD · j 0) own).trans (hl j hj), fun n hn ne => ?_, rfl, rfl, rfl,
    rfl, rfl, rfl⟩
  have apart : (s.tile p).vphys n ≠ (s.tile p).vphys (tiVD w) := fun e => ne (vphys_injective _ hn (tiVD_lt w) e)
  exact ⟨tget_tput_ne apart .., tget_tput_ne apart ..⟩

/-- A row whose lanes are computed one by one. -/
theorem answers_tvuVec {F : Tile → Word32 → Nat → Word32 × List Fl} {f : Nat → Word32} (h : Issues s p g w)
    (ho : tiOpc w = opc) (he : exec i s = .next (tvuVec p .none opc F s)) (hf : ∀ j, j < 64 → (F (s.tile p) w j).1 = f j) :
    Answers i s (VectorResult p g w f s) := by
  refine answers_vector h ho he rfl (raise_flagsOnly ..) fun j hj => ?_
  rw [List.map_map, getD_map_range hj, ← hf j hj]
  exact apply_ite Prod.fst ..

/-- A reduction leaves its result in every lane that is computed. -/
theorem answers_tvuReduce {isMax : Bool} {neutral : Word32} (h : Issues s p g w) (ho : tiOpc w = opc)
    (he : exec i s = .next (tvuReduce p .none opc isMax neutral s)) :
    Answers i s (VectorResult p g w (fun _ => (tree isMax (tiT w) (tiRnd w) 6 ((List.range 64).map (fun j =>
      { v := if (s.tile p).laneOn w j then laneOf (s.tile p) (tiVA w) j else neutral, lane := j, operand := true }))).1) s) :=
  answers_vector h ho he rfl (raise_flagsOnly ..) fun _ hj => getD_map_range hj ..

end

/-! ## The lane mask as a number -/

/-- From bit `n` on, the number has the values of `f` on the elements of the list as its bits. -/
theorem testBit_foldl_b2n {α : Type} (f : α → Bool) (l : List α) : ∀ (n a : Nat), a < 2 ^ n → ∀ j,
    ((l.zipIdx n).foldl (fun a q => a + b2n (f q.1) * 2 ^ q.2) a).testBit j =
      if j < n then a.testBit j else (l[j - n]?.map f).getD false := by
  induction l with
  | nil =>
    intro n a ha j
    split
    · rfl
    · next h => exact Nat.testBit_lt_two_pow (Nat.lt_of_lt_of_le ha (Nat.pow_le_pow_right (by decide) (Nat.not_lt.mp h)))
  | cons x l ih =>
    intro n a ha j
    have bit_ : b2n (f x) ≤ 1 := by unfold b2n; split <;> decide
    have lt : a + b2n (f x) * 2 ^ n < 2 ^ (n + 1) := by
      have := Nat.mul_le_mul_right (2 ^ n) bit_
      omega
    rw [List.zipIdx_cons, List.foldl_cons, ih _ _ lt, Nat.add_comm a, Nat.mul_comm, Nat.testBit_two_pow_mul_add _ ha]
    rcases Nat.lt_trichotomy j n with h | rfl | h
    · simp [h, Nat.lt_succ_of_lt h]
    · cases hx : f x <;> simp [b2n, hx]
    · have : j - n = (j - (n + 1)) + 1 := by omega
      rw [if_neg (by omega), if_neg (by omega), this, List.getElem?_cons_succ]

/-- Bit `j` of the number that the lanes of a compare make. -/
theorem bit_ofNat_foldl {α : Type} (f : α → Bool) (l : List α) {j : Nat} (hj : j < 64) :
    bit (BitVec.ofNat 64 ((l.zipIdx).foldl (fun a q => a + b2n (f q.1) * 2 ^ q.2) 0)) j = (l[j]?.map f).getD false := by
  rw [bit, BitVec.getLsbD_ofNat, testBit_foldl_b2n f l 0 0 (by decide) j]
  simp [hj]

end Sys2Proof.Machine

open Sys2Proof Sys2Proof.Machine

/-- Settles O17: every row but VCMP goes through `answers_vector`, most of them lane by lane (`answers_tvuVec`), and VCMP through the
bits of the number that it writes to VM (`bit_ofNat_foldl`). -/
theorem tvuVectorRows : Obligations.TvuVectorRows := by
  unfold Obligations.TvuVectorRows
  refine ⟨⟨fun p s g w h => ⟨fun o => ?vadd, fun o => ?vsub, fun o => ?vmul, fun o => ?vmad, fun o => ?vmax, fun o => ?vmin,
      fun o => ?vsel⟩, fun p s g w h o => ?vcmp⟩,
    fun p s g w h => ⟨fun o => ?vcvt, fun o => ?vshr, fun o => ?vshl, fun o => ?vexp, fun o => ?vrcp, fun o => ?vrsq,
      fun o => ?vtanh, fun o => ?vrsum, fun o => ?vrmax, fun o => ?vbin2, fun o => ?vslide, fun o => ?vbcst,
      fun o => ?vsplat⟩⟩
  case vcmp =>
    refine answers_row h o rfl rfl (raise_flagsOnly ..) rfl fun y c0 c1 fArr fH1 fMvp only tile => ?_
    rw [GoesOn, tile]
    refine ⟨only, rfl, rfl, rfl, fun j hj => (bit_ofNat_foldl Prod.fst _ hj).trans ?_⟩
    rw [List.getElem?_map, List.getElem?_range hj]
    exact apply_ite Prod.fst ..
  case vrsum | vrmax => exact answers_tvuReduce h o rfl
  case vsplat => exact answers_vector h o rfl rfl (.refl _) fun j hj => getD_map_range hj ..
  case vbin2 => exact answers_tvuVec h o rfl fun j _ => apply_ite Prod.fst ..
  case vadd | vsub | vmul | vmad | vmax | vmin | vsel | vcvt | vshr | vshl | vexp | vrcp | vrsq | vtanh | vslide | vbcst =>
    exact answers_tvuVec h o rfl fun j _ => rfl
end

section
/-! What the cancel of a task that runs nowhere replies: the tag of the task that it found, not of its place in the ledger. -/
set_option autoImplicit false
namespace Sys2Proof.Machine

/-- A started command on channel 1 whose parameters are the first `plen` bytes of unit 0 of the parameter store. -/
def startedEntry (opc seq plen : Nat) : LgEntry :=
  { seq := BitVec.ofNat 48 seq, chan := 1, state := .started, world := true, fence := false, marked := true
    opc := BitVec.ofNat 16 opc, plen := BitVec.ofNat 13 plen, punit := 0, pchk := 0, order := 0, alive := 0 }

/-- Entry 5 cancels task 4 of channel 1, and place 6 of the ledger is listed twice: first as task 3, which has no parameters, then
as task 4, whose tag is 1. -/
def listedTwice : State :=
  { State.reset with keel := {
      current := some 5, pstoreW := [(0, bytesOfWords [1, 4])]
      ledger := [(5, startedEntry 0x31 9 16), (6, startedEntry 0x30 3 0), (6, startedEntry 0x30 4 8)] } }

end Sys2Proof.Machine

open Sys2Proof Sys2Proof.Machine

/-- Refutes O48, by its last clause: the cancel searches the ledger by sequence number (`State.findSeq`), writes the task that it
finds back with its mark, and replies with the tag of what it wrote, while the statement takes the tag of the entry that stood at
that place (`State.entry`). Nothing in the statement says that a ledger lists a place once, and in `listedTwice` the two differ:
the reply has tag 1, the statement asks for 0. -/
theorem not_taskCommands : ¬ Obligations.TaskCommands := by
  unfold Obligations.TaskCommands
  rintro ⟨-, cancel⟩
  obtain ⟨-, answers⟩ := cancel 1 listedTwice 5 (startedEntry 0x31 9 16) ⟨rfl, rfl, rfl, rfl, nofun⟩
  obtain ⟨-, -, -, unstarted⟩ := answers (by decide)
  obtain ⟨t, ht, -, -, cancelled, -⟩ := unstarted 6 (startedEntry 0x30 4 8) (by decide) nofun (by decide) rfl
  cases ht
  have tag := congrArg (fun e => (e.bind LgEntry.reply).map Reply.det1) cancelled
  exact absurd tag (by decide)
end
